-- ==== Sys2Proof/Word.lean ====
section
/-!
DEFINITION. Words and bytes of the DV8 model: the widths the manual gives a name (R12, R13, R17) and the plain
bit-field accessors over them. A bit vector stands only for what the manual treats as bits.
-/

namespace Sys2Proof

/-- One byte of a memory structure (R13). -/
abbrev Byte := BitVec 8

/-- One 32-bit element of a vector register, an FP32 value or an INT32 value (R146). -/
abbrev Word := BitVec 32

/-- A control register (R17). -/
abbrev Reg := BitVec 64

/-- The 64 bytes of a submission entry, byte b in bits 8b + 7 to 8b (R13, R389). -/
abbrev Entry := BitVec 512

/-- Bits hi down to lo of a register, NAME[hi:lo] of R12, as a number. -/
def fieldOf (r : Reg) (hi lo : Nat) : Nat := (r.toNat >>> lo) % 2 ^ (hi + 1 - lo)

/-- The register r with bits hi down to lo replaced by v. -/
def withField (r : Reg) (hi lo v : Nat) : Reg :=
  let w := hi + 1 - lo
  BitVec.ofNat 64 (r.toNat - (fieldOf r hi lo <<< lo) + ((v % 2 ^ w) <<< lo))

/-- Bit n of a register. -/
def bitOf (r : Reg) (n : Nat) : Bool := r.toNat.testBit n

/-- 1 or 0. -/
def bit (b : Bool) : Nat := if b then 1 else 0

end Sys2Proof
end

