-- ==== Sys2Proof/Config.lean ====
section
/-!
DEFINITION. What an implementation fixes: the three parts of R3 and their per-part figures, and the FREE VALUES of
the model, constants without a body that stand wherever the manual leaves a value open. Nothing can evaluate a free
value, so a statement about one holds whatever it is (notes/assumptions names each).
-/

namespace Sys2Proof

/-- The three parts of R2 and R3. -/
inductive Part where
  | dv8 | dv4 | dv2
  deriving DecidableEq, Repr

namespace Config

/-- Compute dies populated (R3). -/
def dies : Part → Nat | .dv8 => 8 | .dv4 => 4 | .dv2 => 2

/-- HBM4 stacks (R3): two to a die. -/
def stackCount (p : Part) : Nat := 2 * dies p

/-- Crews (R3, R24): eight to a die. -/
def crews (p : Part) : Nat := 8 * dies p

/-- Near memory in GiB (R3). -/
def nearGiB (p : Part) : Nat := 128 * dies p

/-- Far-memory ports (R3). -/
def farPorts : Part → Nat | .dv2 => 2 | _ => 4

/-- Novmund ports (R3, R419). -/
def nlPorts : Part → Nat | .dv2 => 4 | _ => 8

/-- Reset value and upper bound of GOV_CTL.SUSTAINED_W (R3, ch. 17). -/
def sustainedW : Part → Nat | .dv8 => 2400 | .dv4 => 1300 | .dv2 => 700

/-- Lower bound of SUSTAINED_W (ch. 17). -/
def sustainedMinW : Part → Nat | .dv8 => 1200 | .dv4 => 650 | .dv2 => 350

/-- Reset value and upper bound of GOV_CTL.PEAK_W (R3, ch. 17). -/
def peakW : Part → Nat | .dv8 => 2600 | .dv4 => 1450 | .dv2 => 800

/-- PEAK_MIN (ch. 17). -/
def peakMinW : Part → Nat | .dv8 => 1500 | .dv4 => 850 | .dv2 => 450

/-- Crews required to stay below SERVICE_REQUIRED (R3, R473). -/
def crewsRequired : Part → Nat | .dv8 => 56 | .dv4 => 28 | .dv2 => 14

/-- SKU.PART (ch. 20). -/
def partCode : Part → Nat | .dv8 => 0 | .dv4 => 1 | .dv2 => 2

/-- FREE VALUE: one byte of the 4 KiB header of a boathouse slot, whose layout R321 does not give (log entry 12). -/
opaque slotHeaderByte : Nat → Byte

/-- FREE VALUE: the next state of the 31-bit LFSR of R143, whose polynomial the manual does not give (log entry 13). -/
opaque lfsrNext : BitVec 31 → BitVec 31

/-- FREE VALUE: e25, alpha and the static power words of capability 0x0070, characterised for each package and not
published (R446, R508) (log entry 15). -/
opaque energyWord : Nat → Word

/-- FREE VALUE: bytes of FW_BUILD, which identify a firmware build (R507) (log entry 16). -/
opaque fwBuildByte : Nat → Byte

/-- FREE VALUE: a byte of the FRU text of a CPER record for a unit whose name the manual does not give (R478; log entry 29): by UNIT_KIND,
UNIT and place. -/
opaque fruByte : Nat → Nat → Nat → Byte

/-- FREE VALUE: the near-memory address at which an offset of a region lies, which no rule gives (log entry 17). -/
opaque nearAddress : Nat → Nat → Reg

/-- FREE VALUE: a byte of a table's row that another member of the shell holds, as it stands at the commit point before a stroke (R366, R375;
log entry 31): by stroke, table number, row and byte. -/
opaque remoteRowByte : Nat → Nat → Nat → Nat → Byte

/-- FREE VALUE: the tokens of a passage that another member of the shell holds (R257; log entry 117): by package and local id. -/
opaque remotePassage : Nat → Nat → List Nat

/-- FREE VALUE: where the grammar unit puts the mask of a row in crew SRAM, beside the logits (R109; log entry 145): by request slot and row. -/
opaque maskPlace : Nat → Nat → Nat

/-- FREE VALUE: an element that a stage takes from an operation list and the list does not deliver (R46, R259; log entry 123): by the
image's BUILD_ID, WHAT and element (for RERANK the pair). -/
opaque missingOutput : Nat → Nat → Nat → Word

/-- FREE VALUE: FMP_STATUS.REJECT of an expander that fails R345's requirement on poison or on retention, for which the field has no value (log
entry 149): by the expander's serial number. -/
opaque rejectOther : Nat → Byte

/-- FREE VALUE: the mean interval figure the manual leaves open is asked for by a counter of State (log entry 17). -/
opaque freeValue : Nat → Word

end Config

end Sys2Proof
end

