-- ==== Sys2Proof/Syntax.lean ====
section
/-!
DEFINITION. The commands of the DV8 as a block: every operation and event of spec/opcode_table.json is one constructor of
Instr, with what the outside world supplies when it happens. A register write carries the access, an entry carries the
64 bytes the device fetched, an event from an analogue or outside unit carries what that unit reports.
-/

namespace Sys2Proof

/-- A submission ring: the owning function (0 the physical function) and the local ring number (R380). -/
structure RingRef where
  fn : Nat
  ring : Nat
  deriving DecidableEq, Repr

/-- Which part of a 64-bit register an access covers (R17). -/
inductive Half where
  | full | low | high
  deriving DecidableEq, Repr

/-- A register write as the host port sees it: the function whose window it arrives in, the half, and the data; a 32-bit
access uses data bits 31:0. -/
structure RegAccess where
  fn : Nat
  half : Half
  data : Reg
  deriving DecidableEq, Repr

/-- The three readers that have a holding register of their own (R493). -/
inductive Reader where
  | host | cox | bmc
  deriving DecidableEq, Repr

/-- The three configuration registers of a region (ch. 12). -/
inductive RegionReg where
  | base | size | cfg
  deriving DecidableEq, Repr

/-- The fields of a lane instruction word other than OPC (R150). -/
structure LaneFields where
  vd : BitVec 4
  va : BitVec 4
  vb : BitVec 4
  vc : BitVec 4
  pred : BitVec 3
  pneg : Bool
  bsrc : BitVec 2
  ty : BitVec 2
  imm : BitVec 32
  deriving DecidableEq, Repr

/-- The 43 opcodes of R153. -/
inductive LaneOp where
  | nop | add | sub | mul | fma | min | max | abs | neg | div | cmpeq | cmplt | cmple | sel | mov
  | and | or | xor | shl | shra | shrl | cvtfi | cvtif
  | rcp | sqrt | rsqrt | exp2 | log2 | sinpi | cospi | tanh
  | rsum | rmax | rmin | bcast | iota | sget | ld | st | popq | selpush | signal | wait
  deriving DecidableEq, Repr

/-- A row tag (R116, R161): the request slot a row belongs to, or none, and the SPEC bit. For a SPEC row, row is its place 1 to
8 in the decode step, by which it is accepted or discarded (R544); else 0. -/
structure RowTag where
  slot : Option Nat
  spec : Bool
  row : Nat
  deriving DecidableEq, Repr

/-- Where streamed rows come from (R116). -/
inductive RowSpace where
  | tileStore | crewSram
  deriving DecidableEq, Repr

/-- The stream instruction of a matrix array (R116). Format codes are those of R179. -/
structure PassOp where
  statAddr : Nat
  statScaleAddr : Nat
  rowSpace : RowSpace
  rowAddr : Nat
  rowScaleAddr : Nat
  m : Nat
  rowFormat : Nat
  statFormat : Nat
  accIn : Option Nat
  keepTile : Bool
  faultPolicy : Bool
  tags : List RowTag
  deriving DecidableEq, Repr

/-- One operation record of a running unit: the request slot, the run within the unit (a pair of RERANK, else 0), the core
that runs it and the record's index in the model's OPLISTS section (R183). -/
structure RecRef where
  slot : Nat
  run : Nat
  core : Nat
  index : Nat
  deriving DecidableEq, Repr

/-- The cox cores' estimate for one candidate unit (R308, R446): the time it takes of each compute die at m = 16 in ns,
its dynamic energy on each die in microjoules at the die's temperature and before the correction factor, whether its FAR tiles
or its grammar mask are still being brought in, and whether the unit ends its stage (R40). -/
structure UnitEst where
  slot : Nat
  dieNs : List Nat
  dynUj : List Nat
  farMissing : Bool
  maskMissing : Bool
  endsStage : Bool
  deriving DecidableEq, Repr

/-- What the cox cores and the power management controller supply at a stroke boundary (R307, R449): the estimates and the
static power of each die in milliwatts at its temperature. -/
structure BoundaryData where
  units : List UnitEst
  staticMw : List Nat
  deriving DecidableEq, Repr

/-- A far-memory expander as the cox cores find it (R345). -/
structure Expander where
  serial : Nat
  type3 : Bool
  multiLogical : Bool
  volatileRange : Bool
  capacityGib : Nat
  widthX16 : Bool
  wideEnough : Bool
  rate64 : Bool
  fastEnough : Bool
  poison : Bool
  retains : Bool
  deriving DecidableEq, Repr

/-- What patrol scrub finds at one 32-byte word of a region's near copy (R349, R354). -/
inductive ScrubFind where
  | clean | correctable | uncorrectable (syndrome : Nat)
  deriving DecidableEq, Repr

/-- One word that patrol scrub visits: the region and the byte offset of the word within it. -/
structure ScrubVisit where
  region : Nat
  offset : Nat
  find : ScrubFind
  deriving DecidableEq, Repr

/-- A unit the device watches (R469): a core by the number 9 × crew + physical core, or a crew's SRAM. -/
inductive UnitRef where
  | core (n : Nat)
  | crew (n : Nat)
  deriving DecidableEq, Repr

/-- The samples of one 10 µs period (R444): for each compute die 0 to 7 and the hub (index 8) the temperatures of the die and
its two stacks, and the energy in microjoules each rail drew. -/
structure SensorData where
  dieC : List Int
  stack0C : List Int
  stack1C : List Int
  energyUj : List Nat
  deriving DecidableEq, Repr

/-- A port's training result (R421): 8, 4 or 0 lanes, and the peer of a direct link when it is known. -/
structure TrainResult where
  lanes : Nat
  peer : Option (Nat × Nat)
  deriving DecidableEq, Repr

/-- What a CONTROL frame carries (R429, R430, R440): the manual gives its purposes, not its bytes (log entry 18). -/
inductive Control where
  | none
  | joinRequest (pkg regatta : Nat) (timeMaster : Bool)
  | joinRefused (reason : Nat)
  | epoch (regatta epoch leader : Nat) (members masters : List Nat)
  | leaveRequest (pkg : Nat)
  | heartbeat (pkg : Nat)
  | shellJoin (shell pkg member : Nat) (members : List Nat)
  | shellFormed (shell : Nat)
  | shellEnd (shell : Nat)
  | restart (shell : Nat)
  | ready (shell member : Nat)
  | regattaSeen (regatta leader : Nat)
  deriving DecidableEq, Repr

/-- A Novmund frame (R423, R424). -/
structure Frame where
  version : Nat
  hops : Nat
  kind : Nat
  src : Nat
  dst : Nat
  shell : Nat
  seq : Nat
  payload : List Byte
  control : Control
  fecOk : Bool
  srcAddr : Nat
  deriving DecidableEq, Repr

/-- A fault that restarts the shell (R440) as its detector reports it: the event code and class of R462, the unit, the
two details and whether the event touched committed work. -/
structure FaultReport where
  code : Nat
  unitKind : Nat
  unit : Nat
  detail0 : Nat
  detail1 : Nat
  committed : Bool
  dieReset : Option Nat
  deriving DecidableEq, Repr

/-- The outcome of a re-run of a check sample (R467): the core that ran it and the rows that differ. -/
structure CheckResult where
  sample : Nat
  core : Nat
  rowsDiffer : List Nat
  deriving DecidableEq, Repr

/-- Which runs agree once the arbiter has run (R467). -/
inductive Agreement where
  | checkerAndArbiter | originalAndArbiter | none
  deriving DecidableEq, Repr

/-- The outcome of an arbiter run (R467). -/
structure ArbiterResult where
  sample : Nat
  core : Nat
  agreement : Agreement
  deriving DecidableEq, Repr

/-- What the platform security block and the handover check report of a firmware slot (R500, R512, R513). -/
structure FwImage where
  slot : Nat
  present : Bool
  signatureOk : Bool
  rollbackOk : Bool
  contractMajor : Nat
  handoverOk : Bool
  major : Nat
  minor : Nat
  patch : Nat
  deriving DecidableEq, Repr

/-- The PLDM type 2 sensors of R517. -/
inductive Sensor where
  | powerW | energyMj | temp (d : Nat) (which : Nat) | healthLevel | bootStage
  deriving DecidableEq, Repr


/-- The commands of the DV8: one constructor for each row of spec/opcode_table.json. -/
inductive Instr where
  /-- LOAD_MODEL (R196): Admin command that copies a model image from a gather list, checks it, places its tensors and installs it with a new handle at a commit point. -/
  | loadModel (q : RingRef) (e : Entry)
  /-- UNLOAD_MODEL (R199): Admin command that makes a model handle unusable for later commands; the image's space returns when the last bound request ends. -/
  | unloadModel (q : RingRef) (e : Entry)
  /-- LOAD_VOCAB (R81): Admin command that copies and checks a vocabulary image and installs it in a slot at a commit point, or empties the slot. -/
  | loadVocab (q : RingRef) (e : Entry)
  /-- LOAD_GRAMMAR (R105): Admin command that copies and checks a grammar image and installs it in a grammar slot at a commit point, or empties the slot. -/
  | loadGrammar (q : RingRef) (e : Entry)
  /-- INDEX_CREATE (R204): Admin command that copies, checks and places an index image, installing it in an index slot with its epoch, or empties the slot. -/
  | indexCreate (q : RingRef) (e : Entry)
  /-- INDEX_MERGE (R229): Admin command that folds side-list entries into a new index epoch built over strokes and installed at one commit point. -/
  | indexMerge (q : RingRef) (e : Entry)
  /-- ABORT (R401): Admin command that, at its fetch, looks for the target tag and replies CAUGHT, NOT_CAUGHT or NOT_FOUND. -/
  | abort (q : RingRef) (e : Entry)
  /-- ENTER_POWER_STATE_STANDBY (R403): Admin command that stops fetching on other rings, drains requests and enters STANDBY. -/
  | enterPowerStateStandby (q : RingRef) (e : Entry)
  /-- ENTER_POWER_STATE_RETAIN (R403): Admin command that stops fetching on other rings, drains requests and enters RETAIN. -/
  | enterPowerStateRetain (q : RingRef) (e : Entry)
  /-- ENTER_POWER_STATE_ACTIVE (R455): Admin command that wakes the device from STANDBY or RETAIN, or completes at once when ACTIVE. -/
  | enterPowerStateActive (q : RingRef) (e : Entry)
  /-- GET_LOG_ERROR_PAGE (R399): Admin command (LOG_ID 0x01) that returns a ring's 64-byte error log page. -/
  | getLogErrorPage (q : RingRef) (e : Entry)
  /-- GET_LOG_ERROR_RECORDS (R463): Admin command (LOG_ID 0x02) that returns error records from the live log as a byte stream. -/
  | getLogErrorRecords (q : RingRef) (e : Entry)
  /-- SET_FEATURE_ARBITRATION (R382): SET_FEATURE 0x10 that sets the class weights and age limits. -/
  | setFeatureArbitration (q : RingRef) (e : Entry)
  /-- SET_FEATURE_SERVING (R313): SET_FEATURE 0x21 that sets STROKE_TARGET_US and PAGE_WAIT_STROKES. -/
  | setFeatureServing (q : RingRef) (e : Entry)
  /-- SET_FEATURE_PARTITION (R315): SET_FEATURE 0x22 that sets or disbands a partition's functions, pseudo-channels, ways and KV quota. -/
  | setFeaturePartition (q : RingRef) (e : Entry)
  /-- SET_FEATURE_BOATHOUSE (R326): SET_FEATURE 0x23 that sets the boathouse region, default TTL, size and slot count. -/
  | setFeatureBoathouse (q : RingRef) (e : Entry)
  /-- SET_FEATURE_PACK_TEMPLATE (R264): SET_FEATURE 0x31 that loads, checks and installs a pack template, or empties its slot. -/
  | setFeaturePackTemplate (q : RingRef) (e : Entry)
  /-- SET_FEATURE_PASSAGE_STORE (R254): SET_FEATURE 0x32 that binds or unbinds a passage store to an index slot after checking its header. -/
  | setFeaturePassageStore (q : RingRef) (e : Entry)
  /-- SET_FEATURE_GET (R391): SET_FEATURE with GET set that writes a feature's current value block to host memory and changes nothing. -/
  | setFeatureGet (q : RingRef) (e : Entry)
  /-- SHELL_JOIN (R435): Admin command that enters the package into a shell named by a shell block. -/
  | shellJoin (q : RingRef) (e : Entry)
  /-- FIRMWARE_ACTIVATE (R512): Admin command that verifies a firmware slot and loads it into standby memory for handover. -/
  | firmwareActivate (q : RingRef) (e : Entry)
  /-- TABLE_CREATE (R363): TABLE_CREATE with OP CREATE that checks a table block and installs a STORED or COMPOSED table at a commit point. -/
  | tableCreate (q : RingRef) (e : Entry)
  /-- TABLE_DELETE (R364): TABLE_CREATE with OP DELETE that removes a table at a commit point unless a composed table names it. -/
  | tableDelete (q : RingRef) (e : Entry)
  /-- SHELL_END (R442): Admin command that ends the package's shell, unloads its images and returns members to SOLO. -/
  | shellEnd (q : RingRef) (e : Entry)
  /-- QUERY (R45): I/O command that checks its query block, takes a slot and runs the selected stages from text to results or generation. -/
  | query (q : RingRef) (e : Entry)
  /-- EMBED (R94): Standalone I/O command that frames tokens and runs a model's EMBED binding to a dense vector and sparse terms. -/
  | embed (q : RingRef) (e : Entry)
  /-- SEARCH (R211): Standalone I/O command that runs SEARCH and optionally REFINE on a vector input and writes a report and result list. -/
  | search (q : RingRef) (e : Entry)
  /-- RERANK (R273): Standalone I/O command that re-ranks a host candidate list with a cross-encoder. -/
  | rerank (q : RingRef) (e : Entry)
  /-- PACK (R273): Standalone I/O command that packs a host candidate list's passages into a prompt with a span map. -/
  | pack (q : RingRef) (e : Entry)
  /-- GENERATE (R276): Standalone I/O command that prefills a token prompt and streams generated tokens under a generation parameter block. -/
  | generate (q : RingRef) (e : Entry)
  /-- PAUSE_CONVERSATION (R321): I/O command with ACTION PAUSE that copies a conversation into a boathouse or host slot and frees its pages. -/
  | pauseConversation (q : RingRef) (e : Entry)
  /-- RELEASE (R324): PAUSE_CONVERSATION with ACTION RELEASE that frees every buffer of a conversation and enters its id in the recent table. -/
  | release (q : RingRef) (e : Entry)
  /-- RESUME_CONVERSATION (R324): I/O command that reads a paused conversation's slot back into KV pages and leaves it OPEN. -/
  | resumeConversation (q : RingRef) (e : Entry)
  /-- TOKENIZE (R93): Standalone I/O command that tokenises input bytes by greedy longest match into token ids. -/
  | tokenize (q : RingRef) (e : Entry)
  /-- DETOKENIZE (R100): Standalone I/O command that renders token ids to bytes with UTF-8 hold-back. -/
  | detokenize (q : RingRef) (e : Entry)
  /-- INDEX_INSERT (R226): I/O command that appends INSERT entries to an index's side list at one commit point. -/
  | indexInsert (q : RingRef) (e : Entry)
  /-- INDEX_DELETE (R226): I/O command that appends DELETE entries for live ids to an index's side list at one commit point. -/
  | indexDelete (q : RingRef) (e : Entry)
  /-- TABLE_ROW_WRITE (R373): I/O command that writes rows of a STORED table, published together at one commit point. -/
  | tableRowWrite (q : RingRef) (e : Entry)
  /-- TABLE_ROW_READ (R377): I/O command that returns rows of a STORED table as they stood at the commit point before its stroke. -/
  | tableRowRead (q : RingRef) (e : Entry)
  /-- RUN_OPLIST (R194): I/O command that runs a model's GENERIC binding on input bytes. -/
  | runOplist (q : RingRef) (e : Entry)
  /-- FENCE (R393): I/O command that holds further fetches from its ring until every earlier command from that ring has completed. -/
  | fence (q : RingRef) (e : Entry)
  /-- SWEEP (R386): Expiry of a function's sweep timer: the summary bitmap is read and swapped and flagged pairs' doorbell records are read. -/
  | sweep (fn : Nat)
  /-- DOORBELL_ERROR_COMPLETION (R387): A held doorbell error completion is posted into the first free unreserved completion slot. -/
  | doorbellErrorCompletion (q : RingRef)
  /-- RING_ENABLE (R384): RING_CMD ENABLE that checks a ring pair's configuration and makes it ACTIVE. -/
  | ringEnable (q : RingRef)
  /-- RING_DISABLE (R384): RING_CMD DISABLE that stops fetching and moves the pair to STOPPING. -/
  | ringDisable (q : RingRef)
  /-- RING_RESUME (R384): RING_CMD RESUME that restarts fetching of a FROZEN ring at SQ_HEAD. -/
  | ringResume (q : RingRef)
  /-- RING_RESET (R384): RING_CMD RESET that drops unfetched entries of a ring and makes it ACTIVE. -/
  | ringReset (q : RingRef)
  /-- RING_STOPPED (R384): A STOPPING ring pair becomes DISABLED once IN_FLIGHT reaches 0. -/
  | ringStopped (q : RingRef)
  /-- RING_ALLOC_WRITE (R383): A write to RING_ALLOC that divides ring pairs among functions when its conditions hold. -/
  | ringAllocWrite (f : Nat) (w : RegAccess)
  /-- INTERRUPT_MODERATION_TIMEOUT (R402): Expiry of a completion ring's MOD_TIME window raises its MSI-X vector or a deferred stream vector. -/
  | interruptModerationTimeout (q : RingRef) (stream : Option Nat)
  /-- FUNCTION_LEVEL_RESET (R404): A PCIe FLR of one function resets its rings, ends its requests and releases its conversations. -/
  | functionLevelReset (fn : Nat)
  /-- STROKE_BOUNDARY (R307): At a stroke boundary the cox cores order candidate units, place them and the governor admits a prefix at a clock ratio. -/
  | strokeBoundary (b : BoundaryData)
  /-- STROKE_COMMIT (R63): Commit point of a stroke: confirmed values cross the finish line, rejected speculation is discarded and outputs and completions are written. -/
  | strokeCommit (measured : List Nat)
  /-- SYNC_TIMEOUT (R173): Expiry of the 8 ms stroke bound with a WAIT still open restarts the shell. -/
  | syncTimeout (crew obj : Nat)
  /-- KV_POOL_EXHAUSTED (R310): A request that has waited PAGE_WAIT_STROKES consecutive strokes for a KV page ends. -/
  | kvPoolExhausted (slot : Nat)
  /-- AGEING_PROMOTION (R396): A request whose age reaches its class limit is promoted to URGENT at the next stroke boundary. -/
  | ageingPromotion (slot : Nat)
  /-- FAR_TILE_RESIDENT (R308): Tiles of a FAR tensor read for a WAITING unit arrive in near memory and the request returns to READY. -/
  | farTileResident (slot : Nat)
  /-- PASS (R116): Stream instruction of the matrix array that holds a stationary tile and streams M rows through it. -/
  | pass (core : Nat) (p : PassOp)
  /-- TILE_OFFERED (R165): An output tile of a pass is offered to the tile hand-off queue and its slot becomes READY. -/
  | tileOffered (core : Nat)
  /-- DUMMY_GAP (R143): In dummy mode a gap in streamed rows starts dummy rows through the held stationary tile. -/
  | dummyGap (core : Nat)
  /-- DUMMY_DUTY_STEP (R143): Every 125 ns after a gap reaches 2 µs the dummy duty falls by 1/16. -/
  | dummyDutyStep (core : Nat)
  /-- MATMUL (R185): Operation record that multiplies ROW by a weight tensor in chains of passes. -/
  | matmul (r : RecRef)
  /-- ELEMWISE (R138): Operation record that runs an element-wise product or fused add on the array. -/
  | elemwise (r : RecRef)
  /-- EXPERT_MATMUL (R186): Operation record that multiplies each row by the expert weights its ROUTE value names. -/
  | expertMatmul (r : RecRef)
  /-- VECTOR (R187): Operation record that launches a lane program over its loop shape and writes any selection result at its end. -/
  | vector (r : RecRef)
  /-- VECTOR_Q (R167): Operation record that launches a lane program draining a bound pass through POPQ. -/
  | vectorQ (r : RecRef)
  /-- GATHER (R370): Operation record that reads one embedding-table row per lookup id. -/
  | gather (r : RecRef)
  /-- KV_WRITE (R188): Operation record that writes rows into a request's committed or shadow KV pages. -/
  | kvWrite (r : RecRef)
  /-- PREFETCH (R188): Operation record that moves routed FAR tensor tiles into near memory. -/
  | prefetch (r : RecRef)
  /-- COLLECTIVE (R439): Operation record that all-reduces, all-gathers, reduce-scatters or broadcasts across shell members in tree order. -/
  | collective (r : RecRef)
  /-- SELECT_MERGE (R248): Operation record that merges ordered selection lists into the first K of their union. -/
  | selectMerge (r : RecRef)
  /-- VERIFY (R285): Operation record that samples each row and accepts drafts equal to the sampled tokens. -/
  | verify (r : RecRef)
  /-- EMIT (R184): Operation record that delivers a dense vector, sparse terms, scores or logits as the stage output. -/
  | emit (r : RecRef)
  /-- NOP (R153): Lane instruction that does nothing for one cycle. -/
  | nop (core : Nat) (f : LaneFields)
  /-- ADD (R153): Lane instruction d = a + b. -/
  | add (core : Nat) (f : LaneFields)
  /-- SUB (R153): Lane instruction d = a − b. -/
  | sub (core : Nat) (f : LaneFields)
  /-- MUL (R153): Lane instruction d = a × b. -/
  | mul (core : Nat) (f : LaneFields)
  /-- FMA (R154): Lane instruction d = a × b + c with one rounding. -/
  | fma (core : Nat) (f : LaneFields)
  /-- MIN (R153): Lane instruction d = min(a, b). -/
  | min (core : Nat) (f : LaneFields)
  /-- MAX (R153): Lane instruction d = max(a, b). -/
  | max (core : Nat) (f : LaneFields)
  /-- ABS (R153): Lane instruction d = abs(a). -/
  | abs (core : Nat) (f : LaneFields)
  /-- NEG (R153): Lane instruction d = −a. -/
  | neg (core : Nat) (f : LaneFields)
  /-- DIV (R153): Lane instruction d = a ÷ b in FP32. -/
  | div (core : Nat) (f : LaneFields)
  /-- CMPEQ (R153): Lane instruction writing a predicate of a == b. -/
  | cmpeq (core : Nat) (f : LaneFields)
  /-- CMPLT (R153): Lane instruction writing a predicate of a < b. -/
  | cmplt (core : Nat) (f : LaneFields)
  /-- CMPLE (R153): Lane instruction writing a predicate of a ≤ b. -/
  | cmple (core : Nat) (f : LaneFields)
  /-- SEL (R153): Lane instruction selecting a or b by a predicate. -/
  | sel (core : Nat) (f : LaneFields)
  /-- MOV (R153): Lane instruction d = b. -/
  | mov (core : Nat) (f : LaneFields)
  /-- AND (R153): Lane instruction bitwise AND. -/
  | and (core : Nat) (f : LaneFields)
  /-- OR (R153): Lane instruction bitwise OR. -/
  | or (core : Nat) (f : LaneFields)
  /-- XOR (R153): Lane instruction bitwise XOR. -/
  | xor (core : Nat) (f : LaneFields)
  /-- SHL (R153): Lane instruction shift left. -/
  | shl (core : Nat) (f : LaneFields)
  /-- SHRA (R153): Lane instruction arithmetic shift right. -/
  | shra (core : Nat) (f : LaneFields)
  /-- SHRL (R153): Lane instruction logical shift right. -/
  | shrl (core : Nat) (f : LaneFields)
  /-- CVTFI (R155): Lane instruction converting FP32 to INT32 with rounding and saturation. -/
  | cvtfi (core : Nat) (f : LaneFields)
  /-- CVTIF (R154): Lane instruction converting INT32 to FP32. -/
  | cvtif (core : Nat) (f : LaneFields)
  /-- RCP (R157): Lane instruction 1 ÷ a. -/
  | rcp (core : Nat) (f : LaneFields)
  /-- SQRT (R157): Lane instruction square root. -/
  | sqrt (core : Nat) (f : LaneFields)
  /-- RSQRT (R157): Lane instruction reciprocal square root. -/
  | rsqrt (core : Nat) (f : LaneFields)
  /-- EXP2 (R157): Lane instruction 2^a. -/
  | exp2 (core : Nat) (f : LaneFields)
  /-- LOG2 (R157): Lane instruction log2 a. -/
  | log2 (core : Nat) (f : LaneFields)
  /-- SINPI (R157): Lane instruction sin(π a). -/
  | sinpi (core : Nat) (f : LaneFields)
  /-- COSPI (R157): Lane instruction cos(π a). -/
  | cospi (core : Nat) (f : LaneFields)
  /-- TANH (R157): Lane instruction tanh a. -/
  | tanh (core : Nat) (f : LaneFields)
  /-- RSUM (R158): Lane instruction summing a segment or register by a pairwise tree. -/
  | rsum (core : Nat) (f : LaneFields)
  /-- RMAX (R158): Lane instruction taking the maximum of a segment or register by a pairwise tree. -/
  | rmax (core : Nat) (f : LaneFields)
  /-- RMIN (R158): Lane instruction taking the minimum of a segment or register by a pairwise tree. -/
  | rmin (core : Nat) (f : LaneFields)
  /-- BCAST (R153): Lane instruction broadcasting one element to every element. -/
  | bcast (core : Nat) (f : LaneFields)
  /-- IOTA (R153): Lane instruction writing element indices. -/
  | iota (core : Nat) (f : LaneFields)
  /-- SGET (R153): Lane instruction copying one element to a scalar register. -/
  | sget (core : Nat) (f : LaneFields)
  /-- LD (R159): Lane instruction loading the next chunk of a load port with format conversion. -/
  | ld (core : Nat) (f : LaneFields)
  /-- ST (R159): Lane instruction storing a register chunk to a store port with format conversion. -/
  | st (core : Nat) (f : LaneFields)
  /-- POPQ (R166): Lane instruction reading the next four rows of the tile hand-off queue. -/
  | popq (core : Nat) (f : LaneFields)
  /-- SELPUSH (R169): Lane instruction passing score and index pairs to the selection unit. -/
  | selpush (core : Nat) (f : LaneFields)
  /-- SIGNAL (R171): Lane instruction adding to a sync object after prior stores are visible. -/
  | signal (core : Nat) (f : LaneFields)
  /-- WAIT (R171): Lane instruction stalling until a sync object reaches a target. -/
  | wait (core : Nat) (f : LaneFields)
  /-- WAIT_COMPLETE (R171): A stalled WAIT completes when its sync object reaches the target. -/
  | waitComplete (core : Nat)
  /-- REGION_ENABLE (R342): REGION_CMD ENABLE that checks a software region's configuration and reserves its near copy. -/
  | regionEnable (fn region : Nat)
  /-- REGION_DISABLE (R342): REGION_CMD DISABLE that writes back dirty tiles and frees the near copy. -/
  | regionDisable (fn region : Nat)
  /-- REGION_FLUSH (R342): REGION_CMD FLUSH that writes back tiles dirty at acceptance while the region serves. -/
  | regionFlush (fn region : Nat)
  /-- REGION_INVALIDATE (R342): REGION_CMD INVALIDATE that writes back dirty tiles and drops the near copy. -/
  | regionInvalidate (fn region : Nat)
  /-- REGION_CMD_COMPLETE (R342): A region command finishes, sets RESULT and clears BUSY. -/
  | regionCmdComplete
  /-- REGION_CONFIG_WRITE (R341): A write to a region's base, size or configuration, ignored with CFG_IGNORED unless the region is DISABLED. -/
  | regionConfigWrite (region : Nat) (which : RegionReg) (w : RegAccess)
  /-- MEM_CTL_WRITE (R346): A write to MEM_CTL whose FM_INTERLEAVE change rebuilds the far-memory map only when no region uses far memory. -/
  | memCtlWrite (w : RegAccess)
  /-- FMP_RETRAIN (R346): FMP_CTL RETRAIN that retrains a far-memory link without stopping traffic. -/
  | fmpRetrain (port : Nat) (w : RegAccess)
  /-- FMP_LINK_LOSS (R347): A serving far-memory port loses its link and retraining of up to 10 ms begins. -/
  | fmpLinkLoss (port : Nat)
  /-- FMP_RETRAIN_END (R347): The link returns with the same expander or the 10 ms expire and regions on the port enter FAILED. -/
  | fmpRetrainEnd (port : Nat) (sameExpander : Bool)
  /-- FMP_READ_TIMEOUT (R347): A far-memory read exceeding 50 µs is treated as returning poison. -/
  | fmpReadTimeout (port addr latencyNs : Nat)
  /-- PATROL_SCRUB (R354): Patrol scrub reads near-memory words over each SCRUB_HOURS period, correcting or poisoning errors. -/
  | patrolScrub (v : ScrubVisit)
  /-- CE_RATE (R469): Corrected events on a core or crew reach CE_LIMIT within one hour and count as an attributed event. -/
  | ceRate (u : UnitRef) (events : Nat)
  /-- WRITE_BUFFER_DRAIN (R356): A published write-buffer unit drains to its region in publication order. -/
  | writeBufferDrain
  /-- DMA_START (R413): DMA_CTL START that begins a transfer after checking contiguous sides. -/
  | dmaStart (ch : Nat) (w : RegAccess)
  /-- DMA_PAUSE (R413): DMA_CTL PAUSE that stops a transfer at the next unit boundary. -/
  | dmaPause (ch : Nat) (w : RegAccess)
  /-- DMA_RESUME (R413): DMA_CTL RESUME that continues a paused transfer from BYTES_DONE. -/
  | dmaResume (ch : Nat) (w : RegAccess)
  /-- DMA_ABORT (R413): DMA_CTL ABORT that stops a transfer for good. -/
  | dmaAbort (ch : Nat) (w : RegAccess)
  /-- DMA_UNIT_MOVED (R414): A DMA channel finishes moving one unit, publishing it and stopping there on pause, abort, error or the last byte. -/
  | dmaUnitMoved (ch : Nat)
  /-- MB_H2D_POST (R407): A write of H2D_PROD posts host messages or is ignored with H2D_OVERRUN. -/
  | mbH2dPost (w : RegAccess)
  /-- MB_D2H_CONSUME (R409): A write of D2H_CONS frees device-to-host slots unless it passes D2H_PROD. -/
  | mbD2hConsume (w : RegAccess)
  /-- MB_DB_RING (R409): A write of MB_DB.RING sets firmware-side doorbell bits. -/
  | mbDbRing (w : RegAccess)
  /-- MAILBOX_RESPONSE (R408): The firmware consumes an H2D message and answers it with one D2H response. -/
  | mailboxResponse (ch : Nat)
  /-- MB_D2H_POST (R407): A held device-to-host message is posted once its direction has space. -/
  | mbD2hPost (ch : Nat)
  /-- CAL_COMMIT (R494): CAL_CTL COMMIT that loads the set seconds and fraction into the calendar and moves boathouse expiries. -/
  | calCommit (w : RegAccess)
  /-- CAL_TIME_READ (R493): A read including CAL_TIME bits 31:0 latches the upper seconds and fraction and sets HELD. -/
  | calTimeRead (a : Reader) (h : Half)
  /-- CAL_SUBSEC_READ (R493): A read of CAL_SUBSEC returns the held fraction and clears HELD, or the live fraction. -/
  | calSubsecRead (a : Reader) (h : Half)
  /-- TIMESTAMP_READ (R497): A read including TIMESTAMP bits 31:0 latches bits 63:32. -/
  | timestampRead (h : Half)
  /-- CALENDAR_TICK (R492): A 32.768 kHz crystal tick advances the calendar fraction by 2, and in RETAIN advances the timestamp. -/
  | calendarTick
  /-- TRIM_WINDOW_END (R495): At the end of each 2^20-tick window TRIM ticks are added or omitted. -/
  | trimWindowEnd
  /-- OSC_FAIL (R492): No crystal tick arrives for 1 ms and OSC_FAIL is set. -/
  | oscFail
  /-- BATT_LOW (R492): VBAT falls below 2.2 V and BATT_LOW is set. -/
  | battLow
  /-- BACKUP_POWER_LOSS (R496): The backup domain loses power, losing calendar, trim and scratch and setting BATT_LOST. -/
  | backupPowerLoss
  /-- BOATHOUSE_EXPIRY (R327): A paused conversation's expiry instant passes; its slot is freed and its id enters the recent table. -/
  | boathouseExpiry (fn conv : Nat)
  /-- PWROK_RISE (R502): PWROK rises and boot starts at stage CLOCKS. -/
  | pwrokRise (slew : BitVec 6)
  /-- PWROK_FALL (R455): PWROK falls and the package goes OFF. -/
  | pwrokFall
  /-- WARM_RST_N (R489): WARM_RST_N asserts and the warm reset sequence runs, resuming boot at ARRAY_TEST. -/
  | warmRstN
  /-- PERST_N_ASSERT (R489): PERST_N asserts and the host-port reset sequence ends requests and removes host-placed objects. -/
  | perstNAssert
  /-- PERST_N_RELEASE (R489): PERST_N is released and the host port trains. -/
  | perstNRelease
  /-- REF_LOST (R483): The 100 MHz reference stops for more than 1 µs, stopping every clock except the calendar. -/
  | refLost
  /-- CDC_TIMEOUT (R485): A crossing's destination clock stops for 65,536 CLK_CTL cycles. -/
  | cdcTimeout (crossing : Nat) (committed : Bool)
  /-- CLOCKS_DONE (R502): Boot stage CLOCKS completes when rails are confirmed and PLLs lock, or stops with an error. -/
  | clocksDone (failedRails unlockedPlls : Nat)
  /-- AUTH_DONE (R502): Boot stage AUTH completes when a firmware slot is verified and loaded, or enters recovery mode. -/
  | authDone (refused : Nat)
  /-- HUB_DONE (R502): Boot stage HUB completes after the cox cores read the non-volatile store. -/
  | hubDone
  /-- NEAR_TRAIN_DONE (R502): Boot stage NEAR_TRAIN completes when every HBM4 stack is trained or fails. -/
  | nearTrainDone (failedStacks : Nat)
  /-- ARRAY_TEST_DONE (R502): Boot stage ARRAY_TEST completes after self-tests, marking failed units and computing health. -/
  | arrayTestDone (failedCores failedSram : List Nat)
  /-- FAR_MEMORY_DONE (R502): Boot stage FAR_MEMORY completes after ports train, expanders are checked and the map is built. -/
  | farMemoryDone (xs : List (Nat × Expander))
  /-- READY (R502): Boot reaches READY once the host port has trained after the capability list is published. -/
  | ready
  /-- POWER_DRAIN_TIMEOUT (R403): DRAIN_MS passes before slots are free; the power-state command fails or forces aborts. -/
  | powerDrainTimeout
  /-- POWER_STATE_ENTERED (R457): The entry sequence completes and the device is in STANDBY or RETAIN. -/
  | powerStateEntered
  /-- POWER_STATE_EXITED (R458): The exit sequence completes after relock and the device is ACTIVE with a POWER_MARK exit record. -/
  | powerStateExited (refCountNs : Nat)
  /-- SENSOR_SAMPLE (R444): Every 10 µs the power management controller samples sensors and rail energy, updating bank, throttling and HOT. -/
  | sensorSample (d : SensorData)
  /-- PEAK_EVENT (R453): Measured power over PEAK_W makes the controller lower m by 2 each 1 µs. -/
  | peakEvent
  /-- OVER_SUSTAINED_WINDOW (R451): At the end of each 100 ms window the average power is judged against SUSTAINED_W. -/
  | overSustainedWindow
  /-- THERMTRIP (R454): A sensor reaches 115 °C; clocks stop, THERMTRIP_N asserts and a trip record is committed. -/
  | thermtrip (sensor temp : Nat)
  /-- GOV_CTL_WRITE (R547): A write to GOV_CTL judged field by field, with PEAK_W and SUSTAINED_W in two steps. -/
  | govCtlWrite (w : RegAccess)
  /-- PMB_ALERT (R538): A regulator asserts PMB_ALERT_N and a reported fault holds the clocks. -/
  | pmbAlert (fault : Bool)
  /-- JOIN (R430): REGATTA_CTL JOIN that asks to join the regatta REGATTA_ID. -/
  | join (w : RegAccess)
  /-- LEAVE (R431): REGATTA_CTL LEAVE that leaves the regatta at the next epoch. -/
  | leave (w : RegAccess)
  /-- JOIN_NO_PORT (R430): No port comes up within 100 ms of JOIN and the join fails with NO_PORT. -/
  | joinNoPort
  /-- REGATTA_FORM_ALONE (R430): Hearing no member within 10 ms, the package forms the regatta alone at epoch 1. -/
  | regattaFormAlone
  /-- EPOCH_START (R429): The leader starts a new regatta epoch with the full member list. -/
  | epochStart
  /-- NL_ENABLE (R421): NL_CTL ENABLE that starts training of a Novmund port. -/
  | nlEnable (port : Nat) (w : RegAccess)
  /-- NL_RETRAIN (R421): NL_CTL RETRAIN that retrains a Novmund port while traffic moves to other ports. -/
  | nlRetrain (port : Nat) (w : RegAccess)
  /-- CLR_CNT (R428): NL_CTL CLR_CNT that clears a port's counters. -/
  | clrCnt (port : Nat) (w : RegAccess)
  /-- NL_PORT_TRAINED (R421): A Novmund port finishes training at width 8, degraded width 4, or stays down. -/
  | nlPortTrained (port : Nat) (t : TrainResult)
  /-- DATA_FRAME (R426): A DATA frame for this package is delivered in SEQ order and acknowledged. -/
  | dataFrame (port : Nat) (f : Frame)
  /-- ACK_FRAME (R426): An ACK frame releases acknowledged frames held for retransmission. -/
  | ackFrame (port : Nat) (f : Frame)
  /-- CONTROL_FRAME (R429): A CONTROL frame carrying joins, epochs or regatta merging is handled. -/
  | controlFrame (port : Nat) (f : Frame)
  /-- TIME_FRAME (R432): A TIME frame is timestamped for path-delay and offset measurement. -/
  | timeFrame (port : Nat) (f : Frame) (rxStamp : Nat)
  /-- FRAME_FORWARD (R425): A frame for another package is forwarded by cut-through or dropped. -/
  | frameForward (port : Nat) (f : Frame)
  /-- RETRANSMIT (R426): A frame unacknowledged 20 µs after its last transmission is retransmitted, or is a path fault after 8. -/
  | retransmit (dst seq : Nat)
  /-- TIME_EXCHANGE (R432): Every 1 ms a member exchanges TIME frames and adjusts its timestamp rate. -/
  | timeExchange (offsetNs : Int)
  /-- HEARTBEAT (R431): Every 100 µs a member sends heartbeats to shell peers and its leader. -/
  | heartbeat
  /-- MEMBER_LOST (R431): A member's heartbeats are missed for 1 ms and it is declared lost. -/
  | memberLost (pkg : Nat)
  /-- SHELL_FORMED (R435): Every member has joined and the shell forms at one shell-wide commit point. -/
  | shellFormed
  /-- SHELL_JOIN_TIMEOUT (R436): Not every member joined within TIMEOUT_MS and joined packages return to SOLO. -/
  | shellJoinTimeout
  /-- SHELL_RESTART (R440): A fault in a member starts the shell restart: speculation discarded, requests ended and state reset. -/
  | shellRestart (f : FaultReport)
  /-- RESTART_FRAME (R440): A member receives a restart frame and runs the restart sequence. -/
  | restartFrame (port : Nat) (f : Frame)
  /-- MEMBER_READY (R440): The lead receives a member's ready report and starts the first stroke when all are ready. -/
  | memberReady (member : Nat)
  /-- RESTART_READY_TIMEOUT (R440): A member not ready 100 ms after a restart began is declared lost. -/
  | restartReadyTimeout
  /-- REPEAT_CHECK_COMPLETE (R467): A re-run check sample completes and is compared bit for bit, placing an arbiter on mismatch. -/
  | repeatCheckComplete (c : CheckResult)
  /-- ARBITER_COMPLETE (R467): The arbiter run completes and a verdict is attributed. -/
  | arbiterComplete (a : ArbiterResult)
  /-- CHECK_SAMPLE_DROPPED (R466): A check sample not re-run within 1 s is dropped. -/
  | checkSampleDropped (sample : Nat)
  /-- DIRECTED_TEST_COMPLETE (R471): A unit's directed test completes and the unit becomes FAILED or returns to WATCH. -/
  | directedTestComplete (u : UnitRef) (passed : Bool)
  /-- WATCHDOG (R499): A cox core's watchdog expires after 100 ms without service, restarting firmware and every shell. -/
  | watchdog (cox : Nat)
  /-- ACTIVATION_HOLD (R512): At a stroke boundary with fewer than 2,048 queued events composition is held and the handover written. -/
  | activationHold
  /-- ACTIVATION_RESUME (R512): The new firmware takes over, drains the event queue, resumes composition and posts the completion. -/
  | activationResume
  /-- ACTIVATION_BUSY_TIMEOUT (R513): The event queue stays at 2,048 entries or more for 100 ms and activation fails BUSY. -/
  | activationBusyTimeout
  /-- START_FAILED (R513): New firmware does not resume composition within 100 ms and the previous image restarts. -/
  | startFailed
  /-- PLDM_FW_SLOT_UPDATE (R511): PLDM type 5 update of the firmware slot that is not running. -/
  | pldmFwSlotUpdate (img : FwImage)
  /-- PLDM_BOOTCFG_UPDATE (R501): PLDM type 5 rewrite of the boot configuration record copy not in use. -/
  | pldmBootcfgUpdate (prefSlot spread : Nat)
  /-- PLDM_SENSOR_READ (R517): PLDM type 2 read of a numeric or state sensor. -/
  | pldmSensorRead (sensor : Sensor)
  /-- CPER_EXPORT (R479): The board-management endpoint exports a history record as a CPER record over MCTP. -/
  | cperExport (record : Nat)
  /-- SETDASA (R537): I3C dynamic address assignment of the board-management endpoint. -/
  | setdasa (static dynamic : Nat)
  /-- BOUNDARY_SCAN (R539): IEEE 1149.1 boundary-scan access on the JTAG lands. -/
  | boundaryScan (tms tdi trstN : Bool)
  /-- GPIO3_PULSE_END (R524): GPIO[3] returns to 0 100 ms after an UNCORRECTED or FATAL record. -/
  | gpio3PulseEnd
  /-- REGISTER_WRITE (R17): A write to a register with no behaviour of its own, applied field by field under the field types and reserved-encoding rule. -/
  | registerWrite (offset : Nat) (w : RegAccess)
  /-- BACKUP_DOMAIN_POWER_UP (R496): The backup domain regains power after a loss, and the calendar starts at 0 seconds with BATT_LOST set and VALID clear. -/
  | backupDomainPowerUp
  /-- BATT_LOW_CLEARED (R492): VBAT rises back above 2.2 V and BATT_LOW clears. -/
  | battLowCleared
  /-- NL_LINK_LOST (R431): A trained Novmund port loses its link and LINK_UP falls, so its traffic must leave through other allowed ports. -/
  | nlLinkLost (port : Nat)
  /-- FMP_PORT_IN_SERVICE (R346): A far-memory port that was held down or absent trains, its expander passes the checks of R345 and it enters the far-memory map. -/
  | fmpPortInService (port : Nat) (x : Expander)
  /-- SRIOV_VF_ENABLE (R383): A configuration write to VF Enable in the SR-IOV capability enables or disables the virtual functions. -/
  | sriovVfEnable (enable : Bool) (numVfs : Nat)
  deriving DecidableEq, Repr

end Sys2Proof
end

