-- ==== Sys2Proof/Machine/State.lean ====
section
/-!
DEFINITION. The state of the DV8 package, as plain data: every register, buffer, table, queue, mode and counter that the
manual gives the part, the requests and conversations it holds, the memories it reads and writes, and the queue of commands
that wait. Each field's text gives its width, the rule and file of spec/ that names it, and its value at reset. RESET is the
package with PWROK low, before PWROK_RISE starts boot (R487, R488, R502).
-/

namespace Sys2Proof.Machine

/-- A sparse map: (key, value) pairs with strictly rising keys; an absent key stands for the reader's default. -/
abbrev Sparse (α : Type) := List (Nat × α)

/-- Bytes by address in one canonical form: addresses strictly rising, no entry equal to 0, which is what an unlisted
address reads as (log entry 3). -/
abbrev Mem := List Host.Cell

/-! ### Installed objects -/

/-- The number that stands where an object has no region of its own for a part of it: no region carries it. -/
def noRegion : Nat := 65536

/-- A trie node of a vocabulary image (R87); 0xFFFF_FFFF in tok is no token. -/
structure VNode where
  tok : Nat
  first : Nat
  count : Nat
  label : Nat
  deriving DecidableEq, Repr

/-- A token of the token table (R88): its string and KIND. -/
structure VToken where
  str : List Byte
  kind : Nat
  deriving DecidableEq, Repr

/-- A resident vocabulary (R80, R85 to R88), with its place in the text-object area (R82, log entry 134). -/
structure Vocab where
  oid : Nat := 0
  len : Nat := 0
  place : Nat := 0
  bos : Nat := 0xFFFFFFFF
  eos : Nat := 0xFFFFFFFF
  pad : Nat := 0xFFFFFFFF
  sep : Nat := 0xFFFFFFFF
  byteMap : List Nat := []
  nodes : List VNode := []
  tokens : List VToken := []
  deriving DecidableEq, Repr

/-- A grammar state record (R103). -/
structure GState where
  first : Nat
  count : Nat
  accept : Bool
  deriving DecidableEq, Repr

/-- A grammar transition (R104). -/
structure GTrans where
  lo : Nat
  hi : Nat
  action : Nat
  symbol : Nat
  dest : Nat
  deriving DecidableEq, Repr

/-- A resident grammar (R80, R102), with its place in the text-object area (R82). -/
structure Grammar where
  oid : Nat := 0
  len : Nat := 0
  place : Nat := 0
  start : Nat := 0
  maxStack : Nat := 0
  states : List GState := []
  trans : List GTrans := []
  deriving DecidableEq, Repr

/-- A grammar configuration (R106): a state and a stack, top first. -/
structure GConfig where
  st : Nat
  stack : List Nat
  deriving DecidableEq, Repr

/-- An element of a pack template with its run of tokens (R266). -/
structure TElem where
  kind : Nat
  run : List Nat
  deriving DecidableEq, Repr

/-- A resident pack template (R264 to R266), with its place in the text-object area (R82). -/
structure Template where
  oid : Nat := 0
  len : Nat := 0
  place : Nat := 0
  vocabTokens : Nat := 0
  order : Nat := 0
  labelCount : Nat := 0
  minCut : Nat := 1
  elems : List TElem := []
  deriving DecidableEq, Repr

/-- A tensor descriptor (R178). -/
structure Desc where
  cls : Nat
  fmt : Nat
  rank : Nat
  placement : Nat
  scale : Nat
  tiled : Bool
  dataOff : Nat
  ext : List Nat
  stride : List Nat
  deriving DecidableEq, Repr

/-- A stage binding (R193). -/
structure Binding where
  stage : Nat := 0
  leadBos : Bool := false
  trailEos : Bool := false
  pairSep : Bool := false
  list : Nat := 0
  seqLen : Nat := 0
  outDim : Nat := 0
  sparseHead : Nat := 0
  draftMax : Nat := 0
  vocabTokens : Nat := 0
  cyclesFixed : Nat := 0
  cyclesBatch : Nat := 0
  kvBytes : Nat := 0
  deriving DecidableEq, Repr

/-- A loaded model image (R176 to R193): its tensor bytes, descriptors, 32-byte records, programs and bindings, and the device regions
that hold its near and its FAR tensors (R197, R336; log entry 134). -/
structure Model where
  oid : Nat := 0
  handle : Nat := 0
  len : Nat := 0
  nearRegion : Nat := noRegion
  farRegion : Nat := noRegion
  /-- The compute die that holds its HOME tensors (R197). -/
  homeDie : Nat := 0
  buildId : List Byte := []
  tensors : Mem := []
  descs : List Desc := []
  recs : List (BitVec 256) := []
  progs : List (List Reg) := []
  binds : List Binding := []
  /-- Times in ns of the last 64 strokes that ran its RERANK binding, with the time the binding states for the pairs each ran (R53). -/
  rerankTimes : List (Nat × Nat) := []
  deriving DecidableEq, Repr

/-- Where an item's full vector lies (R218, R230): at its place in FULL, or at a slot of the side list's vectors. -/
inductive VecLoc where
  | full (k : Nat)
  | side (slot : Nat)
  deriving DecidableEq, Repr

/-- An item of an index (R208, R230): its local id, partition, code bytes and where its full vector lies. -/
structure IxItem where
  id : Nat
  part : Nat
  code : List Byte
  loc : VecLoc
  deriving DecidableEq, Repr

/-- A side-list entry (R224). -/
inductive SideEntry where
  | insert (it : IxItem)
  | delete (id : Nat)
  deriving DecidableEq, Repr

/-- An installed index (R204 to R208, R224), with the device regions that hold FULL, the side list's vectors, and the near sections with the
side list's codes (R210, R336; log entry 134), and CODE_OFFSET of each partition. -/
structure Index where
  oid : Nat := 0
  len : Nat := 0
  metric : Nat := 0
  codeKind : Nat := 0
  fullFormat : Nat := 7
  residual : Bool := false
  hybrid : Bool := false
  dim : Nat := 8
  pqM : Nat := 0
  pqBits : Nat := 0
  parts : Nat := 1
  idCap : Nat := 0
  codeScale : Word := 0
  fullScale : Word := 0
  epoch : Nat := 1
  /-- BF16 centroids, one list of D codes per partition (R207). -/
  centroids : List (List Nat) := []
  norms : List Word := []
  /-- BF16 codebook values at [j][c][t] (R207). -/
  codebooks : List (List (List Nat)) := []
  ccn : List (List Word) := []
  items : List IxItem := []
  side : List SideEntry := []
  buildId : List Byte := []
  fullRegion : Nat := noRegion
  sideRegion : Nat := noRegion
  nearRegion : Nat := noRegion
  /-- OFFSET and LENGTH of the five sections (R206). -/
  sections : List (Nat × Nat) := []
  codeOffs : List Nat := []
  deriving DecidableEq, Repr

/-- A bound passage store (R252, R254). -/
structure Passage where
  region : Nat
  offset : Nat
  vocabTokens : Nat
  itemCount : Nat
  tableOff : Nat
  tokenOff : Nat
  imageLen : Nat
  deriving DecidableEq, Repr

/-- An embedding table (R361 to R363). The rows held here lie one after the other in its device region (R366, R367; log entry 134). -/
structure Table where
  oid : Nat := 0
  owner : Nat := 0
  kind : Nat := 0
  fmt : Nat := 0
  placement : Nat := 0
  hashKind : Nat := 0
  combine : Nat := 0
  rows : Nat := 1
  rowBytes : Nat := 4
  compA : Nat := 0
  compB : Nat := 0
  shardCount : Nat := 1
  shardIndex : Nat := 0
  seed : Nat := 0
  region : Nat := noRegion
  /-- The compute die that holds a HOME table's rows (R367). -/
  homeDie : Nat := 0
  deriving DecidableEq, Repr

/-- What the package holds installed, with the slots that name it. An object stays in its store while a slot, a request
or a conversation is bound to its oid (R83, R199, R205, R365). -/
structure Objects where
  /-- Next object number; the model's own field, log entry 4. Reset DESIGN CHOICE 1. -/
  nextOid : Nat := 1
  /-- Vocabularies held, slots 0 to 15; R80, R81, 03_text_engine.md; reset none. -/
  vocabs : List Vocab := []
  vocabSlot : Sparse Nat := []
  /-- Grammars held, slots 0 to 255; R80, R81, 03_text_engine.md; reset none. -/
  grammars : List Grammar := []
  grammarSlot : Sparse Nat := []
  /-- Pack templates held, slots 0 to 255; R264, 09_rerank_pack.md; reset none. -/
  templates : List Template := []
  templateSlot : Sparse Nat := []
  /-- Model images held, by handle 1 to 65,535; R196, R198, 06_model_images.md; reset none. -/
  models : List Model := []
  modelHandle : Sparse Nat := []
  /-- Last handle issued, 16 bits; R198, 06_model_images.md; reset 0, so that the first image takes 1. -/
  lastHandle : Nat := 0
  /-- Indexes held, slots 0 to 63; R204, R205, 07_vector_search.md; reset none. -/
  indexes : List Index := []
  indexSlot : Sparse Nat := []
  /-- Passage-store bindings by index slot; R254, 09_rerank_pack.md; reset none. -/
  passages : Sparse Passage := []
  /-- Embedding tables held, numbers 0 to 1,023; R361, 13_embedding_tables.md; reset none. -/
  tables : List Table := []
  tableSlot : Sparse Nat := []
  deriving DecidableEq, Repr

/-! ### Requests -/

/-- A candidate of a ranked list (R46, R71): global id, score, SCORE_KIND. -/
structure Cand where
  id : Nat
  score : Word
  kind : Nat
  deriving DecidableEq, Repr

/-- A span-map entry (R272). -/
structure Span where
  id : Nat
  pos : Nat
  start : Nat
  tokens : Nat
  state : Nat
  label : Nat
  deriving DecidableEq, Repr

/-- The search parameter block (R211). -/
structure SearchParams where
  nprobe : Nat := 1
  firstRound : Nat := 0
  filterTable : Nat := 0xFFFF
  filterMode : Nat := 0
  exact : Bool := false
  thresholdEn : Bool := false
  sparseWeight : Word := 0
  threshold : Word := 0
  deriving DecidableEq, Repr

/-- The generation parameter block (R275). -/
structure GenParams where
  maxNew : Nat := 1
  ttftUs : Nat := 0
  tbtUs : Nat := 0
  draftModel : Nat := 0
  grammarSlot : Nat := 0
  grammarEn : Bool := false
  renderSpecial : Bool := false
  ignoreEos : Bool := false
  sample : Bool := false
  cont : Bool := false
  srcModel : Bool := false
  srcCopy : Bool := false
  draftLimit : Nat := 0
  spanMatch : Nat := 2
  stopCount : Nat := 0
  topK : Nat := 1
  streamVector : Nat := 0xFFFF
  temperature : Word := 0x3F800000#32
  topP : Word := 0x3F800000#32
  seed : Nat := 0
  streamAddr : Nat := 0
  hdrAddr : Nat := 0
  streamLen : Nat := 8192
  convId : Nat := 0
  stops : List Nat := []
  deriving DecidableEq, Repr

/-- A tensor that EMIT delivered (R184): its record, WHAT, its format and its elements' codes in element order. -/
structure Emitted where
  record : Nat
  what : Nat
  fmt : Nat
  ext : List Nat
  codes : List Nat
  deriving DecidableEq, Repr

/-- A code that a run over drafts has written to working space: the row that its place takes it from (0 for a row without SPEC, 9 for a
tensor that is speculative as a whole, R544), its byte address and bit, its bits and its code. -/
structure WorkWrite where
  row : Nat
  addr : Nat
  bit : Nat
  bits : Nat
  code : Nat
  deriving DecidableEq, Repr

/-- One run of an operation list for one request (R189): its input parts by descriptor number, working space, KV as the run sees it
(committed content with the run's shadow writes over it, at page × 2^40 + offset), its committed pages without them, and the
shadow writes as row, descriptor, index and code (R287), and for a run over drafts the working space it began with and what it has written
there since (R66, R163); logical sync counts, records completed, flags by row under each POLICY
(0 for rows without SPEC), what it delivered, the drafts VERIFY accepted with the token after them, the collective records whose
part it has sent, the core on which each record ran (R465), and the poison its records have read: the row it belongs to (0 for rows without
SPEC), its space and its address (R353). The unit has rows token rows (0 where the stage has none), of which 1 to k are
speculative (R544); pos is P of R188. Of a tensor with seqLen rows only the first streamed ones are streamed, where seqLen is not 0 (R260). -/
structure RunCtx where
  inputs : Sparse Mem := []
  work : Mem := []
  kv : Mem := []
  kvBase : Mem := []
  kvShadow : List (Nat × Nat × List Nat × Nat) := []
  workBase : Mem := []
  written : List WorkWrite := []
  rows : Nat := 0
  k : Nat := 0
  pos : Nat := 0
  sync : Sparse Nat := []
  done : List Nat := []
  flags : Sparse Nat := []
  faultFlags : Sparse Nat := []
  emits : List Emitted := []
  verified : Option (Nat × Option Nat) := none
  sent : List Nat := []
  ran : List (Nat × Nat) := []
  poisoned : List (Nat × Nat × Nat) := []
  seqLen : Nat := 0
  streamed : Nat := 0
  deriving DecidableEq, Repr

/-- The unit of an operation-list stage that a stroke runs for a request (R302): the model and binding, the runs, the drafts
of a decode step with the number proposed and the draft model's pages after each of its runs, the position of its first token row, and the
tokens of a prefill chunk. -/
structure UnitCtx where
  stage : Nat := 0
  model : Nat := 0
  bind : Binding := {}
  runs : List RunCtx := []
  drafts : List Nat := []
  proposed : Nat := 0
  draftKv : List Mem := []
  configs : List GConfig := []
  pos : Nat := 0
  chunk : Nat := 0
  /-- A run that extends a chain of drafts (R62, R283). -/
  spec : Bool := false
  deriving DecidableEq, Repr

/-- The generation state of a request (R277 to R295). -/
structure GenState where
  ctx : List Nat := []
  prefilled : Nat := 0
  count : Nat := 0
  total : Nat := 0
  kvGen : Mem := []
  kvDraft : Mem := []
  draftSeen : Nat := 0
  grammar : Option GConfig := none
  held : List Byte := []
  producer : Nat := 0
  seq : Nat := 0
  lastCommit : Option Nat := none
  firstAt : Option Nat := none
  tbtMaxNs : Nat := 0
  tbtMisses : Nat := 0
  endReason : Nat := 0
  proposed : Nat := 0
  accepted : Nat := 0
  spans : List (Nat × Nat) := []
  pages : Nat := 0
  /-- The request holds its two shadow pages of each model (R287, R309). -/
  shadow : Bool := true
  conv : Nat := 0
  /-- Poisoned 32-byte words of the pages, by address in kvGen and kvDraft over 32, from a slot read back (R352). -/
  genPoison : List Nat := []
  draftPoison : List Nat := []
  deriving DecidableEq, Repr

/-- The pipeline context of a request (R38 to R77): the bound objects by oid, the parameters of its blocks, the hand-offs
and the figures of its report. A standalone command holds one with the stages it runs. boundTables maps table numbers to the tables they
named at fetch (R365); work is the request's working space between units (R182), and syncs its counts of the logical sync numbers of each
stage over the strokes before this one (R189). -/
structure Pipe where
  stages : List Nat := []
  started : Bool := false
  stageStart : Nat := 0
  lastStage : Nat := 0xFF
  vocab : Nat := 0
  template : Nat := 0
  grammar : Nat := 0
  embedModel : Nat := 0
  rerankModel : Nat := 0
  genModel : Nat := 0
  draftModel : Nat := 0
  index : Nat := 0
  filter : Nat := 0
  passage : Option Passage := none
  boundTables : Sparse Nat := []
  work : Mem := []
  syncs : Sparse (Sparse Nat) := []
  text : List Byte := []
  /-- The walker of a TOKENIZE that goes on: the tokens it has emitted, with the bytes of each, and its position in the text (R92). -/
  walked : List (Nat × Nat) := []
  walkPos : Nat := 0
  tokens : List Nat := []
  queryTokens : Nat := 0
  dense : List Word := []
  sparse : List (Nat × Word) := []
  searchK : Nat := 1
  refineK : Nat := 1
  returnK : Nat := 1
  rerankK : Nat := 8
  force : Bool := false
  prefetchDepth : Nat := 0
  packTokens : Nat := 1
  budgets : List Nat := []
  deadlineUs : Nat := 0
  sp : SearchParams := {}
  gp : GenParams := {}
  outAddr : Nat := 0
  outLen : Nat := 0
  renderSpecial : Bool := false
  snapshot : Nat := 0
  snapEpoch : Nat := 0
  snapTaken : Bool := false
  cands : List Cand := []
  results : List Cand := []
  nUsed : Nat := 0
  estNs : Nat := 0
  remainNs : Option Int := none
  prompt : List Nat := []
  spanMap : List Span := []
  truncated : Bool := false
  late : Bool := false
  overrun : Bool := false
  arith : Bool := false
  stageEnd : List Nat := []
  prefetched : List Nat := []
  /-- Tiles read ahead and kept: region and tile (R58 to R60, R68). -/
  prefetchTiles : List (Nat × Nat) := []
  prefetchIssued : Nat := 0
  prefetchUsed : Nat := 0
  provisional : Bool := false
  frontWritten : Bool := false
  passagesLogged : List Nat := []
  poisonAt : Option (Nat × Nat) := none
  gen : GenState := {}
  unit : Option UnitCtx := none
  emits : List Emitted := []
  deriving DecidableEq, Repr

/-- A change that takes effect at the commit point of a stroke (R81, R196, R204, R254, R264, R363 and the chapter "Set-up"
of 11_serving.md). -/
inductive Install where
  | vocab (slot : Nat) (v : Option Vocab)
  | grammar (slot : Nat) (g : Option Grammar)
  | template (slot : Nat) (t : Option Template)
  | passage (index : Nat) (p : Option Passage)
  | model (m : Model)
  | index (slot : Nat) (ix : Option Index)
  | table (n : Nat) (t : Table)
  | tableDelete (n : Nat)
  | arbitration (weight age : Reg)
  | serving (strokeUs pageWait : Nat)
  | partition (n functions pcMask wayMask quotaMib : Nat)
  | boathouse (region ttl size maxSlots : Nat)
  deriving DecidableEq, Repr

/-- What a request in a slot is doing. -/
inductive Work where
  | pipe (p : Pipe)
  | install (i : Install)
  | merge (index upTo : Nat)
  | insert (index : Nat) (items : List (IxItem × List Byte))
  | delete (index : Nat) (ids : List Nat)
  | rowWrite (table : Nat) (rows : List (Nat × List Byte))
  | rowRead (table : Nat) (rows : List Nat) (out : Nat)
  | pause (conv tier ttl addr len : Nat)
  | release (conv : Nat)
  | resume (conv : Nat)
  | power (target : Nat)
  | shellJoin
  | shellEnd
  | activate (slot : Nat)
  deriving DecidableEq, Repr

/-- The states of a request slot (R301); FREE is a slot that holds no request. -/
inductive SlotState where
  | queued | ready | running | waiting | ending
  deriving DecidableEq, Repr

/-- A request in a slot (R300 to R305, R389). -/
structure Request where
  fn : Nat
  ring : Nat
  tag : Nat
  opcode : Nat
  prio : Nat
  entry : Entry
  fetchSeq : Nat
  tFetch : Nat
  st : SlotState
  work : Work
  status : Nat := 0
  aborted : Bool := false
  aged : Bool := false
  deferred : Nat := 0
  strokes : Nat := 0
  firstAdmit : Option Nat := none
  endsStage : Bool := true
  /-- Submission-ring index of its entry (R399). -/
  sqIndex : Nat := 0
  /-- Ended by a reset: no completion is posted and nothing more is written to host memory (R404, R489). -/
  silent : Bool := false
  /-- Promoted to URGENT from the next boundary (R396). -/
  promote : Bool := false
  /-- Consecutive strokes it has waited for a KV page (R310). -/
  holdPages : Nat := 0
  /-- Why it is WAITING (R301): 1 stream room, 2 grammar mask, 3 KV page, 4 FAR tiles; 0 while it is not. -/
  wait : Nat := 0
  deriving DecidableEq, Repr

/-! ### Conversations and serving -/

/-- The states of a conversation (R318). -/
inductive ConvState where
  | active | open | pausing | paused | resuming
  deriving DecidableEq, Repr

/-- A conversation (R316, R317): its owner and id, its buffers, and while paused its slot, the calendar second of the commit point that wrote
the slot, and its expiry instant. -/
structure Conv where
  fn : Nat
  id : Nat
  st : ConvState
  ctx : List Nat := []
  count : Nat := 0
  seed : Nat := 0
  kvGen : Mem := []
  kvDraft : Mem := []
  draftSeen : Nat := 0
  prefilled : Nat := 0
  held : List Byte := []
  grammar : Option GConfig := none
  genModel : Nat := 0
  draftModel : Nat := 0
  vocab : Nat := 0
  grammarObj : Nat := 0
  pages : Nat := 0
  genPoison : List Nat := []
  draftPoison : List Nat := []
  tier : Nat := 0
  slotNo : Nat := 0
  slotOff : Nat := 0
  slotBytes : Nat := 0
  hostAddr : Nat := 0
  wroteSec : Nat := 0
  expirySec : Nat := 0
  expiryFrac : Nat := 0
  expiryCancelled : Bool := false
  deriving DecidableEq, Repr

/-- How a conversation id ended (R322). -/
inductive ConvEnd where
  | released | expired | lost
  deriving DecidableEq, Repr

/-- A partition from 1 to 15 (R314). -/
structure Partition where
  functions : Nat := 0
  pcMask : Nat := 0
  wayMask : Nat := 0
  quotaMib : Nat := 0
  deriving DecidableEq, Repr

/-- A FENCE that has been fetched and not completed (R393), or an ABORT whose target has not completed (R297). -/
structure Hold where
  fn : Nat
  ring : Nat
  tag : Nat
  opcode : Nat
  fetchSeq : Nat
  reply : Nat := 0
  target : Nat := 0
  deriving DecidableEq, Repr

/-- The serving firmware's state. -/
structure Serving where
  /-- 65,536 request slots; R300, R301, 11_serving.md; reset all FREE. -/
  slots : Sparse Request := []
  /-- Fetch order, the single sequence over all rings; R307, 11_serving.md; reset 0. -/
  fetchSeq : Nat := 0
  /-- FENCE and ABORT commands that wait; R393, R401, 14_host_rings.md; reset none. -/
  holds : List Hold := []
  /-- STROKE_TARGET_US, 16 bits; R313, 11_serving.md; reset 2,000. -/
  strokeTargetUs : Nat := 2000
  /-- PAGE_WAIT_STROKES, 16 bits; R313, 11_serving.md; reset 64. -/
  pageWait : Nat := 64
  /-- Partitions 1 to 15; R314, 11_serving.md; reset none set up. -/
  partitions : Sparse Partition := []
  /-- KV page pool in MiB; R334, 12_memory_tiers.md gives 382 GiB for the DV8-1024's reference placement; reset DESIGN CHOICE 391,168, log entry 5. -/
  kvPoolMib : Nat := 391168
  /-- Boathouse REGION, 16 bits; R326, 11_serving.md; reset DESIGN CHOICE 0, log entry 6. -/
  bhRegion : Nat := 0
  /-- Boathouse DEFAULT_TTL_S, 32 bits; R326, 11_serving.md; reset 3,600. -/
  bhTtl : Nat := 3600
  /-- Boathouse SIZE in bytes; R326, 11_serving.md; reset DESIGN CHOICE 0, log entry 6. -/
  bhSize : Nat := 0
  /-- Boathouse MAX_SLOTS; R326, 11_serving.md; reset DESIGN CHOICE 1, log entry 6. -/
  bhMaxSlots : Nat := 1
  /-- Conversations; R317, R318, 11_serving.md; reset none. -/
  convs : List Conv := []
  /-- The recent table, newest first, at most 65,536 entries of function, id and how it ended; R322, 11_serving.md; reset empty. -/
  recent : List (Nat × Nat × ConvEnd) := []
  /-- Functions whose conversations are released once the last request that a function-level reset has ended is gone; R325, 11_serving.md; reset
  none. -/
  releasing : List Nat := []
  /-- Strokes composed since reset, named by STROKE trace records; R515, 20_startup_capabilities.md; reset 0. -/
  strokeNo : Nat := 0
  /-- A stroke is between its boundary and its commit point, and since when; R302, R499; reset none. -/
  strokeSince : Option Nat := none
  /-- Units admitted into the stroke in progress; R450, 17_power_scheduling.md; reset none. -/
  admitted : List Nat := []
  deriving DecidableEq, Repr

/-! ### Rings and functions -/

/-- RING_STATUS.STATE (14_host_rings.md). -/
inductive RingState where
  | disabled | active | frozen | stopping
  deriving DecidableEq, Repr

/-- The error log page of a ring (R399). -/
structure ErrPage where
  tag : Nat := 0
  index : Nat := 0
  opcode : Nat := 0
  status : Nat := 0
  time : Nat := 0
  check : Nat := 0
  fieldOff : Nat := 0xFFFFFFFF
  block : Nat := 0
  dbSeq : Nat := 0
  deriving DecidableEq, Repr

/-- Local ring pair n of a function (R380, R384 to R388, R398, R402; 14_host_rings.md). -/
structure RingPair where
  /-- SQ_BASE, 64 bits; reset 0. -/
  sqBase : Reg := 0
  /-- CQ_BASE, 64 bits; reset 0. -/
  cqBase : Reg := 0
  /-- RING_CFG, 64 bits; reset CQ_LOG2 4, SQ_LOG2 4, SWEEP_CLASS 2, MOD_COUNT 1. -/
  cfg : Reg := 0x0000000021200040#64
  /-- RING_STATUS.SQ_HEAD, 16 bits; reset 0. -/
  sqHead : Nat := 0
  /-- RING_STATUS.CQ_TAIL, 16 bits; reset 0. -/
  cqTail : Nat := 0
  /-- RING_STATUS.CQ_PHASE; reset 1. -/
  phase : Bool := true
  /-- RING_STATUS.CMD_RESULT, 4 bits; reset 0. -/
  result : Nat := 0
  /-- RING_STATUS.STATE, 3 bits; reset DISABLED. -/
  st : RingState := .disabled
  /-- RING_ERR fields, 64 bits; reset 0. -/
  errTag : Nat := 0
  errIndex : Nat := 0
  errOpcode : Nat := 0
  errStatus : Nat := 0
  /-- Error log page, 64 bytes (R399); reset zeros with FIELD_OFFSET DESIGN CHOICE none, log entry 7. -/
  page : ErrPage := {}
  /-- ERROR_COUNT of the page, 64 bits: command errors since ENABLE; reset 0. -/
  errCount : Nat := 0
  /-- Producer index last read from the submission record (R386); reset 0. -/
  producer : Nat := 0
  /-- Consumer index last read from the completion record of completion ring n (R386); reset 0. -/
  consumer : Nat := 0
  /-- Slots of completion ring n reserved for fetched entries (R388); reset 0. -/
  reserved : Nat := 0
  /-- Time at which the pair was last handled by a sweep (R386); reset none. -/
  handledAt : Option Nat := none
  /-- RESUME or RESET has asked for the record to be read at the next sweep (R384); reset no. -/
  reread : Bool := false
  /-- Doorbell error completions of submission ring n that are held (R387); reset 0. -/
  heldErrors : Nat := 0
  /-- INDEX and SEQ of the submission and completion records last read, by which an unchanged record is told (R386); reset none. -/
  sqRec : Option (Nat × Nat) := none
  cqRec : Option (Nat × Nat) := none
  /-- Entries posted since completion ring n's last interrupt, and the time of the first (R402); reset 0, none. -/
  modCountNow : Nat := 0
  modSince : Option Nat := none
  deriving DecidableEq, Repr

/-- The ring set-up registers of one function (R379; 14_host_rings.md). -/
structure FnRegs where
  /-- FN_DOORBELL_BASE, 64 bits; reset 0. -/
  doorbell : Reg := 0
  /-- FN_SUMMARY_ADDR, 64 bits; reset 0. -/
  summary : Reg := 0
  /-- FN_SWEEP, 64 bits; reset LOW 128, MEDIUM 32, HIGH 4, URGENT 1. -/
  sweep : Reg := 0x0000002002001001#64
  deriving DecidableEq, Repr

/-- An MSI-X table entry (R381; layout as PCIe defines). -/
structure MsixEntry where
  /-- Message address, 64 bits; reset DESIGN CHOICE 0, log entry 8. -/
  addr : Nat := 0
  /-- Message data, 32 bits; reset DESIGN CHOICE 0, log entry 8. -/
  data : Nat := 0
  /-- Mask bit; reset PRESUMED 1 as PCIe gives it, log entry 8. -/
  masked : Bool := true
  /-- Pending bit; reset PRESUMED 0, log entry 8. -/
  pending : Bool := false
  deriving DecidableEq, Repr

/-- The host port's rings, functions and vectors. -/
structure HostPort where
  /-- Per-function set-up registers; R379, 14_host_rings.md; reset as FnRegs gives. -/
  fns : Sparse FnRegs := []
  /-- Ring pairs by key 1,024 × function + local number; R380, 14_host_rings.md; reset as RingPair gives. -/
  rings : Sparse RingPair := []
  /-- RING_ALLOC[f].COUNT, 11 bits each; R383, 14_host_rings.md; reset 1,024 for f = 0, 0 for others. -/
  alloc : Sparse Nat := [(0, 1024)]
  /-- ARB_WEIGHT, 64 bits; 14_host_rings.md; reset W_HIGH 8, W_MEDIUM 4, W_LOW 1. -/
  arbWeight : Reg := 0x0000000000010408#64
  /-- ARB_AGE, 64 bits; 14_host_rings.md; reset AGE_HIGH 200, AGE_MEDIUM 1,000, AGE_LOW 5,000. -/
  arbAge : Reg := 0x0000138803E800C8#64
  /-- The age limits in force, which follow ARB_AGE at each stroke boundary; R396, 14_host_rings.md; reset as ARB_AGE. -/
  ageNow : Reg := 0x0000138803E800C8#64
  /-- VF Enable of the SR-IOV capability; R379, R383, 14_host_rings.md; reset PRESUMED 0 as PCIe gives it, log entry 8. -/
  vfEnable : Bool := false
  /-- NumVFs, 0 to 63; R379, 14_host_rings.md; reset PRESUMED 0, log entry 8. -/
  numVfs : Nat := 0
  /-- MSI-X tables by key 32 × function + vector; R381, 14_host_rings.md; reset as MsixEntry gives. -/
  msix : Sparse MsixEntry := []
  /-- Time of the last raise of each stream vector, by the same key (R402); reset none. -/
  streamAt : Sparse Nat := []
  /-- Stream vectors with a raise deferred to the end of the window (R402); reset none. -/
  streamDue : List Nat := []
  /-- The host port is trained; R502, R489; reset no. -/
  trained : Bool := false
  /-- Data returned by the last register read; the model's own field, log entry 9. Reset DESIGN CHOICE 0. -/
  readData : Reg := 0
  deriving DecidableEq, Repr

/-! ### Mailboxes and DMA -/

/-- A mailbox channel (R406, R407, R409; 15_mailboxes_dma.md). -/
structure Channel where
  /-- MB_H2D_SLOT[s], sixteen slots of eight 64-bit words, as bytes; reset 0. -/
  h2d : Mem := []
  /-- MB_D2H_SLOT[s], sixteen slots of eight 64-bit words, as bytes; reset 0. -/
  d2h : Mem := []
  /-- MB_IDX fields, 5 bits each; reset 0. -/
  h2dProd : Nat := 0
  h2dCons : Nat := 0
  d2hProd : Nat := 0
  d2hCons : Nat := 0
  /-- MB_DB.PENDING, the host-side doorbell bits, 32 bits; reset 0. -/
  hostBits : Nat := 0
  /-- Firmware-side doorbell bits, 32 bits (R409); reset 0. -/
  fwBits : Nat := 0
  /-- Mask bits of the firmware side, 32 bits (R409); reset DESIGN CHOICE 0, log entry 10. -/
  fwMask : Nat := 0
  /-- MB_CFG, 64 bits; reset MASK 0xFFFF_FFFF. -/
  cfg : Reg := 0x00000000FFFFFFFF#64
  /-- MB_STATUS.H2D_OVERRUN; reset 0. -/
  overrun : Bool := false
  /-- Device-to-host messages held for space, oldest first (R407); reset none. -/
  held : List (List Byte) := []
  deriving DecidableEq, Repr

/-- DMA_STATUS.STATE (15_mailboxes_dma.md). -/
inductive DmaState where
  | idle | running | pausing | paused | done | aborted | error
  deriving DecidableEq, Repr

/-- A housekeeping DMA channel (R411 to R417; 15_mailboxes_dma.md). -/
structure Dma where
  /-- DMA_SRC, 64 bits; reset 0. -/
  src : Reg := 0
  /-- DMA_DST, 64 bits; reset 0. -/
  dst : Reg := 0
  /-- DMA_COUNT, 48 bits; reset 0. -/
  count : Reg := 0
  /-- DMA_CTL fields of type RW, 64 bits; reset 0. -/
  ctl : Reg := 0
  /-- DMA_CPL_ADDR, 64 bits; reset 0. -/
  cpl : Reg := 0
  /-- DMA_STATUS.STATE; reset IDLE. -/
  st : DmaState := .idle
  /-- DMA_STATUS.BYTES_DONE, 48 bits; reset 0. -/
  bytesDone : Nat := 0
  /-- DMA_STATUS.ERROR, 8 bits; reset 0. -/
  error : Nat := 0
  /-- DMA_STATUS.PAUSE_LATE; reset 0. -/
  pauseLate : Bool := false
  /-- STARTs since reset, 32 bits (R415); reset 0. -/
  seq : Nat := 0
  /-- An ABORT waits for the next unit boundary (R413); reset no. -/
  aborting : Bool := false
  /-- Poisoned words moved and the transfer offset of the first (R415); reset 0, none. -/
  poisonWords : Nat := 0
  poisonAt : Option Nat := none
  deriving DecidableEq, Repr

/-! ### Memory tiers -/

/-- REGION_STATE.STATE (12_memory_tiers.md). -/
inductive RegionState where
  | disabled | active | flushing | disabling | failed
  deriving DecidableEq, Repr

/-- A tile of a region's near copy (R335, R337, R348): its bytes by offset in the tile, its dirty bit, when it was last used and
its poisoned 32-byte words. -/
structure Tile where
  data : Mem := []
  dirty : Bool := false
  lastUse : Nat := 0
  poison : List Nat := []
  deriving DecidableEq, Repr

/-- A region (R336; 12_memory_tiers.md). -/
structure Region where
  /-- REGION_BASE, 64 bits; reset 0. -/
  base : Reg := 0
  /-- REGION_SIZE, 64 bits; reset 0. -/
  size : Reg := 0
  /-- REGION_CFG, 64 bits; reset 0. -/
  cfg : Reg := 0
  /-- REGION_STATE.STATE, 3 bits; reset DISABLED. -/
  st : RegionState := .disabled
  /-- Near copy by tile number; reset empty. -/
  near : Sparse Tile := []
  deriving DecidableEq, Repr

/-- A published unit of the write buffer (R356): the region, the number of the aligned 4 KiB unit, the bytes written by
offset in the unit, and the poisoned 32-byte words among them. -/
structure WbUnit where
  region : Nat
  unit : Nat
  bytes : List (Nat × Byte)
  poison : List Nat
  deriving DecidableEq, Repr

/-- A far-memory port (R344 to R347; 12_memory_tiers.md). -/
structure FarPort where
  /-- FMP_CTL.MAX_RATE, 2 bits; reset 0. -/
  maxRate : Nat := 0
  /-- FMP_CTL.ENABLE; reset 1. -/
  enable : Bool := true
  /-- FMP_STATUS fields; reset 0. -/
  capacityGib : Nat := 0
  reject : Nat := 0
  width : Nat := 0
  rate : Nat := 0
  serving : Bool := false
  linkUp : Bool := false
  /-- Serial number of the expander in service (R347); reset 0. -/
  serial : Nat := 0
  /-- Retraining after loss of link is in progress (R347); reset no. -/
  retraining : Bool := false
  /-- Reads that exceeded 50 µs (R347); reset 0. -/
  timeouts : Nat := 0
  deriving DecidableEq, Repr

/-- The memory tiers. -/
structure MemTiers where
  /-- MEM_CTL, 64 bits; 12_memory_tiers.md; reset SCRUB_HOURS 24, FM_INTERLEAVE 1. -/
  ctl : Reg := 0x0000000000001801#64
  /-- MEM_STATUS.NEAR_TRAINED; 12_memory_tiers.md; reset 0. -/
  nearTrained : Bool := false
  /-- MEM_STATUS.FM_MAP_VALID; 12_memory_tiers.md; reset 0. -/
  mapValid : Bool := false
  /-- MEM_STATUS.INTERLEAVE_FALLBACK; 12_memory_tiers.md; reset 0. -/
  fallback : Bool := false
  /-- The far-memory map in force: serving ports in order, interleaved or concatenated; R346, 12_memory_tiers.md; reset none. -/
  mapPorts : List Nat := []
  mapInterleaved : Bool := false
  /-- REGION_CMD_STATUS fields; 12_memory_tiers.md; reset 0. -/
  lastRegion : Nat := 0
  result : Nat := 0
  cfgIgnored : Bool := false
  cmdIgnored : Bool := false
  busy : Bool := false
  /-- The region command in progress: OP and region, and the tiles a FLUSH or DISABLE writes back; R342, 12_memory_tiers.md; reset none. -/
  cmd : Option (Nat × Nat) := none
  /-- Regions 0 to 255; R336, 12_memory_tiers.md; reset as Region gives. Regions 0 to 63 are the device's own; what it places beyond them
  stands at numbers from 256 up, which no register shows (log entry 134). -/
  regions : Sparse Region := []
  /-- Far-memory ports; R344, 12_memory_tiers.md; reset as FarPort gives. -/
  ports : Sparse FarPort := []
  /-- Far-memory content by far address; R346, 12_memory_tiers.md; unlisted reads 0, DESIGN CHOICE, log entry 3. -/
  far : Mem := []
  /-- Poisoned 64-byte far lines; R348, 12_memory_tiers.md; reset none. -/
  farPoison : List Nat := []
  /-- Write buffer, published units oldest first, 64 MiB; R355, R356, 12_memory_tiers.md; reset empty. -/
  wb : List WbUnit := []
  /-- Counter that dates tile uses for eviction; R339, 12_memory_tiers.md; the model's own field, log entry 4. Reset DESIGN CHOICE 0. -/
  useClock : Nat := 0
  /-- Host memory as the device sees it over the host port (T4); R32, R41; unlisted reads 0, log entry 3. -/
  host : Mem := []
  /-- Host ranges (address, length) whose reads carry poison; R348, R394; reset none. -/
  hostBad : List (Nat × Nat) := []
  /-- Host ranges (address, length) whose reads complete with an error status or time out; R394, R416; reset none. -/
  hostFail : List (Nat × Nat) := []
  deriving DecidableEq, Repr

/-! ### Cores and crews -/

/-- A slot of the tile hand-off queue (R165). -/
inductive QState where
  | free | filling | ready | held
  deriving DecidableEq, Repr

/-- An output tile (R119): its rows of 64 accumulators (FP32 bits, or 40-bit integers as integers), their tags and flags, and the pass it
comes from: the slot, run and record of a MATMUL or EXPERT_MATMUL, none for a PASS command (R167). -/
structure OutTile where
  isInt : Bool
  rows : List (List Int)
  valid : Nat
  tags : List RowTag
  flags : List Nat
  owner : Option (Nat × Nat × Nat) := none
  deriving DecidableEq, Repr

/-- One of the 16 slots of the queue. -/
structure QSlot where
  st : QState := .free
  pops : Nat := 0
  tile : Option OutTile := none
  deriving DecidableEq, Repr

/-- A pair pushed to the selection unit (R237, R238): the 64-bit index and the score as pushed. -/
structure SelPair where
  index : Nat
  score : Word
  deriving DecidableEq, Repr

/-- The selection unit of a core (R239, R241, R250). -/
structure SelUnit where
  mode : Nat := 0
  k : Nat := 1
  threshold : Word := 0
  /-- Candidate buffer, 2,048 entries. -/
  buf : List SelPair := []
  /-- Running cut, 96 bits. -/
  cut : Nat := 0
  pushed : Nat := 0
  passed : Nat := 0
  nanSeen : Bool := false
  spec : Bool := false
  deriving DecidableEq, Repr

/-- The launch a vector engine is running (R146, R148, R187): the request's slot and run, the model and record, the extent of
dimension 0, the loop extents and current indices (i0 first), the program and the instruction to run, the descriptors of
ports L0 to L3, W0 and W1 (0xFFFF unbound), the eight parameters, and for VECTOR_Q the record of its bound pass, the chunk at which the
tiles of this column of 64 begin, and the columns of 64 that follow it. -/
structure Launch where
  slot : Nat
  run : Nat
  model : Nat
  recIdx : Nat
  e0 : Nat
  ext : List Nat
  idx : List Nat
  prog : List Reg
  pc : Nat
  ports : List Nat
  selPort : Nat
  isQ : Bool
  params : List Word
  base : Nat
  bound : Nat
  left : Nat
  deriving DecidableEq, Repr

/-- The engine state of a core (R24, R143, R146, R165). -/
structure Core where
  /-- Tile store, 2 MiB, and its poisoned 64-bit words; R24, R348; unlisted reads 0, log entry 3. -/
  tileStore : Mem := []
  tsPoison : List Nat := []
  /-- V0 to V15, 256 elements of 32 bits; R146; reset +0. -/
  v : Sparse (List Word) := []
  /-- Segment tags, 4 per vector register, by key 4 × register + segment; R146; reset no request. -/
  tags : Sparse RowTag := []
  /-- S0 to S15, 32 bits; R146; reset 0. -/
  sregs : Sparse Word := []
  /-- SPEC bits of the scalar registers, held as the row they depend on, 0 for none; R543; reset clear. -/
  sspec : Sparse Nat := []
  /-- P0 to P3, 256 bits; R146; reset all ones. -/
  p : Sparse (List Bool) := []
  /-- Lane flags GOF (4), OVF (2), INV (1) by element position; R146; reset clear. -/
  laneFlags : Sparse Nat := []
  /-- Row flags gathered for a request slot, by key 16 × slot + row, with row 0 for rows without SPEC; R162, R543; reset clear. -/
  rowFlags : Sparse Nat := []
  /-- The launch in progress; R146; reset none. -/
  launch : Option Launch := none
  /-- The selection unit; R239; reset empty. -/
  sel : SelUnit := {}
  /-- Tile hand-off queue, 16 slots; R165; reset FREE. -/
  queue : Sparse QSlot := []
  /-- Next slot the array fills and oldest slot not fully read; R165; reset 0. -/
  fillAt : Nat := 0
  readAt : Nat := 0
  /-- Output tiles of passes that the array holds until a slot is FREE, oldest first; R119, R120; reset none. -/
  outTiles : List OutTile := []
  /-- The stationary tile: its format and its element values at [k][j], with block scales applied under the format; R116; reset none. -/
  statTile : Option (Nat × List Nat × List Nat) := none
  /-- Fraction of products gated by zero detection in the last pass: gated and total; R141; reset 0. -/
  gated : Nat := 0
  products : Nat := 0
  /-- Flags of the accumulator lanes that the last pass left, by row and column, which a pass seeded by its accumulators goes on from; R132,
  R134; reset clear. -/
  chain : List (List Nat) := []
  /-- A gap is in progress in dummy mode, and the duty in sixteenths; R143; reset none, 0. -/
  inGap : Bool := false
  duty : Nat := 0
  /-- The 31-bit LFSR of the dummy operands; R143; reset DESIGN CHOICE 1, log entry 13. -/
  lfsr : BitVec 31 := 1#31
  deriving DecidableEq, Repr

/-- A crew's shared state and health (R24, R171, R470, R472; FLT_CREW of 18_faults.md). -/
structure Crew where
  /-- Crew SRAM, 16 MiB, and its poisoned 64-bit words; R24, R348; unlisted reads 0, log entry 3. -/
  sram : Mem := []
  sramPoison : List Nat := []
  /-- 1,024 sync objects of 32 bits; R171, 05_vector_engine.md; reset PRESUMED 0, log entry 11. -/
  syncs : Sparse Nat := []
  /-- What each sync object stands for in the stroke: the slot, run and logical number mapped to it; R171; reset none. -/
  syncMap : Sparse (Nat × Nat × Nat) := []
  /-- FLT_CREW.FAILED_MASK, 9 bits; reset from the store: DESIGN CHOICE none, log entry 11. -/
  failed : Nat := 0
  /-- Cores in WATCH and in TESTING, 9 bits each (WATCH_MASK is their OR); reset 0. -/
  watch : Nat := 0
  testing : Nat := 0
  /-- FLT_CREW.ACTIVE_MASK, 9 bits; reset from the store: cores 0 to 7. -/
  active : Nat := 0xFF
  /-- FLT_CREW.SPARE, 4 bits; reset from the store: core 8. -/
  spare : Nat := 8
  /-- Cores that passed the directed test and wait for the crew's next restart (R471); reset 0. -/
  rejoin : Nat := 0
  /-- Crew SRAM in WATCH, in TESTING, FAILED; reset no. -/
  sramWatch : Bool := false
  sramTesting : Bool := false
  sramFailed : Bool := false
  /-- Clean checks since WATCH began, by physical core (R470); reset 0. -/
  clean : Sparse Nat := []
  /-- Operation instances of each physical core counted toward WATCH_RATE, and when an instance of the crew was last sampled; R465; the
  model's own counts, log entry 4. Reset DESIGN CHOICE 0. -/
  instances : Sparse Nat := []
  sampledAt : Nat := 0
  deriving DecidableEq, Repr

/-! ### Novmund, regatta and shell -/

/-- A Novmund port (R419 to R428; 16_regatta.md). -/
structure NlPort where
  /-- NL_CTL fields; reset 0. -/
  medium : Nat := 0
  width4 : Bool := false
  enable : Bool := false
  /-- NL_STATUS fields; reset 0. -/
  peer : Option (Nat × Nat) := none
  width : Nat := 0
  degraded : Bool := false
  training : Bool := false
  linkUp : Bool := false
  /-- NL_CNT fields, 32, 16 and 16 bits, saturating; reset 0. -/
  fecCorrected : Nat := 0
  fecUncorrected : Nat := 0
  retransmits : Nat := 0
  deriving DecidableEq, Repr

/-- A DATA frame held until it is acknowledged (R426). -/
structure TxFrame where
  frame : Frame
  port : Nat
  lastTx : Nat
  count : Nat
  deriving DecidableEq, Repr

/-- REGATTA_STATUS.STATE. -/
inductive RegattaState where
  | alone | joining | member | leaving
  deriving DecidableEq, Repr

/-- SHELL_STATUS.STATE. -/
inductive ShellState where
  | solo | joining | formed | restarting | ending
  deriving DecidableEq, Repr

/-- Novmund links, the regatta and the shell (16_regatta.md). -/
structure Net where
  /-- Novmund ports; R419; reset as NlPort gives. -/
  ports : Sparse NlPort := []
  /-- REGATTA_CTL fields REGATTA_ID, TIME_MASTER, PKG_NUM; reset 0. -/
  regattaId : Nat := 0
  timeMaster : Bool := false
  pkgNum : Nat := 0
  /-- REGATTA_STATUS fields; reset 0, STATE ALONE. -/
  epoch : Nat := 0
  members : List Nat := []
  leader : Nat := 0
  joinResult : Nat := 0
  st : RegattaState := .alone
  /-- Time at which JOIN was written (R430); reset none. -/
  joinAt : Option Nat := none
  /-- Members with TIME_MASTER set, as the epoch carries them (R432); reset none. -/
  masters : List Nat := []
  /-- Joins and leaves the leader has gathered: package, whether it joins, and its TIME_MASTER (R429, R432); reset none. -/
  changes : List (Nat × Bool × Bool) := []
  /-- A new epoch carried by the leader, adopted at the next stroke boundary: epoch, members, masters (R429); reset none. -/
  nextEpoch : Option (Nat × List Nat × List Nat) := none
  /-- The timestamp has been stepped at the join (R432); reset no. -/
  stepped : Bool := false
  /-- SHELL_STATUS fields; reset MEMBER_COUNT 1, others 0, STATE SOLO. -/
  shellId : Nat := 0
  memberCount : Nat := 1
  myMember : Nat := 0
  shell : ShellState := .solo
  /-- Packages of the shell in member order, the members that have joined, and the join's time limit (R435, R436); reset none. -/
  shellPkgs : List Nat := []
  joined : List Nat := []
  joinLimit : Nat := 0
  /-- Members that reported ready in a restart, and when the restarts of the last second began (R440); reset none. -/
  readyMembers : List Nat := []
  restarts : List Nat := []
  /-- TIME_STATUS fields OFFSET_NS (32 bits, signed), MASTER, LOCKED, and good exchanges in a row (R432); reset 0. -/
  offsetNs : Int := 0
  master : Bool := false
  locked : Bool := false
  goodExchanges : Nat := 0
  /-- ROUTE[d]: VALID and PORTS, 9 bits; R428; reset 0. -/
  route : Sparse Nat := []
  /-- Next port of the rotation for each destination (R428); reset 0. -/
  rotate : Sparse Nat := []
  /-- Next SEQ to send to, and next SEQ expected from, each package (R424, R426); reset PRESUMED 0, log entry 19. -/
  txSeq : Sparse Nat := []
  rxSeq : Sparse Nat := []
  /-- Frames held for acknowledgement (R426); reset none. -/
  unacked : List TxFrame := []
  /-- Frames that arrived ahead of their SEQ (R426); reset none. -/
  early : List Frame := []
  /-- DATA payloads delivered to the engines, oldest first (R426); reset none. -/
  delivered : List Frame := []
  /-- Frames sent, with the port, oldest first (R423); reset none. -/
  sent : List (Nat × Frame) := []
  /-- Destination addresses learned from control frames, by package number (R423); reset none. -/
  learned : Sparse Nat := []
  /-- Time of the last heartbeat heard from each package (R431); reset none. -/
  heard : Sparse Nat := []
  /-- Receipt stamps of TIME frames by package (R432); reset none. -/
  timeStamps : Sparse Nat := []
  deriving DecidableEq, Repr

/-! ### Power, clocks, time and boot -/

/-- PWR_STATUS.STATE (17_power_scheduling.md). -/
inductive PwrState where
  | active | standby | retain | entering | exiting
  deriving DecidableEq, Repr

/-- The temperatures of a compute die or of the hub (TEMP[d]; 17_power_scheduling.md). -/
structure DieTemp where
  dieC : Int := 0
  stack0C : Int := 0
  stack1C : Int := 0
  trainC : Int := 0
  valid : Bool := false
  deriving DecidableEq, Repr

/-- Power, heat and the rating governor (17_power_scheduling.md). -/
structure Gov where
  /-- GOV_CTL fields PEAK_W, SUSTAINED_W (16 bits each), THROTTLE_C, G_TH (8 each), M_CAP (5); reset 2,600, 2,400, 97, 20, 16 on the DV8-1024. -/
  peakW : Nat := 2600
  sustainedW : Nat := 2400
  throttleC : Nat := 97
  gTh : Nat := 20
  mCap : Nat := 16
  /-- Energy bank in microjoules (BANK_MJ in mJ); R448; reset 0. -/
  bankUj : Int := 0
  /-- corr[d], exact; R447; reset 1. -/
  corr : Sparse Rat := []
  /-- GOV_STATUS.M_NOW, 5 bits; reset 16. -/
  mNow : Nat := 16
  /-- GOV_STATUS.THROTTLING and HOT; reset 0. -/
  throttling : Bool := false
  hot : Bool := false
  /-- GOV_CNT fields, 16 bits each, saturating; reset 0. -/
  peakEvents : Nat := 0
  overSustained : Nat := 0
  clockLowered : Nat := 0
  deferredCnt : Nat := 0
  /-- GOV_ENERGY in microjoules; reset 0. -/
  energyUj : Nat := 0
  /-- Package energy of the last 100 samples and of each die, newest first, in microjoules (R444, R449); reset none. -/
  samples : List Nat := []
  dieSamples : List (List Nat) := []
  /-- Package energy measured in the 100 ms window in progress (R451); reset 0. -/
  windowUj : Nat := 0
  /-- Per-die estimate of the stroke in progress in microjoules (R446, R447); reset none. -/
  estimateUj : List Rat := []
  /-- A peak episode is in progress (R453); reset no. -/
  peakEpisode : Bool := false
  /-- TEMP[0] to TEMP[8]; R444; reset 0. -/
  temps : Sparse DieTemp := []
  /-- PWR_STATUS fields; reset 0, STATE ACTIVE. -/
  st : PwrState := .active
  target : PwrState := .active
  lastWake : Nat := 0
  lastExitUs : Nat := 0
  /-- WAKE_ON_DOORBELL and FORCE of the entry in progress, its drain limit and whether it is draining (R403); reset none. -/
  wakeOnDoorbell : Bool := false
  force : Bool := false
  drainUntil : Nat := 0
  draining : Bool := false
  /-- A wake arrived during ENTERING, and when the exit in progress began (R455); reset none. -/
  wakePending : Bool := false
  exitFrom : Nat := 0
  exitSince : Nat := 0
  /-- A restart that a record raised outside ACTIVE asks for at exit: 0 none, 1 the shell, 2 every shell; R476, 18_faults.md; reset 0. -/
  deferredRestart : Nat := 0
  /-- Background retrains of a die's HBM4 links done since PWROK; R459; the model's own count, log entry 4. Reset DESIGN CHOICE 0. -/
  retrains : Nat := 0
  deriving DecidableEq, Repr

/-- A holding register of the calendar (R493). -/
structure Holding where
  held : Bool := false
  secHi : Nat := 0
  frac : Nat := 0
  deriving DecidableEq, Repr

/-- The calendar and its backup domain (19_clocks_reset_time.md). -/
structure Cal where
  /-- CAL_TIME.SECONDS, 40 bits; R492; reset 0 at loss of the backup domain only. -/
  sec : Nat := 0
  /-- CAL_SUBSEC.FRACTION, 16 bits; R492; reset as SECONDS. -/
  frac : Nat := 0
  /-- Holding registers of the host port, the cox cores and board management; R493; reset clear. -/
  host : Holding := {}
  cox : Holding := {}
  bmc : Holding := {}
  /-- CAL_TIME_SET.SECONDS_SET, 40 bits; reset 0. -/
  setSec : Nat := 0
  /-- CAL_SUBSEC_SET.FRACTION_SET, 16 bits; reset 0. -/
  setFrac : Nat := 0
  /-- CAL_CTL.TRIM, signed 8 bits; reset 0. -/
  trim : Int := 0
  /-- CAL_CTL flags; reset 0. -/
  oscFail : Bool := false
  battLow : Bool := false
  battLost : Bool := false
  valid : Bool := false
  /-- CAL_SCRATCH[i], 32 registers of 64 bits; reset 0. -/
  scratch : Sparse Reg := []
  /-- Ticks counted in the trim window in progress, 0 to 2^20; R495; reset 0. -/
  windowTicks : Nat := 0
  /-- The backup domain has power; R492, R496; reset yes. -/
  powered : Bool := true
  deriving DecidableEq, Repr

/-- Clocks, resets and the timestamp (19_clocks_reset_time.md). -/
structure Clocks where
  /-- CLKGEN_CTL.SPREAD, 2 bits; reset from the boot configuration record: 0 without a valid copy (R501). -/
  spread : Nat := 0
  /-- CLKGEN_STATUS fields; reset 0. -/
  hbmLock : Nat := 0
  spreadNow : Nat := 0
  refLost : Bool := false
  tbLock : Bool := false
  rootLock : Bool := false
  /-- Every clock but the calendar's has stopped: THERMTRIP, loss of reference, or a regulator fault (R454, R483, R538); reset no. -/
  stopped : Bool := false
  /-- RST_STATUS fields DIE_RESETS, PERSTS (16 bits each) and CAUSE (4); reset 0. -/
  dieResets : Nat := 0
  persts : Nat := 0
  cause : Nat := 0
  /-- TIMESTAMP, 64 bits, ns; R497; reset 0. -/
  ts : Nat := 0
  /-- Upper half latched by a read of the lower; R497; reset 0. -/
  tsHi : Nat := 0
  /-- Rate adjustment in ppm and the fraction of a count it has gathered, in millionths; R432; reset 0. -/
  ratePpm : Int := 0
  rateFrac : Int := 0
  /-- Nanoseconds still to be absorbed at half rate, and its phase; R498; reset 0. -/
  halfDebt : Nat := 0
  halfPhase : Bool := false
  /-- Sixty-fourths of a nanosecond gathered in RETAIN, and the timestamp at entry; R498; reset 0. -/
  retainFrac : Nat := 0
  retainFrom : Nat := 0
  deriving DecidableEq, Repr

/-- A boot configuration record (R501). -/
structure BootCfg where
  valid : Bool := false
  generation : Nat := 0
  prefSlot : Nat := 0
  spread : Nat := 0
  deriving DecidableEq, Repr

/-- The steps of firmware activation (R512). -/
inductive ActState where
  | idle | loaded | held
  deriving DecidableEq, Repr

/-- An entry of the hardware event queue (R514). An error detection carries its event code and what it restarts: 0 nothing, 1 the
shell, 2 every shell (R462). -/
inductive Event where
  | sweep (fn : Nat)
  | strokeBound
  | watchdog (cox : Nat)
  | boathouse (fn conv : Nat)
  | crossing (n : Nat)
  | doorbell (ch bit : Nat)
  | error (code restart : Nat)
  deriving DecidableEq, Repr

/-- Start-up, firmware and the event queue (20_startup_capabilities.md). -/
structure Boot where
  /-- BOOT_STATUS fields STAGE, READY, ACTIVATING, ERROR, DETAIL; reset 0. -/
  stage : Nat := 0
  ready : Bool := false
  activating : Bool := false
  error : Nat := 0
  detail : Nat := 0
  /-- The capability list is published and the host port may train (R502); reset no. -/
  published : Bool := false
  /-- Recovery mode (R504); reset no. -/
  recovery : Bool := false
  /-- The two firmware slots of the boot flash; R500; reset DESIGN CHOICE: slot 0 holds version 1.0.0, slot 1 empty, log entry 20. -/
  slots : Sparse FwImage := [(0, ⟨0, true, true, true, 1, true, 1, 0, 0⟩)]
  /-- The two copies of the boot configuration record; R501; reset DESIGN CHOICE: both invalid, log entry 20. -/
  cfg0 : BootCfg := {}
  cfg1 : BootCfg := {}
  /-- REV fields FW_MAJOR, FW_MINOR, FW_PATCH, ACTIVE_SLOT; reset from boot, DESIGN CHOICE 0 before it, log entry 20. -/
  fwMajor : Nat := 0
  fwMinor : Nat := 0
  fwPatch : Nat := 0
  activeSlot : Nat := 0
  /-- Firmware activation: its step, the slot being activated, when composition was held; R512; reset none. -/
  act : ActState := .idle
  actSlot : Nat := 0
  actSince : Nat := 0
  /-- Hardware event queue, oldest first, 4,096 entries; R514; reset empty. -/
  evq : List Event := []
  /-- EVQ_STATUS.HIGH_WATER and LOSSES; reset 0. -/
  highWater : Nat := 0
  losses : Nat := 0
  /-- HEALTH as last computed: LEVEL, SHORT, CREWS_SERVICEABLE, ACTIVE_CORES (R473); reset from boot, 0 before it, log entry 20. -/
  level : Nat := 0
  short : Bool := false
  serviceable : Nat := 0
  activeCores : Nat := 0
  /-- An HBM4 stack failed training at start-up (R473); reset no. -/
  stackFailed : Bool := false
  /-- Dummy mode is in force on every active core (R142); reset no. -/
  dummy : Bool := false
  /-- Package serial number (capability 0x0001); R507; reset DESIGN CHOICE 1, log entry 20. -/
  serial : Nat := 1
  deriving DecidableEq, Repr

/-- Lands and low-speed signals (21_package_electrical.md). -/
structure Pins where
  /-- PWROK, PERST_N and WARM_RST_N levels; R487; reset low, low, high. -/
  pwrok : Bool := false
  perstN : Bool := false
  warmRstN : Bool := true
  /-- THERMTRIP_N level; R454; reset high (not asserted). -/
  thermtripN : Bool := true
  /-- GPIO[3] output; R524, 21_package_electrical.md; reset DESIGN CHOICE 0, log entry 21. GPIO[2:0] mirror fields of other
  registers and hold nothing of their own. -/
  gpio3 : Bool := false
  /-- SLEW straps sampled at PWROK, 2 bits each of I3C, QSPI, GPIO; R530; reset 0. -/
  slew : BitVec 6 := 0
  /-- A PMB_ALERT_N fault holds the clocks; R538; reset no. -/
  pmbHold : Bool := false
  /-- I3C dynamic address, 7 bits, once assigned; R537; reset none. -/
  i3cAddr : Option Nat := none
  /-- Last answer of the board-management endpoint, as bytes; R517, R479; the model's own field, log entry 9. Reset DESIGN CHOICE empty. -/
  bmcOut : List Byte := []
  /-- In-band interrupts raised toward the board controller; R537; reset 0. -/
  ibis : Nat := 0
  /-- IEEE 1149.1 test access port: controller state 0 to 15 and instruction register; R539; reset PRESUMED Test-Logic-Reset, log entry 22. -/
  tapState : Nat := 0
  /-- BYPASS bit of the test access port; R539; reset PRESUMED 0, log entry 22. -/
  tapBypass : Bool := false
  deriving DecidableEq, Repr

/-! ### Faults and trace -/

/-- A 64-byte error record (R461). -/
structure ErrRec where
  time : Nat := 0
  seq : Nat := 0
  cls : Nat := 0
  action : Nat := 0
  code : Nat := 0
  unitKind : Nat := 0
  unit : Nat := 0
  committed : Bool := false
  isRepeat : Bool := false
  suspect : Bool := false
  nv : Bool := false
  verdict : Nat := 0
  fn : Nat := 0xFFFF
  tag : Nat := 0xFFFFFFFF
  ring : Nat := 0xFFFF
  pkg : Nat := 0
  shell : Nat := 0
  count : Nat := 1
  space : Nat := 0
  addr : Nat := 0
  detail0 : Nat := 0
  detail1 : Nat := 0
  deriving DecidableEq, Repr

/-- A failure signature (R477). -/
structure Signature where
  crewActive : Nat := 0
  eventsTotal : Nat := 0
  eventsWindow : Nat := 0
  firstCal : Nat := 0
  lastCal : Nat := 0
  serviceable : Nat := 0
  health : Nat := 0
  deriving DecidableEq, Repr

/-- A record of the non-volatile history (R464); powerCycle is the start-up count at detection. -/
structure HistRec where
  record : ErrRec
  sig : Signature
  calSec : Nat
  calValid : Bool
  attributed : Option UnitRef
  startup : Nat
  deriving DecidableEq, Repr

/-- A check sample (R465 to R467): the unit that ran it, its outputs and the bytes it takes of the check buffer, where its re-run stands, and
the request rows it names. -/
structure Sample where
  id : Nat
  core : Nat
  slot : Nat
  fn : Nat
  tag : Nat
  ring : Nat
  model : Nat
  recIdx : Nat
  outputs : Mem
  bytes : Nat
  takenAt : Nat
  checker : Option Nat
  rowsDiffer : List Nat
  deriving DecidableEq, Repr

/-- Faults and silent errors (18_faults.md). -/
structure Faults where
  /-- FLT_CTL, 64 bits; reset REPEAT_RATE 64, WATCH_RATE 16, WATCH_CLEAN 1,024, HIST_LIMIT 3, HIST_DAYS 30, CE_LIMIT 16. -/
  ctl : Reg := 0x00401040031E1000#64
  /-- FLT_LOG.NEWEST_SEQ, 32 bits; reset 0. -/
  newest : Nat := 0
  /-- FLT_LOG.STARTUPS, 16 bits; reset from the store: DESIGN CHOICE 0, log entry 11. -/
  startups : Nat := 0
  /-- The live log, newest first, 4,096 records; R463; reset empty. -/
  live : List ErrRec := []
  /-- The non-volatile history, newest first, 4,096 records; R464; kept by every reset, DESIGN CHOICE empty, log entry 11. -/
  history : List HistRec := []
  /-- FLT_CNT fields, 24, 16, 8, 8, 8 bits, saturating; reset 0. -/
  ceNear : Nat := 0
  ceSram : Nat := 0
  ue : Nat := 0
  mismatches : Nat := 0
  restarts : Nat := 0
  /-- FLT_CHECKS, 64 bits; reset 0. -/
  checksRun : Nat := 0
  /-- Check samples held in the check buffer; R466; reset none. -/
  samples : List Sample := []
  nextSample : Nat := 0
  /-- Operation instances counted toward REPEAT_RATE; R465; reset DESIGN CHOICE 0, log entry 11. -/
  instances : Nat := 0
  /-- The trip record of R454 waiting for the next start-up: sensor and temperature; reset none. -/
  trip : Option (Nat × Nat) := none
  deriving DecidableEq, Repr

/-- A 32-byte trace record (R515). -/
structure TraceRec where
  time : Nat
  kind : Nat
  spec : Bool
  discontinuity : Bool
  exit : Bool
  unit : Nat
  tag : Nat
  a : Nat
  b : Nat
  deriving DecidableEq, Repr

/-- Trace and the speculation counters (R515, R516; 20_startup_capabilities.md). -/
structure Trace where
  /-- TRACE_CTL, 64 bits; reset WRAP 1, others 0. -/
  ctl : Reg := 2#64
  /-- TRACE_PTR fields DROPPED (32), WRAPPED, WRITE_INDEX (23); reset 0. -/
  dropped : Nat := 0
  wrapped : Bool := false
  writeIndex : Nat := 0
  /-- TRACE_RD.RD_PAGE, 16 bits; reset 0. -/
  page : Nat := 0
  /-- The trace buffer, 8,388,608 records; R515; reset empty. -/
  buf : Sparse TraceRec := []
  /-- DRAFTS_PROPOSED, DRAFTS_ACCEPTED, PREFETCH_ISSUED, PREFETCH_USED, 64 bits, saturating; R516; reset 0. -/
  draftsProposed : Nat := 0
  draftsAccepted : Nat := 0
  prefetchIssued : Nat := 0
  prefetchUsed : Nat := 0
  deriving DecidableEq, Repr

/-! ### The package -/

/-- The DV8 package and the queue of commands that wait, first in, first out. -/
structure State where
  /-- Which of the three parts the package is; R2, R3, 00_scope.md; fixed for the package; reset DESIGN CHOICE the DV8-1024 (R5), log entry 2. -/
  part : Part := .dv8
  pins : Pins := {}
  boot : Boot := {}
  clk : Clocks := {}
  cal : Cal := {}
  gov : Gov := {}
  mem : MemTiers := {}
  port : HostPort := {}
  /-- Mailbox channels 0 to 71; R405, 15_mailboxes_dma.md; reset as Channel gives. -/
  mbox : Sparse Channel := []
  /-- Housekeeping DMA channels 0 to 15; R411, 15_mailboxes_dma.md; reset as Dma gives. -/
  dma : Sparse Dma := []
  net : Net := {}
  flt : Faults := {}
  trace : Trace := {}
  obj : Objects := {}
  srv : Serving := {}
  /-- Cores by number 9 × crew + physical core; R24, R461; reset as Core gives. -/
  cores : Sparse Core := []
  /-- Crews by number; R24; reset as Crew gives. -/
  crews : Sparse Crew := []
  /-- Counter that each free value is asked for by; the model's own field, log entry 17. Reset DESIGN CHOICE 0. -/
  freeCtr : Nat := 0
  /-- Commands waiting, first in, first out; the model's own field. Reset empty. -/
  pending : List Instr := []
  deriving DecidableEq, Repr

/-- The package right after reset: PWROK low, every register at its reset value, nothing installed, memory with nothing
listed, and no command waiting. -/
def State.reset : State := {}

/-- Why the machine stops with a fault: an access the manual forbids and gives no effect. -/
inductive Fault where
  /-- A register access that is not naturally aligned (R17 forbids it and gives it no effect). Raised by REGISTER_WRITE. Safe. -/
  | misalignedAccess
  /-- An address beyond a core's 2 MiB tile store or a crew's 16 MiB SRAM (R24). Raised by PASS. Safe. -/
  | addressOutside
  deriving DecidableEq, Repr

/-- Why the machine gives a command no meaning. -/
inductive Refusal where
  /-- The command has no meaning in this model yet. No meaning raises it. Safe. -/
  | notModelled (mnemonic : String)
  /-- The term is no command of its row: an entry of another opcode, a number outside its range, or a reserved encoding that
  no loaded image can hold (R174, R196). Raised by every meaning that checks well-formedness. Safe. -/
  | illFormed
  /-- A lane instruction names a port that the launch does not bind; R174 rejects such a program at image load. Raised by LD
  and ST. Safe. -/
  | portUnbound
  deriving DecidableEq, Repr

end Sys2Proof.Machine
end

