-- ==== Sys2Proof/Machine/Ops.lean ====
section
/-!
DEFINITION. The named operations over the parts of State that every family shares: sparse maps, byte memories, little-endian
fields (R13), the accessors of rings, regions, channels and units by number, and how a command answers. A command's meaning
never touches the queue, the part number or the calendar's backup domain unless it is a command of that domain: finish
states this once for all of them.
-/

namespace Sys2Proof.Machine

/-! ### Sparse maps -/

/-- The value at a key, if one is listed. -/
def slookup {α : Type} : Sparse α → Nat → Option α
  | [], _ => none
  | (k, v) :: m, a => if a = k then some v else if a < k then none else slookup m a

/-- The value at a key, or the default. -/
def sgetD {α : Type} (m : Sparse α) (a : Nat) (d : α) : α := (slookup m a).getD d

/-- The map with a key set to a value; keys stay strictly rising. -/
def sset {α : Type} : Sparse α → Nat → α → Sparse α
  | [], a, v => [(a, v)]
  | (k, w) :: m, a, v =>
    if a < k then (a, v) :: (k, w) :: m else if a = k then (k, v) :: m else (k, w) :: sset m a v

/-- The map without a key. -/
def serase {α : Type} : Sparse α → Nat → Sparse α
  | [], _ => []
  | (k, w) :: m, a => if a < k then (k, w) :: m else if a = k then m else (k, w) :: serase m a

/-- Keys strictly rising. -/
def risingKeys {α : Type} : List (Nat × α) → Bool
  | [] => true
  | [_] => true
  | (k, _) :: (l, w) :: m => decide (k < l) && risingKeys ((l, w) :: m)

/-! ### Byte memories -/

/-- The byte at an address; an unlisted address reads as 0 (log entry 3). -/
def readByte (m : Mem) (a : Nat) : Byte := sgetD m a 0

/-- The memory with one byte written; the canonical form is kept, so writing 0 removes the entry. -/
def writeByte (m : Mem) (a : Nat) (b : Byte) : Mem := if b = 0 then serase m a else sset m a b

/-- n bytes from an address upward. -/
def readBytes (m : Mem) (a : Nat) : Nat → List Byte
  | 0 => []
  | n + 1 => readByte m a :: readBytes m (a + 1) n

/-- Bytes written from an address upward. -/
def writeBytes (m : Mem) (a : Nat) : List Byte → Mem
  | [] => m
  | b :: bs => writeBytes (writeByte m a b) (a + 1) bs

/-- The canonical form of a byte memory: addresses strictly rising, and no entry equal to 0. -/
def Memory.wf (m : Mem) : Bool := risingKeys m && m.all (fun c => c.2 != 0)

/-- The first address at or above lo and below hi that a list of ranges (address, length) covers. -/
def firstCovered (rs : List (Nat × Nat)) (lo hi : Nat) : Option Nat :=
  rs.foldl (fun acc r =>
    let x := max r.1 lo
    if x < min (r.1 + r.2) hi then
      match acc with
      | some y => some (min x y)
      | none => some x
    else acc) none

/-! ### Little-endian numbers (R13) -/

/-- The number whose bytes are given, least significant first. -/
def leNat : List Byte → Nat
  | [] => 0
  | b :: bs => b.toNat + 256 * leNat bs

/-- The n low bytes of a number, least significant first. -/
def leBytes : Nat → Nat → List Byte
  | 0, _ => []
  | n + 1, v => BitVec.ofNat 8 v :: leBytes n (v / 256)

/-- The n bytes of a block from offset o; bytes beyond the block read as 0. -/
def slice (bs : List Byte) (o n : Nat) : List Byte :=
  let t := (bs.drop o).take n
  t ++ List.replicate (n - t.length) 0

/-- The little-endian number in n bytes of a block from offset o. -/
def leAt (bs : List Byte) (o n : Nat) : Nat := leNat (slice bs o n)

/-- Bits hi down to lo of a number. -/
def bitsOf (v hi lo : Nat) : Nat := (v >>> lo) % 2 ^ (hi + 1 - lo)

/-- The two's-complement reading of an n-bit number. -/
def signedOf (n v : Nat) : Int := if v % 2 ^ n < 2 ^ (n - 1) then (v % 2 ^ n : Nat) else ((v % 2 ^ n : Nat) : Int) - 2 ^ n

/-- The n-bit two's-complement code of an integer. -/
def codeOf (n : Nat) (v : Int) : Nat := (v % (2 ^ n : Nat)).toNat

/-- a ÷ b rounded up; 0 when b is 0. -/
def ceilDiv (a b : Nat) : Nat := if b = 0 then 0 else (a + b - 1) / b

/-- v rounded up to a multiple of n. -/
def alignUp (v n : Nat) : Nat := ceilDiv v n * n

/-- Bit n of a mask. -/
def hasBit (m n : Nat) : Bool := m.testBit n

/-- A mask with bit n set. -/
def setBit (m n : Nat) : Nat := if m.testBit n then m else m + 2 ^ n

/-- A mask with bit n clear. -/
def clearBit (m n : Nat) : Nat := if m.testBit n then m - 2 ^ n else m

/-- The number of ones in the n low bits. -/
def popCount (m : Nat) : Nat → Nat
  | 0 => 0
  | n + 1 => popCount m n + bit (m.testBit n)

/-- The value v held at most at the limit. -/
def saturate (limit v : Nat) : Nat := min limit v

/-- The position of the first element that satisfies p. -/
def indexWhere {α : Type} (p : α → Bool) (l : List α) : Option Nat := l.findIdx? p

/-- The elements of a list but for the first that satisfies p. -/
def removeFirst {α : Type} (p : α → Bool) : List α → List α
  | [] => []
  | x :: xs => if p x then xs else x :: removeFirst p xs

/-- An element put into a list that is ordered by le, after the elements it does not precede. -/
def insertBy {α : Type} (lt : α → α → Bool) (x : α) : List α → List α
  | [] => [x]
  | y :: ys => if lt x y then x :: y :: ys else y :: insertBy lt x ys

/-- A list in the order of lt; equal elements keep their order. -/
def sortBy {α : Type} (lt : α → α → Bool) (l : List α) : List α := l.foldl (fun acc x => insertBy lt x acc) []

/-! ### Answers -/

/-- The answer of a command's effect t on the state s. The queue of waiting commands, the part number and the calendar's
backup domain stay as they were; only the commands of the backup domain answer otherwise (R488, R490). -/
def finish (s t : State) : Host.Outcome State Fault Refusal :=
  .next { t with pending := s.pending, part := s.part, cal := s.cal }

/-- The answer of a command that acts on the backup domain and leaves it at c; the queue and the part number stay as they were. -/
def finishCal (s : State) (c : Cal) (t : State) : Host.Outcome State Fault Refusal :=
  .next { t with pending := s.pending, part := s.part, cal := c }

/-- The present time, TIMESTAMP in ns (R497). -/
def now (s : State) : Nat := s.clk.ts

/-! ### The parts of State by number -/

/-- The set-up registers of a function (R379). -/
def fnRegs (s : State) (f : Nat) : FnRegs := sgetD s.port.fns f {}

def setFnRegs (s : State) (f : Nat) (r : FnRegs) : State :=
  { s with port := { s.port with fns := sset s.port.fns f r } }

/-- The key of ring pair n of function f. -/
def ringKey (q : RingRef) : Nat := 1024 * q.fn + q.ring

/-- A ring pair (R380). -/
def ringOf (s : State) (q : RingRef) : RingPair := sgetD s.port.rings (ringKey q) {}

def setRing (s : State) (q : RingRef) (r : RingPair) : State :=
  { s with port := { s.port with rings := sset s.port.rings (ringKey q) r } }

/-- RING_ALLOC[f].COUNT (R383). -/
def allocOf (s : State) (f : Nat) : Nat := sgetD s.port.alloc f 0

/-- An MSI-X table entry (R381). -/
def msixOf (s : State) (f v : Nat) : MsixEntry := sgetD s.port.msix (32 * f + v) {}

def setMsix (s : State) (f v : Nat) (e : MsixEntry) : State :=
  { s with port := { s.port with msix := sset s.port.msix (32 * f + v) e } }

/-- A mailbox channel (R405). -/
def channelOf (s : State) (c : Nat) : Channel := sgetD s.mbox c {}

def setChannel (s : State) (c : Nat) (x : Channel) : State := { s with mbox := sset s.mbox c x }

/-- A DMA channel (R411). -/
def dmaOf (s : State) (c : Nat) : Dma := sgetD s.dma c {}

def setDma (s : State) (c : Nat) (x : Dma) : State := { s with dma := sset s.dma c x }

/-- A region (R336). -/
def regionOf (s : State) (n : Nat) : Region := sgetD s.mem.regions n {}

def setRegion (s : State) (n : Nat) (r : Region) : State :=
  { s with mem := { s.mem with regions := sset s.mem.regions n r } }

/-- A far-memory port (R344). -/
def farPortOf (s : State) (p : Nat) : FarPort := sgetD s.mem.ports p {}

def setFarPort (s : State) (p : Nat) (x : FarPort) : State :=
  { s with mem := { s.mem with ports := sset s.mem.ports p x } }

/-- A core by 9 × crew + physical core (R24). -/
def coreOf (s : State) (n : Nat) : Core := sgetD s.cores n {}

def setCore (s : State) (n : Nat) (c : Core) : State := { s with cores := sset s.cores n c }

/-- A crew (R24). -/
def crewOf (s : State) (n : Nat) : Crew := sgetD s.crews n {}

def setCrew (s : State) (n : Nat) (c : Crew) : State := { s with crews := sset s.crews n c }

/-- A Novmund port (R419). -/
def nlPortOf (s : State) (p : Nat) : NlPort := sgetD s.net.ports p {}

def setNlPort (s : State) (p : Nat) (x : NlPort) : State :=
  { s with net := { s.net with ports := sset s.net.ports p x } }

/-- The temperatures of compute die d, or of the hub at 8 (R444). -/
def tempOf (s : State) (d : Nat) : DieTemp := sgetD s.gov.temps d {}

/-- The request in a slot. -/
def slotOf (s : State) (n : Nat) : Option Request := slookup s.srv.slots n

def setSlot (s : State) (n : Nat) (r : Request) : State :=
  { s with srv := { s.srv with slots := sset s.srv.slots n r } }

def freeSlot (s : State) (n : Nat) : State := { s with srv := { s.srv with slots := serase s.srv.slots n } }

/-- A fresh counter value for a free value, and the state that has used it (log entry 17). -/
def takeFree (s : State) : Nat × State := (s.freeCtr, { s with freeCtr := s.freeCtr + 1 })

/-- Bytes written to host memory over the host port (R41). A poisoned range that they cover whole is good again. -/
def hostWrite (s : State) (a : Nat) (bs : List Byte) : State :=
  { s with mem := { s.mem with
      host := writeBytes s.mem.host a bs
      hostBad := s.mem.hostBad.filter (fun r => !(decide (a ≤ r.1) && decide (r.1 + r.2 ≤ a + bs.length))) } }

/-- Bytes of host memory, or the first address at which the read fails or returns poison (R348, R394). -/
def hostRead (s : State) (a n : Nat) : Except Nat (List Byte) :=
  match firstCovered (s.mem.hostFail ++ s.mem.hostBad) a (a + n) with
  | some x => .error x
  | none => .ok (readBytes s.mem.host a n)

end Sys2Proof.Machine
end

