-- ==== Sys2Proof/Machine/Flags.lean ====
section
/-!
DEFINITION. The sticky arithmetic flags GOF, OVF and INV (R132 to R134), held as a 3-bit mask as the lane flags of R146 are,
and what the policy of R135 makes of them.
-/

namespace Sys2Proof.Machine

/-- INV, bit 0 of a flag mask. -/
def flagInv : Nat := 1

/-- OVF, bit 1 of a flag mask. -/
def flagOvf : Nat := 2

/-- GOF, bit 2 of a flag mask. -/
def flagGof : Nat := 4

/-- The OR of two flag masks: flags are sticky (R134). -/
def flagOr (a b : Nat) : Nat := a ||| b

/-- The OR of a list of flag masks. -/
def flagsOf (l : List Nat) : Nat := l.foldl flagOr 0

/-- Flags ORed into an entry of a sparse table of flag masks. -/
def raiseAt (t : Sparse Nat) (k f : Nat) : Sparse Nat := if f = 0 then t else sset t k (flagOr (sgetD t k 0) f)

/-- The key of a row tag in a table of row flags: 16 × slot + row, row 0 without SPEC; rows of no request have none, and their
flags are discarded (R162). -/
def tagKey (t : RowTag) : Option Nat := t.slot.map (fun n => 16 * n + (if t.spec then t.row else 0))

/-- Flags ORed into the row flags of a tag (R162). -/
def raiseTag (t : Sparse Nat) (tag : RowTag) (f : Nat) : Sparse Nat :=
  match tagKey tag with
  | some k => raiseAt t k f
  | none => t

end Sys2Proof.Machine
end

