-- ==== Sys2Proof/Machine/Float.lean ====
section
/-!
DEFINITION. The number formats of R121 to R126 and R179 and the arithmetic of R127 to R133, R138 and R154 to R158: every value is
held exactly, as a sign, an integer and a power of two, and each operation rounds once, to nearest with ties to even.
-/

namespace Sys2Proof.Machine

/-- A value of a floating format: NaN, an infinity, or (−1)^neg × m × 2^e exactly. -/
inductive Num where
  | nan
  | inf (neg : Bool)
  | fin (neg : Bool) (m : Nat) (e : Int)
  deriving DecidableEq, Repr

/-- A binary floating format (R121): its exponent and mantissa widths, its bias, the code of its largest finite magnitude,
and the code of infinity where it has one. -/
structure FloatFormat where
  expBits : Nat
  manBits : Nat
  bias : Nat
  maxCode : Nat
  infCode : Option Nat
  nanCode : Nat
  deriving DecidableEq, Repr

def fp32 : FloatFormat := ⟨8, 23, 127, 0x7F7FFFFF, some 0x7F800000, 0x7FC00000⟩
def bf16 : FloatFormat := ⟨8, 7, 127, 0x7F7F, some 0x7F80, 0x7FC0⟩
def e4m3 : FloatFormat := ⟨4, 3, 7, 0x7E, none, 0x7F⟩
def e5m2 : FloatFormat := ⟨5, 2, 15, 0x7B, some 0x7C, 0x7E⟩
def e2m1 : FloatFormat := ⟨2, 1, 1, 7, none, 0⟩

/-- The exponent of the smallest subnormal of a format. -/
def FloatFormat.qmin (f : FloatFormat) : Int := 1 - (f.bias : Int) - (f.manBits : Int)

/-- The sign bit of a format's codes. -/
def FloatFormat.signBit (f : FloatFormat) : Nat := 2 ^ (f.expBits + f.manBits)

/-- The value of a code (R121, R122). -/
def decodeFloat (f : FloatFormat) (code : Nat) : Num :=
  let neg := code / f.signBit % 2 = 1
  let mag := code % f.signBit
  let man := mag % 2 ^ f.manBits
  let ex := mag / 2 ^ f.manBits
  if mag > f.maxCode then
    (if f.infCode = some mag then .inf neg else .nan)
  else if ex = 0 then .fin neg man f.qmin
  else .fin neg (man + 2 ^ f.manBits) (f.qmin + (ex - 1 : Nat))

/-- m ÷ 2^sh to the nearest integer, ties to even. -/
def roundShift (m sh : Nat) : Nat :=
  let q := m / 2 ^ sh
  let r := m % 2 ^ sh
  if 2 * r > 2 ^ sh || (2 * r == 2 ^ sh && q % 2 == 1) then q + 1 else q

/-- m × 2^e as an integer, to nearest with ties to even. -/
def roundToInt (m : Nat) (e : Int) : Nat :=
  if 0 ≤ e then m * 2 ^ e.toNat else roundShift m (-e).toNat

/-- The magnitude code of m × 2^e in a format, rounded to nearest with ties to even, on an exponent range without upper
bound: a code above maxCode is an overflow (R124, R127). -/
def roundMag (f : FloatFormat) (m : Nat) (e : Int) : Nat :=
  if m = 0 then 0
  else
    let q := max (e + (Nat.log2 m : Int) - f.manBits) f.qmin
    let mant := roundToInt m (e - q)
    (q - f.qmin).toNat * 2 ^ f.manBits + mant

/-- The sign bit, when set. -/
def signCode (f : FloatFormat) (neg : Bool) : Nat := if neg then f.signBit else 0

/-- A value converted into a floating format under R124, with its flags. A value is too large when it is so after rounding: the manual does not
say whether R124 judges it before (DEDUCED from R133 and R156, log entry 137). -/
def encodeFloat (f : FloatFormat) (x : Num) : Nat × Nat :=
  match x with
  | .nan => (f.nanCode, 0)
  | .inf neg =>
    match f.infCode with
    | some c => (c + signCode f neg, 0)
    | none => (f.maxCode + signCode f neg, flagOvf)
  | .fin neg m e =>
    let c := roundMag f m e
    if c > f.maxCode then
      -- FP32 and BF16 overflow to infinity; the FP8 formats take their largest finite magnitude (R124)
      (if f.expBits = 8 then f.infCode.getD f.maxCode else f.maxCode, flagOvf).map (· + signCode f neg) id
    else (c + signCode f neg, 0)

/-- An FP32 word as a value. -/
def numOf (w : Word) : Num := decodeFloat fp32 w.toNat

/-- A value rounded to FP32, with OVF when the rounded result exceeds the largest finite magnitude (R124, R133, R156). -/
def toFp32 (x : Num) : Word × Nat :=
  let r := encodeFloat fp32 x
  (BitVec.ofNat 32 r.1, r.2)

/-- The canonical NaN of FP32 (R126). -/
def nan32 : Word := 0x7FC00000#32

/-- The negative of a value. -/
def Num.neg : Num → Num
  | .nan => .nan
  | .inf b => .inf (!b)
  | .fin b m e => .fin (!b) m e

/-- A value is NaN. -/
def Num.isNan : Num → Bool
  | .nan => true
  | _ => false

/-- The integer m scaled by 2^(e − q), for q ≤ e, with its sign. -/
def scaled (neg : Bool) (m : Nat) (e q : Int) : Int :=
  let v : Int := (m * 2 ^ (e - q).toNat : Nat)
  if neg then -v else v

/-- The exact sum of two finite values. A sum of zero is +0, but −0 when both are −0 (IEEE 754). -/
def addFin (n1 : Bool) (m1 : Nat) (e1 : Int) (n2 : Bool) (m2 : Nat) (e2 : Int) : Num :=
  if m1 = 0 && m2 = 0 then .fin (n1 && n2) 0 e1
  else if m1 = 0 then .fin n2 m2 e2
  else if m2 = 0 then .fin n1 m1 e1
  else
    let q := min e1 e2
    let v := scaled n1 m1 e1 q + scaled n2 m2 e2 q
    if v = 0 then .fin false 0 q else .fin (decide (v < 0)) v.natAbs q

/-- An exact sum with the flag of ∞ − ∞ (R133, R156). -/
def addNum (a b : Num) : Num × Nat :=
  match a, b with
  | .nan, _ => (.nan, 0)
  | _, .nan => (.nan, 0)
  | .inf x, .inf y => if x = y then (.inf x, 0) else (.nan, flagInv)
  | .inf x, _ => (.inf x, 0)
  | _, .inf y => (.inf y, 0)
  | .fin n1 m1 e1, .fin n2 m2 e2 => (addFin n1 m1 e1 n2 m2 e2, 0)

/-- An exact product with the flag of 0 × ∞ (R156). -/
def mulNum (a b : Num) : Num × Nat :=
  match a, b with
  | .nan, _ => (.nan, 0)
  | _, .nan => (.nan, 0)
  | .inf x, .inf y => (.inf (x != y), 0)
  | .inf x, .fin y m _ => if m = 0 then (.nan, flagInv) else (.inf (x != y), 0)
  | .fin x m _, .inf y => if m = 0 then (.nan, flagInv) else (.inf (x != y), 0)
  | .fin n1 m1 e1, .fin n2 m2 e2 => (.fin (n1 != n2) (m1 * m2) (e1 + e2), 0)

/-- A result rounded to FP32, its flags joined to those already raised. -/
def roundWith (r : Num × Nat) : Word × Nat :=
  let w := toFp32 r.1
  (w.1, flagOr r.2 w.2)

/-- FP32 addition (R154, R156). -/
def fadd (a b : Word) : Word × Nat := roundWith (addNum (numOf a) (numOf b))

/-- FP32 subtraction. -/
def fsub (a b : Word) : Word × Nat := roundWith (addNum (numOf a) (numOf b).neg)

/-- FP32 multiplication. -/
def fmul (a b : Word) : Word × Nat := roundWith (mulNum (numOf a) (numOf b))

/-- FP32 fused multiply-add: the exact product, one rounding (R154). A NaN product of 0 × ∞ raises INV unless c is itself a
NaN operand, which R156 gives NaN and no flag. -/
def ffma (a b c : Word) : Word × Nat :=
  let x := numOf a
  let y := numOf b
  let z := numOf c
  if x.isNan || y.isNan || z.isNan then (nan32, 0)
  else
    let p := mulNum x y
    let s := addNum p.1 z
    roundWith (s.1, flagOr p.2 s.2)

/-- The exact quotient's leading digits with a sticky last bit: (m1 × 2^k) ÷ m2. -/
def divSticky (m1 m2 k : Nat) : Nat :=
  let q := m1 * 2 ^ k / m2
  let r := m1 * 2 ^ k % m2
  2 * q + bit (r != 0)

/-- FP32 division, correctly rounded, with the special cases of R156. -/
def fdiv (a b : Word) : Word × Nat :=
  match numOf a, numOf b with
  | .nan, _ => (nan32, 0)
  | _, .nan => (nan32, 0)
  | .inf _, .inf _ => (nan32, flagInv)
  | .inf x, .fin y _ _ => toFp32 (.inf (x != y))
  | .fin x _ _, .inf y => toFp32 (.fin (x != y) 0 0)
  | .fin x m1 e1, .fin y m2 e2 =>
    if m2 = 0 then
      if m1 = 0 then (nan32, flagInv)
      else ((toFp32 (.inf (x != y))).1, flagOvf)
    else if m1 = 0 then toFp32 (.fin (x != y) 0 0)
    else toFp32 (.fin (x != y) (divSticky m1 m2 60) (e1 - e2 - 61))

/-- Order of two values that are no NaN: a below b; −0 and +0 compare equal here. -/
def ltNum (a b : Num) : Bool :=
  match a, b with
  | .nan, _ => false
  | _, .nan => false
  | .inf x, .inf y => x && !y
  | .inf x, .fin _ _ _ => x
  | .fin _ _ _, .inf y => !y
  | .fin n1 m1 e1, .fin n2 m2 e2 =>
    let q := min e1 e2
    decide (scaled n1 m1 e1 q < scaled n2 m2 e2 q)

/-- FP32 compares (R153, R156): false with a NaN operand. -/
def flt (a b : Word) : Bool := ltNum (numOf a) (numOf b)
def feq (a b : Word) : Bool := !(numOf a).isNan && !(numOf b).isNan && !flt a b && !flt b a
def fle (a b : Word) : Bool := flt a b || feq a b

/-- FP32 minimum; −0 is below +0, and a NaN operand gives NaN (R156). -/
def fmin (a b : Word) : Word × Nat :=
  if (numOf a).isNan || (numOf b).isNan then (nan32, 0)
  else if feq a b then (if a.msb then a else b, 0)
  else (if flt a b then a else b, 0)

/-- FP32 maximum. -/
def fmax (a b : Word) : Word × Nat :=
  if (numOf a).isNan || (numOf b).isNan then (nan32, 0)
  else if feq a b then (if a.msb then b else a, 0)
  else (if flt a b then b else a, 0)

/-- FP32 absolute value and negation; a NaN operand gives canonical NaN (R126, R156). -/
def fabs (a : Word) : Word × Nat := if (numOf a).isNan then (nan32, 0) else (a &&& 0x7FFFFFFF#32, 0)
def fneg (a : Word) : Word × Nat := if (numOf a).isNan then (nan32, 0) else (a ^^^ 0x80000000#32, 0)

/-! ### Integers -/

/-- An exact integer held to the range of n-bit two's complement, with the flag where it is outside (R132, R155). -/
def satInt (n : Nat) (flag : Nat) (v : Int) : Int × Nat :=
  let hi : Int := 2 ^ (n - 1) - 1
  let lo : Int := -(2 ^ (n - 1) : Nat)
  if v > hi then (hi, flag) else if v < lo then (lo, flag) else (v, 0)

/-- An INT32 result with OVF (R155). -/
def satWord (v : Int) : Word × Nat :=
  let r := satInt 32 flagOvf v
  (BitVec.ofInt 32 r.1, r.2)

/-- The integer nearest to a finite value, ties to even. -/
def intOf (neg : Bool) (m : Nat) (e : Int) : Int :=
  let v : Int := (roundToInt m e : Nat)
  if neg then -v else v

/-- A value converted to an n-bit integer under R124: infinities take a limit with OVF, NaN gives 0 with INV. The range is judged after
rounding (log entry 137). -/
def numToInt (n : Nat) (x : Num) : Int × Nat :=
  match x with
  | .nan => (0, flagInv)
  | .inf true => (-(2 ^ (n - 1) : Nat), flagOvf)
  | .inf false => (2 ^ (n - 1) - 1, flagOvf)
  | .fin neg m e => satInt n flagOvf (intOf neg m e)

/-- A value converted to a token id (format 12, R124). The range is judged after rounding (log entry 137). -/
def numToToken (x : Num) : Nat × Nat :=
  match x with
  | .nan => (0, flagInv)
  | .inf true => (0, flagOvf)
  | .inf false => (0xFFFFFFFF, flagOvf)
  | .fin neg m e =>
    let v := intOf neg m e
    if v < 0 then (0, flagOvf) else if v > 0xFFFFFFFF then (0xFFFFFFFF, flagOvf) else (v.toNat, 0)

/-- An integer as an exact value. -/
def numOfInt (v : Int) : Num := .fin (decide (v < 0)) v.natAbs 0

/-- FP32 to INT32 and back (R153 to R155). -/
def cvtfi (a : Word) : Word × Nat :=
  let r := numToInt 32 (numOf a)
  (BitVec.ofInt 32 r.1, r.2)
def cvtif (a : Word) : Word × Nat := toFp32 (numOfInt a.toInt)

/-! ### Formats by code (R179) -/

/-- Bits of one element in storage (R119, R121, R179). -/
def elemBits : Nat → Nat
  | 0 => 32 | 1 => 16 | 2 => 8 | 3 => 8 | 4 => 8 | 5 => 8 | 6 => 4 | 7 => 8 | 8 => 4 | 9 => 32 | 10 => 64 | 11 => 8 | 12 => 32
  | _ => 8

/-- The floating format of a format code; MX codes name their element format. -/
def floatOf : Nat → Option FloatFormat
  | 0 => some fp32 | 1 => some bf16 | 2 => some e4m3 | 3 => some e5m2 | 4 => some e4m3 | 5 => some e5m2 | 6 => some e2m1
  | _ => none

/-- A format code names an MX format (R123). -/
def isMx (f : Nat) : Bool := f == 4 || f == 5 || f == 6

/-- A format code names an integer format (7, 8, 9, 10). -/
def isIntFormat (f : Nat) : Bool := f == 7 || f == 8 || f == 9 || f == 10

/-- The width of an integer format. -/
def intBits : Nat → Nat
  | 7 => 8 | 8 => 4 | 9 => 32 | _ => 40

/-- An element as an exact value: floating, or an integer (R121, R124). Scales of MX blocks are applied by scaleNum. -/
def elemNum (fmt code : Nat) : Num :=
  match floatOf fmt with
  | some f => decodeFloat f code
  | none => if fmt = 12 then .fin false (code % 2 ^ 32) 0 else numOfInt (signedOf (intBits fmt) code)

/-- A value under a block scale X (R123): 2^(X − 127) × element, NaN where X is 0xFF. -/
def scaleNum (x : Nat) (v : Num) : Num :=
  if x = 0xFF then .nan
  else
    match v with
    | .fin n m e => .fin n m (e + (x : Int) - 127)
    | v => v

/-- The exact integer of an element of an integer or token format. -/
def elemInt (fmt code : Nat) : Int := if fmt = 12 then (code % 2 ^ 32 : Nat) else signedOf (intBits fmt) code

/-- A value converted into an element format that is not MX (R124): its code and flags. -/
def convertNum (fmt : Nat) (x : Num) : Nat × Nat :=
  match floatOf fmt with
  | some f => encodeFloat f x
  | none =>
    if fmt = 12 then numToToken x
    else
      let r := numToInt (intBits fmt) x
      (codeOf (elemBits fmt) r.1, r.2)

/-- An exact integer converted into an element format that is not MX: exact or saturated with OVF into integers and token
ids (R159), rounded once into a floating format (R124). -/
def convertInt (fmt : Nat) (v : Int) : Nat × Nat :=
  match floatOf fmt with
  | some f => encodeFloat f (numOfInt v)
  | none =>
    if fmt = 12 then
      (if v < 0 then (0, flagOvf) else if v > 0xFFFFFFFF then (0xFFFFFFFF, flagOvf) else (v.toNat, 0))
    else
      let r := satInt (intBits fmt) flagOvf v
      (codeOf (elemBits fmt) r.1, r.2)

/-- e of R125: 8 for E4M3 elements, 15 for E5M2, 2 for E2M1. -/
def mxExponent : Nat → Nat
  | 4 => 8 | 5 => 15 | _ => 2

/-- floor(log2) of the largest magnitude in a block of finite values, or none when all are zero. -/
def blockLog2 (xs : List Num) : Option Int :=
  xs.foldl (fun acc x =>
    match x with
    | .fin _ m e =>
      if m = 0 then acc
      else
        let l := e + (Nat.log2 m : Int)
        match acc with
        | some y => some (max l y)
        | none => some l
    | _ => acc) none

/-- A block quantised into an MX format (R125): its scale X, its codes and the flags of each element. Values are the
elements within the tensor's extent; elements beyond it enter as +0 and get no code. -/
def quantiseBlock (fmt : Nat) (xs : List Num) : Nat × List Nat × List Nat :=
  let bad := xs.any (fun x => match x with | .fin _ _ _ => false | _ => true)
  if bad then (0xFF, xs.map (fun _ => 0), xs.map (fun _ => flagInv))
  else
    match blockLog2 xs with
    | none => (0, xs.map (fun _ => 0), xs.map (fun _ => 0))
    | some l =>
      let x := (max 0 (min 254 (l - mxExponent fmt + 127))).toNat
      let f := (floatOf fmt).getD e2m1
      let enc := fun v : Num =>
        match v with
        | .fin n m e => min (roundMag f m (e - (x : Int) + 127)) f.maxCode + signCode f n
        | _ => 0
      (x, xs.map enc, xs.map (fun _ => 0))

/-! ### Accumulation (R127 to R133) -/

/-- One step of a floating accumulation: an exact addend added to the FP32 accumulator with one rounding. Consuming a NaN
or adding infinities of opposite sign gives canonical NaN and INV; an overflow gives an infinity and OVF (R133). -/
def accStep (acc : Word) (p : Num) : Word × Nat :=
  match numOf acc, p with
  | .nan, _ => (nan32, flagInv)
  | _, .nan => (nan32, flagInv)
  | a, b => roundWith (addNum a b)

/-- The exact product of two elements in a pass; 0 × ∞ is a NaN, whose consumption raises INV (R133, R140). -/
def passProduct (a b : Num) : Num := (mulNum a b).1

/-- A floating accumulation over pairs of elements in ascending reduction index (R127). -/
def accFloat (acc : Word) (flags : Nat) : List (Num × Num) → Word × Nat
  | [] => (acc, flags)
  | (a, w) :: ps =>
    let r := accStep acc (passProduct a w)
    accFloat r.1 (flagOr flags r.2) ps

/-- The exact sum of products of one block pair (R128); NaN or infinities carry through. -/
def blockSum : List (Num × Num) → Num
  | [] => .fin false 0 0
  | (a, w) :: ps => (addNum (passProduct a w) (blockSum ps)).1

/-- A block's exact sum under both block scales. A block without non-zero products counts as +0 (R130). -/
def blockAddend (xa xw : Nat) (ps : List (Num × Num)) : Num :=
  match blockSum ps with
  | .fin n m e => scaleNum xw (scaleNum xa (.fin (n && m != 0) m e))
  | v => if xa = 0xFF || xw = 0xFF then .nan else v

/-- An MX accumulation over blocks in ascending order: each block is (Xa, Xw, pairs) (R128). -/
def accMx (acc : Word) (flags : Nat) : List (Nat × Nat × List (Num × Num)) → Word × Nat
  | [] => (acc, flags)
  | (xa, xw, ps) :: bs =>
    let r := accStep acc (blockAddend xa xw ps)
    accMx r.1 (flagOr flags r.2) bs

/-- An integer accumulation into 40 bits, saturating with GOF at each addition (R129, R132). -/
def accInt (acc : Int) (flags : Nat) : List (Int × Int) → Int × Nat
  | [] => (acc, flags)
  | (a, w) :: ps =>
    let r := satInt 40 flagGof (acc + a * w)
    accInt r.1 (flagOr flags r.2) ps

end Sys2Proof.Machine
end

