-- ==== Sys2Proof/Machine/Functions.lean ====
section
/-!
DEFINITION. The functions of R157: RCP, SQRT, RSQRT, EXP2, LOG2, SINPI, COSPI and TANH, correctly rounded (R154). RCP and the roots are
computed exactly with a sticky digit; the others in fixed point with 512 fractional bits and then rounded once (log
entry 23). R156 and R157 give the special values.
-/

namespace Sys2Proof.Machine

/-- Fractional bits of the fixed-point evaluation. -/
def fxBits : Nat := 512

/-- π in fixed point. -/
def fxPi : Nat := 0x3243F6A8885A308D313198A2E03707344A4093822299F31D0082EFA98EC4E6C89452821E638D01377BE5466CF34E90C6CC0AC29B7C97C50DD3F84D5B5B5470917

/-- The natural logarithm of 2 in fixed point. -/
def fxLn2 : Nat := 0xB17217F7D1CF79ABC9E3B39803F2F6AF40F343267298B62D8A0D175B8BAAFA2BE7B876206DEBAC98559552FB4AFA1B10ED2EAE35C138214427573B291169B825

/-- 1 in fixed point, 2^512. -/
def fxOne : Nat := 0x100000000000000000000000000000000000000000000000000000000000000000000000000000000000000000000000000000000000000000000000000000000

/-- A fixed-point product. -/
def fxMul (a b : Nat) : Nat := a * b / fxOne

/-- The bits of an integer square root from bit k down, with the root so far. -/
def isqrtFrom (v : Nat) : Nat → Nat → Nat
  | 0, r => r
  | k + 1, r => isqrtFrom v k (if (r + 2 ^ k) * (r + 2 ^ k) ≤ v then r + 2 ^ k else r)

/-- The integer part of the square root. -/
def isqrt (v : Nat) : Nat := isqrtFrom v (Nat.log2 v / 2 + 1) 0

/-- The series 1 + y + y²/2! + … of n more terms, from term k with value t. -/
def expSeries (y : Nat) : Nat → Nat → Nat → Nat
  | 0, _, t => t
  | n + 1, k, t => t + expSeries y n (k + 1) (fxMul t y / (k + 1))

/-- e^y for 0 ≤ y < 1 in fixed point. -/
def fxExp (y : Nat) : Nat := expSeries y 120 0 fxOne

/-- The alternating series of the sine, from the term t of degree k, added when pos; the result is the pair of the positive and the
negative terms' sums. -/
def sinSeries (y2 : Nat) : Nat → Nat → Nat → Bool → Nat × Nat
  | 0, _, _, _ => (0, 0)
  | n + 1, k, t, pos =>
    let r := sinSeries y2 n (k + 2) (fxMul t y2 / ((k + 1) * (k + 2))) (!pos)
    if pos then (r.1 + t, r.2) else (r.1, r.2 + t)

/-- sin θ for 0 ≤ θ ≤ π/2 in fixed point. -/
def fxSin (th : Nat) : Nat :=
  let r := sinSeries (fxMul th th) 70 1 th true
  r.1 - r.2

/-- The series z + z³/3 + z⁵/5 + … of n terms. -/
def atanhSeries (z2 : Nat) : Nat → Nat → Nat → Nat
  | 0, _, _ => 0
  | n + 1, k, t => t / k + atanhSeries z2 n (k + 2) (fxMul t z2)

/-- ln x for x in [1, 2), as 2 × artanh((x − 1) ÷ (x + 1)). -/
def fxLn (x : Nat) : Nat :=
  let z := (x - fxOne) * fxOne / (x + fxOne)
  2 * atanhSeries (fxMul z z) 170 1 z

/-- A fixed-point magnitude that is not exact, rounded once: a sticky digit stands for the rest. -/
def fxResult (neg : Bool) (m : Nat) : Word × Nat := toFp32 (.fin neg (2 * m + 1) (-(fxBits : Int) - 1))

/-- 1 ÷ a (R157). -/
def frcp (a : Word) : Word × Nat := fdiv 0x3F800000#32 a

/-- √a (R156, R157). -/
def fsqrt (a : Word) : Word × Nat :=
  match numOf a with
  | .nan => (nan32, 0)
  | .inf neg => if neg then (nan32, flagInv) else (a, 0)
  | .fin neg m e =>
    if m = 0 then (a, 0)
    else if neg then (nan32, flagInv)
    else
      let odd := (e % 2).toNat
      let v := m * 2 ^ (80 + odd)
      let r := isqrt v
      toFp32 (.fin false (2 * r + bit (r * r != v)) ((e - odd - 80) / 2 - 1))

/-- 1 ÷ √a (R156, R157). -/
def frsqrt (a : Word) : Word × Nat :=
  match numOf a with
  | .nan => (nan32, 0)
  | .inf neg => if neg then (nan32, flagInv) else (0#32, 0)
  | .fin neg m e =>
    if m = 0 then ((toFp32 (.inf neg)).1, flagOvf)
    else if neg then (nan32, flagInv)
    else
      let odd := (e % 2).toNat
      let d := m * 2 ^ odd
      let v := 2 ^ 160 / d
      let r := isqrt v
      let exact := 2 ^ 160 % d == 0 && r * r == v
      toFp32 (.fin false (2 * r + bit (!exact)) (-(80 : Int) - (e - odd) / 2 - 1))

/-- 2^x for x = n + f ÷ 2^512, as a magnitude and a power of two. -/
def exp2Parts (n : Int) (f : Nat) : Num :=
  if f = 0 then .fin false 1 n
  else .fin false (2 * fxExp (fxMul f fxLn2) + 1) (n - (fxBits : Int) - 1)

/-- A finite value as a fixed-point integer; exact for every FP32 value. -/
def fxOf (neg : Bool) (m : Nat) (e : Int) : Int := scaled neg m (e + fxBits) 0

/-- 2^a (R157): a result below the subnormal range is +0 with no flag. -/
def fexp2 (a : Word) : Word × Nat :=
  match numOf a with
  | .nan => (nan32, 0)
  | .inf neg => if neg then (0#32, 0) else (a, 0)
  | .fin neg m e =>
    let x := fxOf neg m e
    if x ≥ 128 * (fxOne : Int) then ((toFp32 (.inf false)).1, flagOvf)
    else if x < -(200 : Int) * fxOne then (0#32, 0)
    else toFp32 (exp2Parts (x / (fxOne : Int)) (x % (fxOne : Int)).toNat)

/-- log2 a (R156, R157). -/
def flog2 (a : Word) : Word × Nat :=
  match numOf a with
  | .nan => (nan32, 0)
  | .inf neg => if neg then (nan32, flagInv) else (a, 0)
  | .fin neg m e =>
    if m = 0 then ((toFp32 (.inf true)).1, flagOvf)
    else if neg then (nan32, flagInv)
    else
      let l := Nat.log2 m
      let n : Int := e + l
      if m = 2 ^ l then toFp32 (numOfInt n)
      else
        let fr := fxLn (m * 2 ^ (fxBits - l)) * fxOne / fxLn2
        let v : Int := n * fxOne + fr
        if v < 0 then fxResult true (v.natAbs - 1) else fxResult false v.toNat

/-- sin(π r) for r = t ÷ 2^512 in [0, 2): the sign and, where the result is not 0 or ±1, the fixed-point magnitude. -/
def sinTurns (t : Nat) : Word × Nat :=
  let neg := decide (fxOne ≤ t)
  let u := if fxOne ≤ t then t - fxOne else t
  let w := min u (fxOne - u)
  if w = 0 then (0#32, 0)
  else if 2 * w = fxOne then toFp32 (.fin neg 1 0)
  else fxResult neg (fxSin (fxMul w fxPi))

/-- |a| reduced to [0, 2) in fixed point: the reduction is exact (R157). -/
def turnsOf (m : Nat) (e : Int) : Nat := (fxOf false m e).toNat % (2 * fxOne)

/-- sin(π a) (R157). -/
def fsinpi (a : Word) : Word × Nat :=
  match numOf a with
  | .nan => (nan32, 0)
  | .inf _ => (nan32, flagInv)
  | .fin neg m e =>
    if m = 0 then (a, 0)
    else
      let t := turnsOf m e
      sinTurns (if neg && t != 0 then 2 * fxOne - t else t)

/-- cos(π a) (R157). -/
def fcospi (a : Word) : Word × Nat :=
  match numOf a with
  | .nan => (nan32, 0)
  | .inf _ => (nan32, flagInv)
  | .fin _ m e => sinTurns ((turnsOf m e + fxOne / 2) % (2 * fxOne))

/-- tanh a (R157), as (E − 1) ÷ (E + 1) with E = e^(2a). From 16 on the nearest FP32 value is 1. -/
def ftanh (a : Word) : Word × Nat :=
  match numOf a with
  | .nan => (nan32, 0)
  | .inf neg => toFp32 (.fin neg 1 0)
  | .fin neg m e =>
    if m = 0 then (a, 0)
    else
      let x := (fxOf false m e).toNat
      if x ≥ 16 * fxOne then toFp32 (.fin neg 1 0)
      else
        let y := 2 * x * fxOne / fxLn2
        let n := y / fxOne
        let ex := fxExp (fxMul (y % fxOne) fxLn2) * 2 ^ n
        fxResult neg ((ex - fxOne) * fxOne / (ex + fxOne))

end Sys2Proof.Machine
end

