-- ==== Sys2Proof/Machine/Selection.lean ====
section
/-!
DEFINITION. Selection (08_selection.md): the order of pairs (R236, R237), the selection unit of a core with its buffer and
running cut (R239 to R241), result blocks (R243) and merges (R245, R246).
-/

namespace Sys2Proof.Machine

/-- The order key of a score in mode 2 (k largest) or mode 3 (k smallest) (R236). -/
def orderKey (mode : Nat) (score : Word) : Nat :=
  if (numOf score).isNan then 0
  else
    let b := if score = 0x80000000#32 then 0 else score.toNat
    if b < 2 ^ 31 then (if mode = 3 then 2 ^ 32 - 1 - (b + 2 ^ 31) else b + 2 ^ 31)
    else (if mode = 3 then b else 2 ^ 32 - 1 - b)

/-- The extended key of a pair, 96 bits (R237). -/
def extKey (mode : Nat) (p : SelPair) : Nat := orderKey mode p.score * 2 ^ 64 + (2 ^ 64 - 1 - p.index % 2 ^ 64)

/-- Pair x precedes pair y (R237). -/
def precedes (mode : Nat) (x y : SelPair) : Bool := decide (extKey mode y < extKey mode x)

/-- Pairs in the selection order; pairs of equal key keep their order (R250). -/
def orderPairs (mode : Nat) (ps : List SelPair) : List SelPair := sortBy (precedes mode) ps

/-- The first k pairs of all pairs in the selection order (R240). -/
def firstK (mode k : Nat) (ps : List SelPair) : List SelPair := (orderPairs mode ps).take k

/-- The bucket cut of R239: the first k pairs are kept and the k-th greatest key becomes the cut. -/
def bucketCut (u : SelUnit) : SelUnit :=
  let kept := firstK u.mode u.k u.buf
  { u with buf := kept, cut := (kept.getLast?.map (extKey u.mode)).getD 0 }

/-- One pair pushed to the unit (R239, R241): the approximate stage discards a pair below the cut, and the 2,048th entry
makes a bucket cut. In mode 1 a score is kept when it is no NaN and at least the threshold. -/
def pushPair (u : SelUnit) (p : SelPair) : SelUnit :=
  let nan := (numOf p.score).isNan
  let u := { u with pushed := saturate 0xFFFFFFFF (u.pushed + 1), nanSeen := u.nanSeen || nan }
  if u.mode = 1 then
    if !nan && fle u.threshold p.score then
      { u with buf := u.buf ++ [p], passed := saturate 0xFFFFFFFF (u.passed + 1) }
    else u
  else if extKey u.mode p < u.cut then u
  else
    let u := { u with buf := u.buf ++ [p] }
    if u.buf.length = 2048 then bucketCut u else u

/-- Pairs in ascending index (R241). -/
def byIndex (ps : List SelPair) : List SelPair := sortBy (fun x y => decide (x.index < y.index)) ps

/-- The words of a result block (R243): entries of (index, score). -/
def resultBlock (mode : Nat) (entries : List SelPair) (passCount : Nat) (overflow nan : Bool) : List Byte :=
  leBytes 4 entries.length ++ leBytes 4 passCount ++ leBytes 1 mode ++ leBytes 1 (bit overflow + 2 * bit nan)
    ++ leBytes 6 0
    ++ entries.flatMap (fun p => leBytes 8 p.index ++ leBytes 4 p.score.toNat ++ leBytes 4 0)

/-- The result block that the unit writes at the end of a launch to a port of ext0 words (R241, R242). -/
def selResult (u : SelUnit) (ext0 : Nat) : List Byte :=
  if u.mode = 1 then
    let c := (ext0 - 4) / 4
    resultBlock 1 ((byIndex u.buf).take c) u.passed (decide (c < u.buf.length)) u.nanSeen
  else resultBlock u.mode (firstK u.mode u.k u.buf) u.pushed false u.nanSeen

/-- A result block read back: entries, PASS_COUNT, OVERFLOW, NAN_SEEN. -/
structure SelBlock where
  entries : List SelPair
  passCount : Nat
  overflow : Bool
  nanSeen : Bool
  deriving DecidableEq, Repr

/-- Entry i of a result block. -/
def blockEntry (bs : List Byte) (i : Nat) : SelPair :=
  ⟨leAt bs (16 + 16 * i) 8, BitVec.ofNat 32 (leAt bs (24 + 16 * i) 4)⟩

/-- The result block in a list of bytes; a COUNT beyond the bytes is read as far as they go. -/
def parseBlock (bs : List Byte) : SelBlock :=
  let n := min (leAt bs 0 4) ((bs.length - 16) / 16)
  ⟨(List.range n).map (blockEntry bs), leAt bs 4 4, hasBit (leAt bs 9 1) 0, hasBit (leAt bs 9 1) 1⟩

/-- A merge of lists (R246). For mode 1 the destination capacity is cap entries; else the first k. -/
def mergeBlocks (mode k cap : Nat) (bs : List SelBlock) : List Byte :=
  let all := bs.flatMap SelBlock.entries
  let pass := saturate 0xFFFFFFFF ((bs.map SelBlock.passCount).sum)
  let nan := bs.any SelBlock.nanSeen
  if mode = 1 then
    resultBlock 1 ((byIndex all).take cap) pass (bs.any SelBlock.overflow || decide (cap < all.length)) nan
  else resultBlock mode (firstK mode k all) pass false nan

end Sys2Proof.Machine
end

