-- ==== Sys2Proof/Machine/Text.lean ====
section
/-!
DEFINITION. The text engine (03_text_engine.md): the checks of vocabulary and grammar images, greedy longest-match tokenising,
detokenising with UTF-8 hold-back, and grammar configurations with their advances and masks.
-/

namespace Sys2Proof.Machine

/-! ### Images in general -/

/-- One bit of the CRC-32 of IEEE 802.3, reflected. -/
def crcBit (c : Nat) : Nat := if c % 2 = 1 then (c / 2) ^^^ 0xEDB88320 else c / 2

/-- One byte of the CRC-32. -/
def crcByte (c : Nat) (b : Byte) : Nat :=
  let x := c ^^^ b.toNat
  crcBit (crcBit (crcBit (crcBit (crcBit (crcBit (crcBit (crcBit x)))))))

/-- The CRC-32 with the IEEE 802.3 polynomial (R85). -/
def crc32 (bs : List Byte) : Nat := (bs.foldl crcByte 0xFFFFFFFF) ^^^ 0xFFFFFFFF

/-- The bytes with four of them replaced by 0. -/
def zeroed4 (bs : List Byte) (o : Nat) : List Byte := bs.take o ++ [0, 0, 0, 0] ++ bs.drop (o + 4)

/-- The CRC field at offset o matches (R85). -/
def crcOk (bs : List Byte) (o : Nat) : Bool := crc32 (zeroed4 bs o) == leAt bs o 4

/-- The ASCII bytes of a magic string. -/
def asciiBytes (t : String) : List Byte := t.toList.map (fun c => BitVec.ofNat 8 c.toNat)

/-- The magic string stands at the first byte. -/
def magicOk (bs : List Byte) (t : String) : Bool := slice bs 0 8 == asciiBytes t

/-- Every byte of a range is 0. -/
def zeroBytes (bs : List Byte) (o n : Nat) : Bool := (slice bs o n).all (· == 0)

/-- The number of the first check that does not hold. -/
def firstFail : List (Nat × Bool) → Option Nat
  | [] => none
  | (n, ok) :: cs => if ok then firstFail cs else some n

/-- A range (offset, length) begins or ends inside another (R541). -/
def intrudes (a b : Nat × Nat) : Bool :=
  (decide (b.1 ≤ a.1) && decide (a.1 < b.1 + b.2)) ||
  (decide (0 < a.2) && decide (b.1 < a.1 + a.2) && decide (a.1 < b.1 + b.2))

/-- Two ranges share a byte; an empty one shares none (R541). -/
def overlaps (a b : Nat × Nat) : Bool :=
  decide (0 < a.2) && decide (0 < b.2) && decide (a.1 < b.1 + b.2) && decide (b.1 < a.1 + a.2)

/-- The ranges lie within len, neither begin nor end in an occupied one, and do not overlap it or each other (R541). -/
def placed (len : Nat) (occupied : List (Nat × Nat)) : List (Nat × Nat) → Bool
  | [] => true
  | r :: rs => decide (r.1 + r.2 ≤ len) && occupied.all (fun o => !intrudes r o && !overlaps r o) && rs.all (fun x => !overlaps r x)
      && placed len occupied rs

/-! ### Vocabulary images (R85 to R89) -/

/-- Token count of a vocabulary. -/
def Vocab.count (v : Vocab) : Nat := v.tokens.length

/-- Node n of the image. -/
def imageNode (bs : List Byte) (off n : Nat) : VNode :=
  ⟨leAt bs (off + 16 * n) 4, leAt bs (off + 16 * n + 4) 4, leAt bs (off + 16 * n + 8) 2, leAt bs (off + 16 * n + 10) 1⟩

/-- Token n of the image. -/
def imageToken (bs : List Byte) (tab pool n : Nat) : VToken :=
  ⟨slice bs (pool + leAt bs (tab + 8 * n) 4) (leAt bs (tab + 8 * n + 4) 1), leAt bs (tab + 8 * n + 5) 1⟩

/-- The vocabulary that an image holds. -/
def parseVocab (bs : List Byte) : Vocab :=
  { len := bs.length
    bos := leAt bs 20 4, eos := leAt bs 24 4, pad := leAt bs 28 4, sep := leAt bs 32 4
    byteMap := (List.range 256).map (fun b => leAt bs (64 + 4 * b) 4)
    nodes := (List.range (leAt bs 16 4)).map (imageNode bs (leAt bs 36 4))
    tokens := (List.range (leAt bs 12 4)).map (imageToken bs (leAt bs 40 4) (leAt bs 44 4)) }

/-- The indices of a node's children. -/
def childrenOf (n : VNode) : List Nat := (List.range n.count).map (n.first + ·)

/-- The nodes that the frontier reaches level by level, with their paths; none when more are reached than there are nodes. -/
def trieReach (nodes : List VNode) : Nat → List (Nat × List Byte) → Nat → Option (List (Nat × List Byte))
  | 0, _, _ => none
  | f + 1, front, seen =>
    if seen + front.length > nodes.length then none
    else
      match front with
      | [] => some []
      | _ =>
        let next := front.flatMap fun p =>
          match nodes[p.1]? with
          | some n => (childrenOf n).map (fun c => (c, p.2 ++ [BitVec.ofNat 8 ((nodes[c]?).elim 0 VNode.label)]))
          | none => []
        (trieReach nodes f next (seen + front.length)).map (front ++ ·)

/-- Labels strictly ascending. -/
def ascending : List Nat → Bool
  | a :: b :: l => decide (a < b) && ascending (b :: l)
  | _ => true

/-- Every reached node, or none when the trie is not one tree over all nodes (check 3 of R89). -/
def triePaths (v : Vocab) : Option (List (Nat × List Byte)) :=
  match v.nodes with
  | [] => none
  | root :: _ =>
    let ranges := v.nodes.all (fun n => n.count == 0 || decide (n.first + n.count ≤ v.nodes.length))
    let labels := v.nodes.all (fun n => ascending ((childrenOf n).map (fun c => (v.nodes[c]?).elim 0 VNode.label)))
    if root.label = 0 ∧ root.tok = 0xFFFFFFFF ∧ ranges ∧ labels then
      match trieReach v.nodes (v.nodes.length + 2) [(0, [])] 0 with
      | some ps => if ps.length = v.nodes.length ∧ ascending ((sortBy (fun a b => decide (a < b)) (ps.map Prod.fst))) then some ps else none
      | none => none
    else none

/-- Token id t exists and has one of the kinds. -/
def kindIs (v : Vocab) (t : Nat) (ks : List Nat) : Bool := (v.tokens[t]?).elim false (fun k => ks.contains k.kind)

/-- Check 4 of R89. -/
def nodeTokensOk (v : Vocab) (ps : List (Nat × List Byte)) : Bool :=
  let at_ := ps.filterMap (fun p => (v.nodes[p.1]?).bind (fun n => if n.tok = 0xFFFFFFFF then none else some (n.tok, p.2)))
  at_.all (fun p => (v.tokens[p.1]?).elim false (fun t => (t.kind == 0 || t.kind == 1) && t.str == p.2))
    && (v.tokens.zipIdx).all (fun q =>
      if q.1.kind = 0 then at_.countP (fun p => p.1 == q.2) == 1
      else if q.1.kind = 2 then at_.countP (fun p => p.1 == q.2) == 0 else true)

/-- The child of a node with a label. -/
def childOf (v : Vocab) (n : VNode) (b : Byte) : Option VNode :=
  ((childrenOf n).filterMap (fun c => v.nodes[c]?)).find? (fun m => m.label == b.toNat)

/-- Check 6 of R89. -/
def byteMapOk (v : Vocab) : Bool :=
  (v.byteMap.zipIdx).all fun q =>
    let b : Byte := BitVec.ofNat 8 q.2
    kindIs v q.1 [0, 1] && (v.tokens[q.1]?).elim false (fun t => t.str == [b])
      && (match (v.nodes[0]?).bind (fun r => childOf v r b) with
          | some n => n.tok == 0xFFFFFFFF || n.tok == q.1
          | none => true)

/-- The first check of R89 that an image fails. -/
def vocabCheck (bs : List Byte) : Option Nat :=
  let n := leAt bs 12 4
  let k := leAt bs 16 4
  let v := parseVocab bs
  let c1 := magicOk bs "DRTHVOC1" && leAt bs 10 2 == 64 && leAt bs 8 2 == 1 && decide (256 ≤ n) && decide (n ≤ 1048576)
    && decide (1 ≤ k) && decide (k ≤ 16777216) && leAt bs 52 4 == bs.length && decide (bs.length ≤ 536870912) && crcOk bs 56
  if !c1 then some 1
  else
    let c2 := placed bs.length [(0, 64), (64, 1024)]
        [(leAt bs 36 4, 16 * k), (leAt bs 40 4, 8 * n), (leAt bs 44 4, leAt bs 48 4)]
      && decide (1088 ≤ bs.length)
      && (List.range n).all (fun t => decide (leAt bs (leAt bs 40 4 + 8 * t) 4 + leAt bs (leAt bs 40 4 + 8 * t + 4) 1 ≤ leAt bs 48 4))
    if !c2 then some 2
    else
      match triePaths v with
      | none => some 3
      | some ps =>
        let special := fun t : Nat => t == 0xFFFFFFFF || kindIs v t [2]
        firstFail
          [(4, nodeTokensOk v ps),
           (5, v.tokens.all (fun t => if t.kind = 0 then decide (1 ≤ t.str.length) else if t.kind = 1 then t.str.length == 1 else true)),
           (6, byteMapOk v),
           (7, special v.bos && special v.eos && special v.pad && special v.sep),
           (8, zeroBytes bs 60 4 && (List.range k).all (fun i => zeroBytes bs (leAt bs 36 4 + 16 * i + 11) 5)
               && (List.range n).all (fun i => zeroBytes bs (leAt bs 40 4 + 8 * i + 6) 2)
               && v.tokens.all (fun t => decide (t.kind ≤ 2)))]

/-! ### Tokenising (R90 to R93) -/

/-- The longest token from a node on: the best so far, updated along the walk (R90). -/
def longestFrom (v : Vocab) : List Byte → VNode → Nat → Option (Nat × Nat) → Option (Nat × Nat)
  | [], _, _, best => best
  | b :: bs, n, len, best =>
    match childOf v n b with
    | none => best
    | some c => longestFrom v bs c (len + 1) (if c.tok = 0xFFFFFFFF then best else some (c.tok, len + 1))

/-- The next token of an input that is not empty, and the bytes it consumes (R90). -/
def nextToken (v : Vocab) (bs : List Byte) : Nat × Nat :=
  match (v.nodes[0]?).bind (fun r => longestFrom v bs r 0 none) with
  | some p => p
  | none => (v.byteMap.getD ((bs.headD 0).toNat) 0, 1)

/-- Tokens of an input with the bytes each consumes; the fuel is the input's length. -/
def tokenisePairs (v : Vocab) : Nat → List Byte → List (Nat × Nat)
  | 0, _ => []
  | f + 1, bs =>
    match bs with
    | [] => []
    | _ =>
      let t := nextToken v bs
      t :: tokenisePairs v f (bs.drop (max t.2 1))

/-- The tokens of an input (R90, R92). -/
def tokenise (v : Vocab) (bs : List Byte) : List Nat := (tokenisePairs v bs.length bs).map Prod.fst

/-! ### Detokenising (R97 to R100) -/

/-- The bytes a token renders to (R97). -/
def renderToken (v : Vocab) (special : Bool) (t : Nat) : List Byte :=
  match v.tokens[t]? with
  | some k => if k.kind = 2 && !special then [] else k.str
  | none => []

/-- Bytes that follow a leading byte of a UTF-8 sequence; 0 for a byte that leads none (R98). -/
def utf8Needs (b : Byte) : Nat :=
  let n := b.toNat
  if 0xC2 ≤ n ∧ n ≤ 0xDF then 1 else if 0xE0 ≤ n ∧ n ≤ 0xEF then 2 else if 0xF0 ≤ n ∧ n ≤ 0xF4 then 3 else 0

/-- The number of bytes at the end that are held (R98): the distance back to the last leading byte, if it is among the last
three, only continuation bytes follow it, and fewer than it needs. -/
def heldCount (bs : List Byte) : Nat :=
  let tail := (bs.reverse).take 3
  match indexWhere (fun b => decide (0 < utf8Needs b)) tail with
  | none => 0
  | some j =>
    let conts := (tail.take j).all (fun b => decide (0x80 ≤ b.toNat) && decide (b.toNat ≤ 0xBF))
    if conts && decide (j < utf8Needs (tail.getD j 0)) then j + 1 else 0

/-- Bytes appended to the held ones: those released and those held (R98). -/
def holdBack (held new : List Byte) : List Byte × List Byte :=
  let all := held ++ new
  let n := heldCount all
  (all.take (all.length - n), all.drop (all.length - n))

/-- Tokens detokenised one by one: the bytes released and the bytes held. -/
def detokenise (v : Vocab) (special : Bool) : List Nat → List Byte → List Byte × List Byte
  | [], held => ([], held)
  | t :: ts, held =>
    let r := holdBack held (renderToken v special t)
    let q := detokenise v special ts r.2
    (r.1 ++ q.1, q.2)

/-- DETOKENIZE into room bytes: tokens consumed, bytes released, bytes held (R100). A token is consumed only when everything
released through it and everything then held fit. -/
def detokeniseInto (v : Vocab) (special : Bool) (room : Nat) : List Nat → Nat × List Byte × List Byte → Nat × List Byte × List Byte
  | [], a => a
  | t :: ts, (n, out, held) =>
    let r := holdBack held (renderToken v special t)
    if out.length + r.1.length + r.2.length ≤ room then detokeniseInto v special room ts (n + 1, out ++ r.1, r.2)
    else (n, out, held)

/-! ### Grammars (R102 to R113) -/

/-- The grammar that an image holds. -/
def parseGrammar (bs : List Byte) : Grammar :=
  let so := leAt bs 28 4
  let ta := leAt bs 32 4
  { len := bs.length
    start := leAt bs 24 4
    maxStack := leAt bs 22 2
    states := (List.range (leAt bs 12 4)).map (fun i => ⟨leAt bs (so + 8 * i) 4, leAt bs (so + 8 * i + 4) 2, hasBit (leAt bs (so + 8 * i + 6) 1) 0⟩)
    trans := (List.range (leAt bs 16 4)).map (fun i =>
      let o := ta + 16 * i
      ⟨leAt bs o 1, leAt bs (o + 1) 1, leAt bs (o + 2) 1, leAt bs (o + 4) 2, leAt bs (o + 8) 4⟩) }

/-- The first condition of R105 that an image fails. A transition's SYMBOL is in range when it is 0 for NONE and 1 to SYMBOL_COUNT
for the other actions. A SYMBOL_COUNT of 0 beside a MAX_STACK of 1 or more passes condition 1: the manual gives it no lower bound there (DESIGN
CHOICE, log entry 144). A state without transitions has none that could lie outside. -/
def grammarCheck (bs : List Byte) : Option Nat :=
  let ns := leAt bs 12 4
  let nt := leAt bs 16 4
  let sym := leAt bs 20 2
  let ms := leAt bs 22 2
  let c1 := magicOk bs "DRTHGRM1" && leAt bs 10 2 == 64 && leAt bs 8 2 == 1 && decide (1 ≤ ns) && decide (ns ≤ 1048576)
    && decide (1 ≤ nt) && decide (nt ≤ 16777216) && decide (ms ≤ 256) && (ms != 0 || sym == 0)
    && leAt bs 36 4 == bs.length && crcOk bs 40
  if !c1 then some 1
  else
    let so := leAt bs 28 4
    let ta := leAt bs 32 4
    if !placed bs.length [(0, 64)] [(so, 8 * ns), (ta, 16 * nt)] then some 2
    else
      let g := parseGrammar bs
      firstFail
        [(3, g.states.all (fun x => x.count == 0 || decide (x.first + x.count ≤ nt))),
         (4, g.trans.all (fun t => decide (t.dest < ns)) && decide (g.start < ns)),
         (5, g.trans.all (fun t => decide (t.lo ≤ t.hi) &&
              (if t.action = 0 then t.symbol == 0 else decide (1 ≤ t.symbol) && decide (t.symbol ≤ sym)))),
         (6, ms != 0 || g.trans.all (fun t => t.action == 0)),
         (7, zeroBytes bs 44 20
             && (List.range ns).all (fun i => decide (leAt bs (so + 8 * i + 6) 2 ≤ 1))
             && (List.range nt).all (fun i => zeroBytes bs (ta + 16 * i + 3) 1 && zeroBytes bs (ta + 16 * i + 6) 2
                  && zeroBytes bs (ta + 16 * i + 12) 4 && decide (leAt bs (ta + 16 * i + 2) 1 ≤ 3)))]

/-- A transition applies to a byte with a stack (R107). -/
def transApplies (c : GConfig) (b : Byte) (t : GTrans) : Bool :=
  decide (t.lo ≤ b.toNat) && decide (b.toNat ≤ t.hi) && (decide (t.action ≤ 1) || c.stack.head? == some t.symbol)

/-- The configuration after a byte, or none when the byte is rejected (R107). -/
def advanceByte (g : Grammar) (c : GConfig) (b : Byte) : Option GConfig :=
  match g.states[c.st]? with
  | none => none
  | some st =>
    match ((g.trans.drop st.first).take st.count).find? (transApplies c b) with
    | none => none
    | some t =>
      if t.action = 1 then (if c.stack.length < g.maxStack then some ⟨t.dest, t.symbol :: c.stack⟩ else none)
      else if t.action = 2 then some ⟨t.dest, c.stack.drop 1⟩
      else some ⟨t.dest, c.stack⟩

/-- The configuration after a byte string. -/
def advanceBytes (g : Grammar) : List Byte → GConfig → Option GConfig
  | [], c => some c
  | b :: bs, c => (advanceByte g c b).bind (advanceBytes g bs)

/-- The starting configuration (R106). -/
def startConfig (g : Grammar) : GConfig := ⟨g.start, []⟩

/-- The advance of a configuration by a token, or none when the token is not allowed (R108). -/
def advanceToken (g : Grammar) (v : Vocab) (c : GConfig) (t : Nat) : Option GConfig :=
  match v.tokens[t]? with
  | none => none
  | some k =>
    if k.kind = 2 then
      if t = v.eos ∧ ((g.states[c.st]?).elim false GState.accept) ∧ c.stack = [] then some c else none
    else advanceBytes g k.str c

/-- The mask of a configuration, token by token (R109): 1 exactly where R108 allows the token. -/
def maskOf (g : Grammar) (v : Vocab) (c : GConfig) : List Bool :=
  (List.range v.count).map (fun t => (advanceToken g v c t).isSome)

/-- The bitmap of a mask (R109): bit t is bit t mod 8 of byte t ÷ 8. -/
def maskBytes (mask : List Bool) : List Byte :=
  (List.range (ceilDiv mask.length 8)).map (fun i =>
    BitVec.ofNat 8 (((List.range 8).map (fun k => if mask.getD (8 * i + k) false then 2 ^ k else 0)).sum))

/-- The mask allows no token (R111). -/
def deadEnd (g : Grammar) (v : Vocab) (c : GConfig) : Bool := !(maskOf g v c).any id

/-- The shadow configurations of drafts, from the committed one: the chain stops at the first draft that is not allowed (R112). -/
def shadowChain (g : Grammar) (v : Vocab) : GConfig → List Nat → List GConfig
  | c, [] => [c]
  | c, d :: ds =>
    match advanceToken g v c d with
    | none => [c]
    | some c2 => c :: shadowChain g v c2 ds

end Sys2Proof.Machine
end

