-- ==== Sys2Proof/Machine/Search.lean ====
section
/-!
DEFINITION. Vector search (07_vector_search.md): index images and their checks (R206 to R209), the prepared query (R212), coarse scores,
code distances and full-vector scores as computed (R213 to R215), SEARCH and REFINE (R216 to R222), and the side list
(R224 to R230). A result carries the flags its arithmetic raised.
-/

namespace Sys2Proof.Machine

/-! ### The index image -/

/-- The length of one full vector, V of R207. -/
def fullBytes (fmt d : Nat) : Nat := if fmt = 7 then d else 2 * d

/-- CODE_BYTES of R207. -/
def codeBytes (kind d m b : Nat) : Nat := if kind = 0 then m * b / 8 else if kind = 1 then d else d / 2

/-- An FP32 word is finite. -/
def finite32 (w : Word) : Bool := match numOf w with | .fin _ _ _ => true | _ => false

/-- A BF16 code is finite. -/
def finite16 (c : Nat) : Bool := match decodeFloat bf16 c with | .fin _ _ _ => true | _ => false

/-- A dot product accumulated in FP32 under R127. -/
def dotFloat (ps : List (Num × Num)) : Word × Nat := accFloat 0 0 ps

/-- The sum of squares of BF16 codes under R127. -/
def squares16 (cs : List Nat) : Word × Nat := dotFloat (cs.map (fun c => (decodeFloat bf16 c, decodeFloat bf16 c)))

/-- Section k of an index image. -/
def ixSection (bs : List Byte) (k : Nat) : Nat × Nat := (leAt bs (72 + 16 * k) 8, leAt bs (80 + 16 * k) 8)

/-- BASE_COUNT of a partition. -/
def baseCount (bs : List Byte) (p : Nat) : Nat := leAt bs ((ixSection bs 0).1 + 16 * p + 8) 4

/-- CODE_OFFSET of a partition. -/
def codeOffset (bs : List Byte) (p : Nat) : Nat := leAt bs ((ixSection bs 0).1 + 16 * p) 8

/-- n 16-bit codes from an offset. -/
def codes16 (bs : List Byte) (o n : Nat) : List Nat := (List.range n).map (fun i => leAt bs (o + 2 * i) 2)

/-- The base items of the partitions from p on: local ids run on from first (R208). -/
def baseItems (bs : List Byte) (cb : Nat) : Nat → Nat → Nat → List IxItem
  | 0, _, _ => []
  | n + 1, p, first =>
    let k := baseCount bs p
    (List.range k).map (fun i =>
      ⟨first + i, p, slice bs ((ixSection bs 3).1 + codeOffset bs p + i * cb) cb, .full (first + i)⟩)
      ++ baseItems bs cb n (p + 1) (first + k)

/-- The index that an image holds. -/
def parseIndex (bs : List Byte) : Index :=
  let d := leAt bs 28 2
  let m := leAt bs 30 2
  let b := leAt bs 32 1
  let p := leAt bs 36 4
  let book := (ixSection bs 2).1
  let sub := if m = 0 then 0 else d / m
  { len := bs.length
    metric := leAt bs 24 1, codeKind := leAt bs 25 1, fullFormat := leAt bs 26 1
    residual := hasBit (leAt bs 27 1) 0, hybrid := hasBit (leAt bs 27 1) 1
    dim := d, pqM := m, pqBits := b, parts := p, idCap := leAt bs 48 8
    codeScale := BitVec.ofNat 32 (leAt bs 64 4), fullScale := BitVec.ofNat 32 (leAt bs 68 4)
    epoch := leAt bs 56 8
    centroids := (List.range p).map (fun i => codes16 bs ((ixSection bs 1).1 + 2 * d * i) d)
    norms := (List.range p).map (fun i => BitVec.ofNat 32 (leAt bs ((ixSection bs 0).1 + 16 * i + 12) 4))
    codebooks := (List.range m).map (fun j => (List.range (2 ^ b)).map (fun c => codes16 bs (book + 2 * sub * (j * 2 ^ b + c)) sub))
    ccn := (List.range m).map (fun j => (List.range (2 ^ b)).map (fun c =>
      BitVec.ofNat 32 (leAt bs (book + 2 * d * 2 ^ b + 4 * (j * 2 ^ b + c)) 4)))
    items := baseItems bs (codeBytes (leAt bs 25 1) d m b) p 0 0
    buildId := slice bs 152 16
    sections := (List.range 5).map (ixSection bs), codeOffs := (List.range p).map (codeOffset bs) }

/-- A power of two from 8 to 256. -/
def isPqM (m : Nat) : Bool := [8, 16, 32, 64, 128, 256].contains m

/-- Check 2 of R209. -/
def indexFieldsOk (bs : List Byte) : Bool :=
  let kind := leAt bs 25 1
  let full := leAt bs 26 1
  let d := leAt bs 28 2
  let m := leAt bs 30 2
  let b := leAt bs 32 1
  let metric := leAt bs 24 1
  let codeScale : Word := BitVec.ofNat 32 (leAt bs 64 4)
  let fullScale : Word := BitVec.ofNat 32 (leAt bs 68 4)
  let positive := fun w : Word => finite32 w && flt 0 w
  decide (metric ≤ 2) && decide (kind ≤ 2) && (full == 7 || full == 1)
    && (!hasBit (leAt bs 27 1) 1 || decide (metric ≤ 1)) && (!hasBit (leAt bs 27 1) 0 || kind == 0)
    && decide (8 ≤ d) && decide (d ≤ 4096) && d % 8 == 0
    && (if kind = 0 then isPqM m && d % m == 0 && (b == 4 || b == 8) && codeScale == 0
        else m == 0 && b == 0 && positive codeScale)
    && (if full = 7 then positive fullScale else fullScale == 0x3F800000#32)
    && decide (1 ≤ leAt bs 36 4) && decide (leAt bs 36 4 ≤ 1048576) && decide (leAt bs 40 8 ≤ 8000000000)
    && decide (leAt bs 40 8 ≤ leAt bs 48 8) && decide (leAt bs 48 8 ≤ 2 ^ 34)
    && decide (1 ≤ leAt bs 56 8) && decide (leAt bs 56 8 ≤ 2 ^ 63)

/-- Check 3 of R209. -/
def indexSectionsOk (bs : List Byte) : Bool :=
  let d := leAt bs 28 2
  let b := leAt bs 32 1
  let m := leAt bs 30 2
  let p := leAt bs 36 4
  let sec := fun k => ixSection bs k
  placed bs.length [(0, 256)] ((List.range 5).map sec)
    && (List.range 5).all (fun k => (sec k).1 % 4096 == 0)
    && (sec 0).2 == 16 * p && (sec 1).2 == 2 * d * p
    && (sec 2).2 == (if leAt bs 25 1 = 0 then 2 * d * 2 ^ b + 4 * m * 2 ^ b else 0)
    && (sec 4).2 == fullBytes (leAt bs 26 1) d * leAt bs 40 8

/-- Check 4 of R209. -/
def indexCodesOk (bs : List Byte) : Bool :=
  let p := leAt bs 36 4
  let cb := codeBytes (leAt bs 25 1) (leAt bs 28 2) (leAt bs 30 2) (leAt bs 32 1)
  let ps := (List.range p).map (fun i => (codeOffset bs i, baseCount bs i * cb))
  ((List.range p).map (baseCount bs)).sum == leAt bs 40 8
    && ps.all (fun r => r.1 % 4096 == 0 && decide (r.1 + r.2 ≤ (ixSection bs 3).2))
    && placed (ixSection bs 3).2 [] (ps.filter (fun r => decide (0 < r.2)))

/-- Check 5 of R209. -/
def indexNormsOk (ix : Index) : Bool :=
  ix.centroids.all (fun c => c.all finite16) && ix.codebooks.all (fun j => j.all (fun c => c.all finite16))
    && (ix.centroids.zip ix.norms).all (fun q => finite32 q.2 && (squares16 q.1).1 == q.2)
    && (ix.codebooks.zip ix.ccn).all (fun j => (j.1.zip j.2).all (fun q => finite32 q.2 && (squares16 q.1).1 == q.2))

/-- The first check of R209 that an image fails. -/
def indexCheck (bs : List Byte) : Option Nat :=
  if !(magicOk bs "DRTHIDX1" && leAt bs 10 2 == 256 && leAt bs 8 2 == 1 && leAt bs 16 8 == bs.length && decide (256 ≤ bs.length)
        && crcOk bs 12) then some 1
  else if !indexFieldsOk bs then some 2
  else if !indexSectionsOk bs then some 3
  else
    firstFail
      [(4, indexCodesOk bs), (5, indexNormsOk (parseIndex bs)),
       (6, decide (leAt bs 27 1 < 4) && zeroBytes bs 33 3 && zeroBytes bs 168 88)]

/-- The near-memory bytes that an index reserves (R210), without FULL and the side list's vectors. -/
def indexNearBytes (ix : Index) : Nat :=
  ix.len - fullBytes ix.fullFormat ix.dim * ix.items.length
    + codeBytes ix.codeKind ix.dim ix.pqM ix.pqBits * 67108864 + ceilDiv ix.idCap 8

/-- V of an index, the bytes of one full vector. -/
def Index.vec (ix : Index) : Nat := fullBytes ix.fullFormat ix.dim

/-- CODE_BYTES of an index. -/
def Index.code (ix : Index) : Nat := codeBytes ix.codeKind ix.dim ix.pqM ix.pqBits

/-- The entries that a side list holds at most (R224, R228). -/
def sideLimit : Nat := 67108864

/-- The bytes of FULL, and of the side list's vectors, placed in far memory where it has room (R210). -/
def fullSize (ix : Index) : Nat := ix.vec * ix.items.length
def sideSize (ix : Index) : Nat := ix.vec * sideLimit

/-- Where the side list's codes begin in the region of the near sections: after the image up to FULL. -/
def sideCodeAt (ix : Index) : Nat := alignUp ((ix.sections.take 4).foldl (fun a x => max a (x.1 + x.2)) 256) 4096

/-- Where the deletion state begins there. -/
def deletionAt (ix : Index) : Nat := alignUp (sideCodeAt ix + ix.code * sideLimit) 4096

/-- The region and offset of an item's full vector (R218, R230). -/
def vectorPlace (ix : Index) (it : IxItem) : Nat × Nat :=
  match it.loc with
  | .full k => (ix.fullRegion, k * ix.vec)
  | .side j => (ix.sideRegion, j * ix.vec)

/-! ### The prepared query (R212) -/

/-- The query vector as SEARCH uses it: FP32 values, BF16 codes as values, the INT8 query and its scale s. -/
structure PreparedQuery where
  real : List Word
  half : List Num
  scale : Word
  ints : List Int
  flags : Nat

/-- Values with the OR of their flags. -/
def gatherFlags (rs : List (Word × Nat)) : List Word × Nat := (rs.map Prod.fst, flagsOf (rs.map Prod.snd))

/-- COS normalisation: q × RSQRT of the sum of squares, unless that sum is +0. -/
def normalise (q : List Word) : List Word × Nat :=
  let sum := q.foldl (fun a x => let r := ffma x x a.1; (r.1, flagOr a.2 r.2)) ((0 : Word), 0)
  if sum.1 = 0 then (q, sum.2)
  else
    let n := frsqrt sum.1
    let r := gatherFlags (q.map (fun x => fmul x n.1))
    (r.1, flagOr (flagOr sum.2 n.2) r.2)

/-- A value as a BF16 number. -/
def half16 (w : Word) : Num × Nat :=
  let r := encodeFloat bf16 (numOf w)
  (decodeFloat bf16 r.1, r.2)

/-- An integer held between two limits. -/
def clampInt (lo hi v : Int) : Int := max lo (min hi v)

def prepareQuery (metric : Nat) (q0 : List Word) : PreparedQuery :=
  let q := if metric = 1 then normalise q0 else (q0, 0)
  let h := q.1.map half16
  let amax := q.1.foldl (fun a x => (fmax a (fabs x).1).1) (0 : Word)
  let s := if amax = 0 then ((0 : Word), 0) else fdiv amax 0x42FE0000#32
  let is := q.1.map (fun x =>
    if amax = 0 then ((0 : Int), 0)
    else
      let d := fdiv x s.1
      let c := cvtfi d.1
      (clampInt (-127) 127 c.1.toInt, flagOr d.2 c.2))
  { real := q.1, half := h.map Prod.fst, scale := s.1, ints := is.map Prod.fst
    flags := flagsOf (q.2 :: s.2 :: (h.map Prod.snd ++ is.map Prod.snd)) }

/-! ### Scores -/

/-- Selection mode of a metric: highest first for IP and COS, lowest first for L2. -/
def metricMode (ix : Index) : Nat := if ix.metric = 2 then 3 else 2

/-- −2 in FP32. -/
def minusTwo : Word := 0xC0000000#32

/-- B_p, the dot product of the BF16 query and a centroid (R213). -/
def centroidDot (half : List Num) (cen : List Nat) : Word × Nat := dotFloat (half.zip (cen.map (decodeFloat bf16)))

/-- The coarse score of a partition (R213). -/
def coarseScore (ix : Index) (half : List Num) (p : Nat) : Word × Nat :=
  let b := centroidDot half (ix.centroids.getD p [])
  if ix.metric = 2 then
    let r := ffma minusTwo b.1 (ix.norms.getD p 0)
    (r.1, flagOr b.2 r.2)
  else b

/-- All partitions, best first; equal scores in ascending partition number (R213). -/
def rankParts (ix : Index) (half : List Num) : List SelPair :=
  orderPairs (metricMode ix) ((List.range ix.parts).map (fun p => ⟨p, (coarseScore ix half p).1⟩))

/-- The L2 look-up value of a centroid of a subspace: max(fma(−2, B, round(A + CCN)), +0) (R214). -/
def lutL2 (x : List Num) (y : List Nat) (ccn : Word) : Word × Nat :=
  let a := dotFloat (x.map (fun v => (v, v)))
  let b := dotFloat (x.zip (y.map (decodeFloat bf16)))
  let s := fadd a.1 ccn
  let f := ffma minusTwo b.1 s.1
  let m := fmax f.1 0
  (m.1, flagsOf [a.2, b.2, s.2, f.2])

/-- The look-up value of subspace j and centroid c for a query part (R214). -/
def lutValue (ix : Index) (x : List Num) (j c : Nat) : Word × Nat :=
  let y := (ix.codebooks.getD j []).getD c []
  if ix.metric = 2 then lutL2 x y ((ix.ccn.getD j []).getD c 0) else dotFloat (x.zip (y.map (decodeFloat bf16)))

/-- The part of a vector in subspace j. -/
def subPart {α : Type} (ix : Index) (x : List α) (j : Nat) : List α :=
  let n := if ix.pqM = 0 then 0 else ix.dim / ix.pqM
  (x.drop (j * n)).take n

/-- BF16 of the differences between FP32 values and a centroid (R214). -/
def residual16 (q : List Word) (cen : List Nat) : List Num :=
  List.zipWith (fun x c => (half16 (fsub x (toFp32 (decodeFloat bf16 c)).1).1).1) q cen

/-- code_j of a PQ code. -/
def pqCode (ix : Index) (code : List Byte) (j : Nat) : Nat :=
  if ix.pqBits = 8 then leAt code j 1 else leAt code (j / 2) 1 / 2 ^ (4 * (j % 2)) % 16

/-- The PQ code distance of an item in partition p (R214). -/
def pqDistance (ix : Index) (q : PreparedQuery) (p : Nat) (code : List Byte) : Word × Nat :=
  let x := if ix.metric = 2 ∧ ix.residual then residual16 q.real (ix.centroids.getD p []) else q.half
  let base := if ix.metric ≠ 2 ∧ ix.residual then centroidDot q.half (ix.centroids.getD p []) else ((0 : Word), 0)
  (List.range ix.pqM).foldl (fun acc j =>
    let l := lutValue ix (subPart ix x j) j (pqCode ix code j)
    let r := fadd acc.1 l.1
    (r.1, flagsOf [acc.2, l.2, r.2])) base

/-- The three-sum form (R215) from A, B and C in FP32. -/
def threeSum (l2 : Bool) (s sigma a b c : Word) : Word × Nat :=
  let u := fmul s sigma
  if l2 then
    let ss := fmul s s
    let a1 := fmul ss.1 a
    let m := fmul minusTwo u.1
    let t := ffma m.1 b a1.1
    let g := fmul sigma sigma
    let r := ffma g.1 c t.1
    (if flt r.1 0 || r.1 == 0x80000000#32 then 0 else r.1, flagsOf [u.2, ss.2, a1.2, t.2, g.2, r.2])
  else
    let r := fmul u.1 b
    (r.1, flagOr u.2 r.2)

/-- An exact integer sum in FP32 (R215). -/
def sumFp32 (v : Int) : Word × Nat := toFp32 (numOfInt v)

/-- The three-sum score of an integer vector y with scale σ. -/
def scoreInts (l2 : Bool) (q : PreparedQuery) (sigma : Word) (y : List Int) : Word × Nat :=
  let dot := fun (u v : List Int) => (List.zipWith (· * ·) u v).sum
  let a := sumFp32 (dot q.ints q.ints)
  let b := sumFp32 (dot q.ints y)
  let c := sumFp32 (dot y y)
  let r := threeSum l2 q.scale sigma a.1 b.1 c.1
  (r.1, flagsOf [a.2, b.2, c.2, r.2])

/-- The three-sum score of a BF16 vector: s = σ = 1. -/
def scoreHalf (l2 : Bool) (q : PreparedQuery) (y : List Num) : Word × Nat :=
  let one : Word := 0x3F800000#32
  let a := dotFloat (q.half.map (fun v => (v, v)))
  let b := dotFloat (q.half.zip y)
  let c := dotFloat (y.map (fun v => (v, v)))
  let r := threeSum l2 one one a.1 b.1 c.1
  (r.1, flagsOf [a.2, b.2, c.2, r.2])

/-- The integers of an SQ code. -/
def sqCode (ix : Index) (code : List Byte) : List Int :=
  (List.range ix.dim).map (fun t =>
    if ix.codeKind = 1 then signedOf 8 (leAt code t 1) else signedOf 4 (leAt code (t / 2) 1 / 2 ^ (4 * (t % 2)) % 16))

/-- The code distance of an item (R214, R215). -/
def codeDistance (ix : Index) (q : PreparedQuery) (it : IxItem) : Word × Nat :=
  if ix.codeKind = 0 then pqDistance ix q it.part it.code
  else scoreInts (ix.metric == 2) q ix.codeScale (sqCode ix it.code)

/-- The integers of an INT8 full vector, the values of a BF16 one. -/
def fullInts (full : List Byte) : List Int := full.map (fun b => b.toInt)
def fullHalf (ix : Index) (full : List Byte) : List Num := (codes16 full 0 ix.dim).map (decodeFloat bf16)

/-- The score of a full vector, without the sparse term (R219). -/
def fullScore (ix : Index) (q : PreparedQuery) (full : List Byte) : Word × Nat :=
  if ix.fullFormat = 7 then scoreInts (ix.metric == 2) q ix.fullScale (fullInts full)
  else scoreHalf (ix.metric == 2) q (fullHalf ix full)

/-! ### Live items (R224, R226) -/

/-- One entry applied to the live items. -/
def applyEntry (items : List IxItem) : SideEntry → List IxItem
  | .insert it => items.filter (fun x => x.id != it.id) ++ [it]
  | .delete id => items.filter (fun x => x.id != id)

/-- The items live in a snapshot of n entries. -/
def liveItems (ix : Index) (n : Nat) : List IxItem := (ix.side.take n).foldl applyEntry ix.items

/-! ### SEARCH and REFINE -/

/-- The global id of R71: the package number in bits 47:37, the local id in bits 36:3, bits 2:0 zero. -/
def globalId (pkg id : Nat) : Nat := pkg % 2 ^ 11 * 2 ^ 37 + id % 2 ^ 34 * 8

/-- The local id of a global id (R71). -/
def localId (gid : Nat) : Nat := gid / 8 % 2 ^ 34

/-- The partitions of the first probe round and of all rounds (R211, R213). -/
def probedParts (ix : Index) (sp : SearchParams) (q : PreparedQuery) : List Nat × List Nat :=
  let ranked := (rankParts ix q.half).map SelPair.index
  if sp.exact then (ranked.take (ceilDiv ix.parts 4), ranked)
  else
    let first := if sp.firstRound = 0 then ceilDiv sp.nprobe 4 else sp.firstRound
    (ranked.take first, ranked.take sp.nprobe)

/-- A score stays within the threshold (R211, R216). -/
def withinThreshold (ix : Index) (sp : SearchParams) (w : Word) : Bool :=
  !sp.thresholdEn || (!(numOf w).isNan && (if ix.metric = 2 then !flt sp.threshold w else !flt w sp.threshold))

/-- The scored candidates of a set of partitions, in no order yet (R216). -/
def scanParts (ix : Index) (n pkg : Nat) (sp : SearchParams) (allowed : Nat → Bool) (q : PreparedQuery) (parts : List Nat) :
    List SelPair × Nat :=
  let its := (liveItems ix n).filter (fun it => parts.contains it.part && allowed it.id)
  let scored := its.map (fun it => (it, codeDistance ix q it))
  ((scored.filter (fun x => withinThreshold ix sp x.2.1)).map (fun x => ⟨globalId pkg x.1.id, x.2.1⟩), flagsOf (scored.map (fun x => x.2.2)))

/-- SEARCH: the first searchK candidates by code distance (R216), with the flags raised. -/
def searchList (ix : Index) (n pkg searchK : Nat) (sp : SearchParams) (allowed : Nat → Bool) (q0 : List Word) : List Cand × Nat :=
  let q := prepareQuery ix.metric q0
  let r := scanParts ix n pkg sp allowed q (probedParts ix sp q).2
  ((firstK (metricMode ix) searchK r.1).map (fun p => ⟨p.index, p.score, 0⟩), flagOr q.flags r.2)

/-- The provisional list after the first probe round (R58, R217, R249). -/
def provisionalList (ix : Index) (n pkg searchK depth : Nat) (sp : SearchParams) (allowed : Nat → Bool) (q0 : List Word) : List Nat :=
  let q := prepareQuery ix.metric q0
  let r := scanParts ix n pkg sp allowed q (probedParts ix sp q).1
  (firstK (metricMode ix) (min depth searchK) r.1).map SelPair.index

/-- The sparse score of a passage (R221). -/
def sparseScore (terms : List (Nat × Word)) (toks : List Nat) : Word × Nat :=
  (sortBy (fun a b => decide (a.1 < b.1)) terms).foldl (fun acc t =>
    if toks.contains t.1 then
      let r := fadd acc.1 t.2
      (r.1, flagOr acc.2 r.2)
    else acc) (0, 0)

/-- REFINE's score of a candidate (R219, R222). -/
def refineScore (ix : Index) (sp : SearchParams) (q : PreparedQuery) (terms : List (Nat × Word)) (toks : List Nat) (full : List Byte) :
    Word × Nat :=
  let f := fullScore ix q full
  if ix.hybrid then
    let sc := sparseScore terms toks
    let r := ffma sp.sparseWeight sc.1 f.1
    (r.1, flagsOf [f.2, sc.2, r.2])
  else f

/-- REFINE: the first refineK candidates by full-vector score (R219). A candidate that is not live in the snapshot cannot stand in the
list that SEARCH handed on; fullOf gives the vector read for a global id. -/
def refineList (ix : Index) (n refineK : Nat) (fullOf : Nat → List Byte) (sp : SearchParams) (terms : List (Nat × Word)) (toksOf : Nat → List Nat)
    (q0 : List Word) (cands : List Cand) : List Cand × Nat :=
  let q := prepareQuery ix.metric q0
  let live := liveItems ix n
  let scored := cands.filterMap (fun c => (live.find? (fun it => it.id == localId c.id)).map
    (fun _ => (c.id, refineScore ix sp q terms (toksOf c.id) (fullOf c.id))))
  ((firstK (metricMode ix) refineK (scored.map (fun x => ⟨x.1, x.2.1⟩))).map (fun p => ⟨p.index, p.score, 1⟩),
    flagOr q.flags (flagsOf (scored.map (fun x => x.2.2))))

/-! ### Inserts, deletes and merges -/

/-- The values of a full vector (R226). -/
def itemValues (ix : Index) (full : List Byte) : List Word :=
  if ix.fullFormat = 7 then (fullInts full).map (fun v => (fmul ix.fullScale (sumFp32 v).1).1)
  else (fullHalf ix full).map (fun v => (toFp32 v).1)

/-- The partition assigned to an item (R226). -/
def assignPart (ix : Index) (vals : List Word) : Nat :=
  let q := if ix.metric = 1 then (normalise vals).1 else vals
  (((rankParts ix (q.map (fun w => (half16 w).1))).head?).map SelPair.index).getD 0

/-- The PQ code of an item: for each subspace the centroid of lowest L2 look-up value, the lower number among equals (R226). -/
def makePq (ix : Index) (vals : List Word) (p : Nat) : List Nat :=
  let x := if ix.residual then residual16 vals (ix.centroids.getD p []) else vals.map (fun w => (half16 w).1)
  (List.range ix.pqM).map (fun j =>
    let cs := (List.range (2 ^ ix.pqBits)).map (fun c =>
      (⟨c, (lutL2 (subPart ix x j) ((ix.codebooks.getD j []).getD c []) ((ix.ccn.getD j []).getD c 0)).1⟩ : SelPair))
    (((orderPairs 3 cs).head?).map SelPair.index).getD 0)

/-- Pairs of 4-bit codes packed, the lower index in bits 3:0 (R122). -/
def pack4 : List Nat → List Byte
  | a :: b :: l => BitVec.ofNat 8 (a % 16 + 16 * (b % 16)) :: pack4 l
  | [a] => [BitVec.ofNat 8 (a % 16)]
  | [] => []

/-- The code of an item (R226). -/
def makeCode (ix : Index) (vals : List Word) (p : Nat) : List Byte :=
  if ix.codeKind = 0 then
    let cs := makePq ix vals p
    if ix.pqBits = 8 then cs.map (BitVec.ofNat 8) else pack4 cs
  else
    let lim : Int := if ix.codeKind = 1 then 128 else 8
    let cs := vals.map (fun v => clampInt (-lim) (lim - 1) (cvtfi (fdiv v ix.codeScale).1).1.toInt)
    if ix.codeKind = 1 then cs.map (fun v => BitVec.ofInt 8 v) else pack4 (cs.map (codeOf 4))

/-- An inserted item (R225, R226); PARTITION 0xFFFF_FFFF is assigned by the device. Its slot is given at the commit point. -/
def makeItem (ix : Index) (id part : Nat) (full : List Byte) : IxItem :=
  let vals := itemValues ix full
  let p := if part = 0xFFFFFFFF then assignPart ix vals else part
  ⟨id, p, makeCode ix vals p, .side 0⟩

/-- Deletes applied in order: the entries appended, the ids applied and absent (R226). -/
def applyDeletes (live : List IxItem) : List Nat → List SideEntry × Nat × Nat
  | [] => ([], 0, 0)
  | id :: ids =>
    if live.any (fun it => it.id == id) then
      let r := applyDeletes (live.filter (fun it => it.id != id)) ids
      (.delete id :: r.1, r.2.1 + 1, r.2.2)
    else
      let r := applyDeletes live ids
      (r.1, r.2.1, r.2.2 + 1)

/-- The slots of the side list's vectors that an index uses: those of its entries, and those of merged items whose vectors have not moved
to FULL (R224, R230). -/
def usedSlots (ix : Index) : List Nat :=
  ix.items.filterMap (fun it => match it.loc with | .side j => some j | .full _ => none)
    ++ ix.side.filterMap (fun e => match e with | .insert ⟨_, _, _, .side j⟩ => some j | _ => none)

/-- The lowest n slots that are not used, from k on. -/
def freeSlots (used : List Nat) : Nat → Nat → Nat → List Nat
  | 0, _, _ => []
  | f + 1, n, k =>
    if n = 0 then []
    else if used.contains k then freeSlots used f n (k + 1) else k :: freeSlots used f (n - 1) (k + 1)

/-- The offsets of partitions laid out one after the other on 4 KiB boundaries, as a merge rewrites them (R208; log entry 134). -/
def packParts (ix : Index) (items : List IxItem) : List Nat :=
  ((List.range ix.parts).foldl (fun (acc : List Nat × Nat) p =>
    (acc.1 ++ [acc.2], acc.2 + alignUp (ix.code * items.countP (fun it => it.part == p)) 4096)) ([], 0)).1

/-- The next epoch of an index with its first n entries folded (R229, R230): a merged item keeps its id, and its vector stays where it is. -/
def mergeIndex (ix : Index) (n : Nat) : Index :=
  let items := liveItems ix n
  let per := codeBytes ix.codeKind ix.dim ix.pqM ix.pqBits + fullBytes ix.fullFormat ix.dim
  { ix with
    epoch := ix.epoch + 1, items := items, side := ix.side.drop n, codeOffs := packParts ix items
    len := ix.len + per * items.length - per * ix.items.length }

/-- The partitions that a merge of the first n entries rewrites, and the near bytes of their new codes (R229, R231). -/
def mergeNeed (ix : Index) (n : Nat) : Nat :=
  let after := liveItems ix n
  let gone := ix.items.filter (fun it => !after.contains it)
  let come := after.filter (fun it => !ix.items.contains it)
  let parts := ((gone ++ come).map IxItem.part).dedup
  codeBytes ix.codeKind ix.dim ix.pqM ix.pqBits * after.countP (fun it => parts.contains it.part)

end Sys2Proof.Machine
end

