-- ==== Sys2Proof/Machine/RerankPack.lean ====
section
/-!
DEFINITION. Re-ranking and packing (09_rerank_pack.md): the checks of pack templates (R267) and of a passage store's header (R254),
re-rank pairs (R259) and their order (R262), the walk that fills the token budget (R268) and the prompt and span map it
gives (R270, R272).
-/

namespace Sys2Proof.Machine

/-! ### Pack templates (R265 to R267) -/

/-- Element i of a template image. -/
def imageElem (bs : List Byte) (pool i : Nat) : TElem :=
  let o := 64 + 8 * i
  ⟨leAt bs o 1, (List.range (leAt bs (o + 2) 2)).map (fun j => leAt bs (pool + 4 * (leAt bs (o + 4) 4 + j)) 4)⟩

/-- The template that an image holds. -/
def parseTemplate (bs : List Byte) : Template :=
  let n := leAt bs 12 2
  { len := bs.length, vocabTokens := leAt bs 16 4, order := leAt bs 20 1, labelCount := leAt bs 21 1, minCut := leAt bs 22 2
    elems := (List.range n).map (imageElem bs (64 + 8 * n)) }

/-- The first condition of R267 that an image fails. -/
def templateCheck (bs : List Byte) : Option Nat :=
  let n := leAt bs 12 2
  let pool := leAt bs 14 2
  let t := parseTemplate bs
  let kind := fun i : Nat => leAt bs (64 + 8 * i) 1
  let count := fun k : Nat => (List.range n).countP (fun i => kind i == k)
  let c1 := magicOk bs "DRTHPKT1" && leAt bs 10 2 == 64 && leAt bs 8 2 == 1 && decide (2 ≤ n) && decide (n ≤ 320)
    && decide (leAt bs 21 1 ≤ 254) && decide (1 ≤ leAt bs 22 2)
    && leAt bs 24 4 == 64 + 8 * n + 4 * pool && leAt bs 24 4 == bs.length && crcOk bs 28
  if !c1 then some 1
  else
    firstFail
      [(2, count 2 == 1),
       (3, decide (count 1 ≤ 1) && decide (count 3 ≤ 1) && decide (count 4 ≤ 1) && decide (count 5 ≤ 1)),
       (4, count 6 == leAt bs 21 1),
       (5, (List.range n).all (fun i =>
            let len := leAt bs (64 + 8 * i + 2) 2
            let ix := leAt bs (64 + 8 * i + 4) 4
            decide (6 < kind i) ||
              ((if kind i = 1 ∨ kind i = 2 then len == 0 else if kind i = 0 then true else decide (len ≤ 16))
                && (len != 0 || ix == 0) && decide (ix + len ≤ pool)))
          && (List.range pool).all (fun j => decide (leAt bs (64 + 8 * n + 4 * j) 4 < t.vocabTokens))),
       (6, zeroBytes bs 32 32 && decide (t.order ≤ 1)
          && (List.range n).all (fun i => decide (kind i ≤ 6) && zeroBytes bs (64 + 8 * i + 1) 1))]

/-- The run of the element of a kind; empty when it is absent. -/
def runOf (t : Template) (k : Nat) : List Nat := ((t.elems.find? (fun e => e.kind == k)).map TElem.run).getD []

/-- Label runs in element order (R266). -/
def labelRuns (t : Template) : List (List Nat) := (t.elems.filter (fun e => e.kind == 6)).map TElem.run

/-- The template holds a QUERY element. -/
def hasQuery (t : Template) : Bool := t.elems.any (fun e => e.kind == 1)

/-- The sum of the LITERAL lengths, L of R268. -/
def literalTokens (t : Template) : Nat := ((t.elems.filter (fun e => e.kind == 0)).map (fun e => e.run.length)).sum

/-! ### Passage stores (R252 to R256) -/

/-- The header checks of R254 on the 64 bytes of a header, for an image at an offset of a region of a size. -/
def passageHeaderOk (h : List Byte) (offset size : Nat) : Bool :=
  let items := leAt h 16 8
  let tab := leAt h 24 8
  let tok := leAt h 32 8
  let len := leAt h 40 8
  magicOk h "DRTHPAS1" && leAt h 10 2 == 64 && leAt h 8 2 == 1
    && crc32 (zeroed4 (slice h 0 64) 48) == leAt h 48 4
    && decide (items ≤ 2 ^ 34) && tab % 4096 == 0 && tok % 4096 == 0 && offset % 4096 == 0
    && decide (tab + 8 * items ≤ len) && decide (tok ≤ len) && decide (64 ≤ tab) && decide (64 ≤ tok)
    && !(decide (tab ≤ tok) && decide (tok < tab + 8 * items))
    && decide (offset + len ≤ size) && zeroBytes h 52 12

/-- The binding that a header gives. -/
def parsePassage (h : List Byte) (region offset : Nat) : Passage :=
  { region := region, offset := offset, vocabTokens := leAt h 12 4, itemCount := leAt h 16 8, tableOff := leAt h 24 8
    tokenOff := leAt h 32 8, imageLen := leAt h 40 8 }

/-- A passage as read (R256): its tokens, why it is to be logged (1 reserved bits, 2 beyond the image, 3 a token id out of range), or the
first poisoned offset read. The reader gives n bytes of the region from an offset. -/
inductive PassageRead where
  | tokens (ts : List Nat)
  | bad (why : Nat)
  | poison (off : Nat)
  deriving DecidableEq, Repr

def readPassage (read : Nat → Nat → Except Nat (List Byte)) (p : Passage) (k : Nat) : PassageRead :=
  if p.itemCount ≤ k then .tokens []
  else
    match read (p.offset + p.tableOff + 8 * k) 8 with
    | .error x => .poison x
    | .ok e =>
      let v := leNat e
      let start := bitsOf v 43 0
      let len := bitsOf v 59 44
      if bitsOf v 63 60 ≠ 0 then .bad 1
      else if p.imageLen < p.tokenOff + 4 * (start + len) then .bad 2
      else
        match read (p.offset + p.tokenOff + 4 * start) (4 * len) with
        | .error x => .poison x
        | .ok bs =>
          let ts := (List.range len).map (fun i => leAt bs (4 * i) 4)
          if ts.all (fun t => decide (t < p.vocabTokens)) then .tokens ts else .bad 3

/-! ### RERANK (R259 to R263) -/

/-- Framing flags of a RERANK binding, f of R259. -/
def pairFrame (b : Binding) : Nat := bit b.leadBos + bit b.pairSep + bit b.trailEos

/-- The query and passage tokens that a pair keeps (R259). -/
def pairKeeps (b : Binding) (nq np : Nat) : Nat × Nat :=
  let q := min nq ((b.seqLen - pairFrame b) / 2)
  (q, min np (b.seqLen - pairFrame b - q))

/-- VALID_LEN of a pair. -/
def validLen (b : Binding) (nq np : Nat) : Nat :=
  let k := pairKeeps b nq np
  pairFrame b + k.1 + k.2

/-- The pair of a candidate, padded to SEQ_LEN (R259). -/
def buildPair (b : Binding) (v : Vocab) (query passage : List Nat) : List Nat :=
  let k := pairKeeps b query.length passage.length
  let body := (if b.leadBos then [v.bos] else []) ++ query.take k.1 ++ (if b.pairSep then [v.sep] else [])
    ++ passage.take k.2 ++ (if b.trailEos then [v.eos] else [])
  body ++ List.replicate (b.seqLen - body.length) v.pad

/-- The pair length of the query as a fraction: the sum of VALID_LEN rounded up to 64, and the count (R263). -/
def pairLengthSum (b : Binding) (nq : Nat) (passages : List Nat) : Nat × Nat :=
  if passages.isEmpty then (b.seqLen, 1) else ((passages.map (fun np => alignUp (validLen b nq np) 64)).sum, passages.length)

/-- Candidates in descending score; equal keys keep their incoming order (R262). -/
def rerankOrder (cs : List Cand) : List Cand := sortBy (fun a b => decide (orderKey 2 b.score < orderKey 2 a.score)) cs

/-! ### PACK (R268 to R272) -/

/-- FNV-1a with 64 bits over the little-endian bytes of token ids (R269). -/
def fnvHash (ts : List Nat) : Nat :=
  (ts.flatMap (leBytes 4)).foldl (fun h b => ((h ^^^ b.toNat) * 0x00000100000001B3) % 2 ^ 64) 0xCBF29CE484222325

/-- A passage chosen for the prompt: its list position, kept tokens, whether it was cut, and its place among the chosen. -/
structure Chosen where
  pos : Nat
  hash : Nat
  kept : List Nat
  cut : Bool
  place : Nat
  deriving DecidableEq, Repr

/-- A span-map entry before prompt positions are known: STATE and the placed passage it refers to. -/
structure WalkEntry where
  id : Nat
  pos : Nat
  state : Nat
  match_ : Nat
  deriving DecidableEq, Repr

/-- The walk of R268 over (global id, passage tokens) from list position i. -/
def packWalk (t : Template) : List (Nat × List Nat) → Nat → Nat → List Chosen → List WalkEntry → List Chosen × List WalkEntry
  | [], _, _, ch, es => (ch, es)
  | (id, p) :: rest, i, rem, ch, es =>
    if rem = 0 then (ch, es)
    else if p.isEmpty then packWalk t rest (i + 1) rem ch (es ++ [⟨id, i, 3, 0⟩])
    else
      match ch.find? (fun c => c.hash == fnvHash p) with
      | some c => packWalk t rest (i + 1) rem ch (es ++ [⟨id, i, 2, c.pos⟩])
      | none =>
        let k := ch.length
        let o := (runOf t 3).length + ((labelRuns t).getD k []).length + (runOf t 4).length
        let mark := (runOf t 5).length
        if p.length + o ≤ rem then
          packWalk t rest (i + 1) (rem - (p.length + o)) (ch ++ [⟨i, fnvHash p, p, false, k⟩]) (es ++ [⟨id, i, 0, i⟩])
        else if o + mark + t.minCut ≤ rem then
          packWalk t rest (i + 1) 0 (ch ++ [⟨i, fnvHash p, p.take (rem - o - mark), true, k⟩]) (es ++ [⟨id, i, 1, i⟩])
        else (ch, es)

/-- The tokens of one chosen passage's block, and the index of its first kept token within it (R270). -/
def passageBlock (t : Template) (c : Chosen) : List Nat × Nat :=
  let lab := (labelRuns t).getD c.place []
  (runOf t 3 ++ lab ++ c.kept ++ (if c.cut then runOf t 5 else []) ++ runOf t 4, (runOf t 3).length + lab.length)

/-- The blocks in prompt order, with the position at which each begins within the passages. -/
def placeBlocks (t : Template) : List Chosen → Nat → List (Chosen × Nat)
  | [], _ => []
  | c :: cs, at_ => (c, at_) :: placeBlocks t cs (at_ + (passageBlock t c).1.length)

/-- The prompt elements before the PASSAGES element, and those after it, as tokens. -/
def elemTokens (query : List Nat) (es : List TElem) : List Nat :=
  es.flatMap (fun e => if e.kind = 0 then e.run else if e.kind = 1 then query else [])

/-- How many passages of the list the walk reads: those with an entry, and the one that it stops at because it neither fits nor can be cut
(R256, R268). -/
def packReads (t : Template) (packTokens nq : Nat) (results : List (Nat × List Nat)) : Nat :=
  let l := literalTokens t
  let room := packTokens - l - min (if hasQuery t then nq else 0) (packTokens - l)
  let w := packWalk t results 0 room [] []
  let took := (w.1.map (fun c => (runOf t 3).length + ((labelRuns t).getD c.place []).length + (runOf t 4).length + c.kept.length)).sum
  if w.1.any Chosen.cut || decide (room ≤ took) then w.2.length else min results.length (w.2.length + 1)

/-- What PACK gives: the prompt, the span map, and whether the query was cut. -/
structure Packed where
  prompt : List Nat
  spans : List Span
  truncated : Bool
  deriving DecidableEq, Repr

/-- PACK of a result list under a template (R268 to R272). -/
def packPrompt (t : Template) (packTokens : Nat) (query : List Nat) (results : List (Nat × List Nat)) : Packed :=
  let l := literalTokens t
  let q := if hasQuery t then query.length else 0
  let qk := min q (packTokens - l)
  let w := packWalk t results 0 (packTokens - l - qk) [] []
  let inOrder := if t.order = 1 then w.1.reverse else w.1
  let before := elemTokens (query.take qk) (t.elems.takeWhile (fun e => e.kind != 2))
  let after := elemTokens (query.take qk) ((t.elems.dropWhile (fun e => e.kind != 2)).drop 1)
  let blocks := placeBlocks t inOrder before.length
  let spans := w.2.map fun e =>
    if e.state = 3 then ⟨e.id, e.pos, 0xFFFFFFFF, 0, 3, 0xFF⟩
    else if e.state = 2 then ⟨e.id, e.pos, e.match_, 0, 2, 0xFF⟩
    else
      match blocks.find? (fun b => b.1.pos == e.pos) with
      | some b => ⟨e.id, e.pos, b.2 + (passageBlock t b.1).2, b.1.kept.length, e.state,
                   if b.1.place < t.labelCount then b.1.place else 0xFF⟩
      | none => ⟨e.id, e.pos, 0xFFFFFFFF, 0, 3, 0xFF⟩
  { prompt := before ++ inOrder.flatMap (fun c => (passageBlock t c).1) ++ after
    spans := spans, truncated := decide (qk < q) }

/-- The bytes of a span-map entry (R272). -/
def spanBytes (x : Span) : List Byte :=
  leBytes 6 x.id ++ leBytes 2 x.pos ++ leBytes 4 x.start ++ leBytes 2 x.tokens ++ leBytes 1 x.state ++ leBytes 1 x.label

end Sys2Proof.Machine
end

