-- ==== Sys2Proof/Machine/Generation.lean ====
section
/-!
DEFINITION. Generation (10_generation.md): the parameter block (R275), sampling (R279), copy drafts (R282), the verification of
drafts (R285), the end conditions (R286, R290) and the chunks of the token stream (R292).
-/

namespace Sys2Proof.Machine

/-! ### The parameter block (R275) -/

/-- The block's fields. -/
def parseGen (b : List Byte) : GenParams :=
  let f := leAt b 15 1
  { maxNew := leAt b 0 4, ttftUs := leAt b 4 4, tbtUs := leAt b 8 4, draftModel := leAt b 12 2, grammarSlot := leAt b 14 1
    grammarEn := hasBit f 0, renderSpecial := hasBit f 1, ignoreEos := hasBit f 2, sample := hasBit f 3, cont := hasBit f 4
    srcModel := hasBit (leAt b 16 1) 0, srcCopy := hasBit (leAt b 16 1) 1
    draftLimit := leAt b 17 1, spanMatch := leAt b 18 1, stopCount := leAt b 19 1, topK := leAt b 20 2, streamVector := leAt b 22 2
    temperature := BitVec.ofNat 32 (leAt b 24 4), topP := BitVec.ofNat 32 (leAt b 28 4), seed := leAt b 32 8
    streamAddr := leAt b 40 8, hdrAddr := leAt b 48 8, streamLen := leAt b 56 4, convId := leAt b 64 8
    stops := (List.range 8).map (fun i => leAt b (72 + 4 * i) 4) }

/-- The number is a power of two. -/
def isPow2 (n : Nat) : Bool := n != 0 && n == 2 ^ Nat.log2 n

/-- The byte offset of the first field of the block that is out of range (R275, R276); tokens is the vocabulary's TOKEN_COUNT, if one is
bound, and vectors the count of MSI-X vectors. -/
def genFieldBad (b : List Byte) (tokens : Option Nat) : Option Nat :=
  let g := parseGen b
  let stopBad := (List.range (min g.stopCount 8)).find? (fun i => tokens.elim false (fun n => decide (n ≤ g.stops.getD i 0)))
  firstFail
    [(0, decide (1 ≤ g.maxNew) && decide (g.maxNew ≤ 131072)),
     (15, decide (leAt b 15 1 < 32) && !(g.ignoreEos && g.grammarEn) && !(g.cont && g.convId == 0)),
     (16, decide (leAt b 16 1 < 4)),
     (17, decide (g.draftLimit ≤ 8)),
     (18, decide (2 ≤ g.spanMatch) && decide (g.spanMatch ≤ 8)),
     (19, decide (g.stopCount ≤ 8)),
     (20, decide (1 ≤ g.topK) && decide (g.topK ≤ 256)),
     (22, decide (g.streamVector ≤ 31) || g.streamVector == 0xFFFF),
     (24, !g.sample || (finite32 g.temperature && flt 0 g.temperature)),
     (28, !g.sample || (flt 0 g.topP && fle g.topP 0x3F800000#32)),
     (40, g.streamAddr % 4096 == 0),
     (48, g.hdrAddr % 64 == 0),
     (56, isPow2 g.streamLen && decide (8192 ≤ g.streamLen) && decide (g.streamLen ≤ 16777216)),
     (60, zeroBytes b 60 4),
     (72 + 4 * stopBad.getD 0, stopBad.isNone),
     (104, zeroBytes b 104 24)]

/-! ### Sampling (R279, R280) -/

/-- The candidates: the first min(top_k, allowed finite tokens) pairs, best first. -/
def sampleCands (logits : List Word) (allowed : List Bool) (k : Nat) : List SelPair :=
  firstK 2 k (((logits.zip allowed).zipIdx).filterMap (fun q => if q.1.2 && finite32 q.1.1 then some ⟨q.2, q.1.1⟩ else none))

/-- The uniform number u of token g: 24 bits of the mixed seed, exact in FP32. -/
def sampleUniform (seed g : Nat) : Word :=
  let m := 2 ^ 64
  let z := (seed + (g + 1) * 0x9E3779B97F4A7C15) % m
  let z := ((z ^^^ (z >>> 30)) * 0xBF58476D1CE4E5B9) % m
  let z := ((z ^^^ (z >>> 27)) * 0x94D049BB133111EB) % m
  let z := z ^^^ (z >>> 31)
  (toFp32 (.fin false (z >>> 40) (-24))).1

/-- The running sums cum[j] of the weights of the candidates. -/
def sampleSums (best c : Word) : List SelPair → Word → List Word
  | [], _ => []
  | p :: ps, s =>
    let w := (fexp2 (fmul (fsub p.score best).1 c).1).1
    let s2 := (fadd s w).1
    s2 :: sampleSums best c ps s2

/-- The token chosen from one row of logits, or none when no allowed token has a finite logit. -/
def sampleToken (gp : GenParams) (logits : List Word) (allowed : List Bool) (g : Nat) : Option Nat :=
  let cands := sampleCands logits allowed (if gp.sample then gp.topK else 1)
  match cands with
  | [] => none
  | best :: _ =>
    if !gp.sample then some best.index
    else
      let c := (fdiv 0x3FB8AA3B#32 gp.temperature).1
      let cum := sampleSums best.score c cands 0
      let lim := (fmul gp.topP (cum.getLastD 0)).1
      let np := 1 + (indexWhere (fun x => fle lim x) cum).getD (cum.length - 1)
      let r := (fmul (sampleUniform gp.seed g) (cum.getD (np - 1) 0)).1
      let j := (indexWhere (fun x => flt r x) (cum.take np)).getD (np - 1)
      some (cands.getD j best).index

/-- The greedy choice of a draft run (R283). -/
def greedyToken (logits : List Word) (allowed : List Bool) : Option Nat :=
  ((sampleCands logits allowed 1).head?).map SelPair.index

/-! ### Copy drafts (R282) -/

/-- The key occurs at position j of a list. -/
def occursAt (key l : List Nat) (j : Nat) : Bool := decide (j + key.length ≤ l.length) && (l.drop j).take key.length == key

/-- The drafts a copy yields: spans are (start, tokens) of the prompt; at most k tokens. -/
def copyDrafts (prompt : List Nat) (spans : List (Nat × Nat)) (ctx : List Nat) (n k : Nat) : List Nat :=
  let key := ctx.drop (ctx.length - n)
  if ctx.length < n then []
  else
    let hits := (List.range prompt.length).filterMap fun j =>
      (spans.find? (fun s => decide (s.1 ≤ j) && decide (j + n < s.1 + s.2) && occursAt key prompt j)).map (fun s => (j, s))
    match hits with
    | [] => []
    | (j, s) :: _ => ((prompt.drop (j + n)).take (s.1 + s.2 - (j + n))).take k

/-! ### Verification (R285, R286) -/

/-- Rows sampled in order while they confirm the drafts: the drafts accepted, and the token after them, if its row gave one. -/
def verifyRows (gp : GenParams) (g : Nat) : List (List Word × List Bool) → List Nat → Nat × Option Nat
  | [], _ => (0, none)
  | (row, mask) :: rows, ds =>
    match sampleToken gp row mask g, ds with
    | none, _ => (0, none)
    | some t, d :: ds2 =>
      if t = d then
        let r := verifyRows gp (g + 1) rows ds2
        (r.1 + 1, r.2)
      else (0, some t)
    | some t, [] => (0, some t)

/-- END_REASON of one committed token, 0 for none of 1 to 4: count is the number of generated tokens with it, len the length of the
committed context with it (R290). -/
def endReason (gp : GenParams) (eos t count len : Nat) : Nat :=
  if t = eos ∧ gp.ignoreEos = false then 1
  else if (gp.stops.take gp.stopCount).contains t then 2
  else if count = gp.maxNew then 3
  else if 131072 ≤ len then 4
  else 0

/-- The tokens committed, up to and including the first that ends generation, with its END_REASON (R286). -/
def commitTokens (gp : GenParams) (eos : Nat) : List Nat → Nat → Nat → List Nat × Nat
  | [], _, _ => ([], 0)
  | t :: ts, count, len =>
    let e := endReason gp eos t (count + 1) (len + 1)
    if e ≠ 0 then ([t], e)
    else
      let r := commitTokens gp eos ts (count + 1) (len + 1)
      (t :: r.1, r.2)

/-! ### Chunks (R292, R293) -/

/-- What a chunk carries. -/
structure Chunk where
  seq : Nat
  tag : Nat
  index : Nat
  tokens : List Nat
  text : List Byte
  first : Bool
  last : Bool
  partialUtf8 : Bool
  endReason : Nat
  time : Nat
  proposed : Nat
  accepted : Nat
  conv : Nat
  deriving DecidableEq, Repr

/-- The 64-byte header of a chunk of a length, PAD when it fills the end of the ring. -/
def chunkHeader (c : Chunk) (len : Nat) (pad : Bool) : List Byte :=
  leBytes 4 len ++ leBytes 4 c.seq ++ leBytes 4 c.tag ++ leBytes 4 c.index ++ leBytes 2 c.tokens.length ++ leBytes 2 c.text.length
    ++ leBytes 1 (bit c.first + 2 * bit c.last + 4 * bit c.partialUtf8 + 8 * bit pad) ++ leBytes 1 c.endReason ++ leBytes 2 0
    ++ leBytes 8 c.time ++ leBytes 4 c.proposed ++ leBytes 4 c.accepted ++ leBytes 8 c.conv ++ leBytes 16 0

/-- The bytes of a chunk, zero-filled to a multiple of 64. -/
def chunkBytes (c : Chunk) : List Byte :=
  let body := c.tokens.flatMap (leBytes 4) ++ c.text
  let len := alignUp (64 + body.length) 64
  chunkHeader c len false ++ body ++ List.replicate (len - 64 - body.length) 0

/-- A PAD chunk of n bytes. -/
def padChunk (c : Chunk) (n : Nat) : List Byte :=
  chunkHeader { c with tokens := [], text := [], first := false, last := false, partialUtf8 := false, endReason := 0,
                       proposed := 0, accepted := 0 } n true ++ List.replicate (n - 64) 0

end Sys2Proof.Machine
end

