-- ==== Sys2Proof/Machine/Log.lean ====
section
/-!
DEFINITION. What every family writes besides its own state: MSI-X (R381), trace records (R515), mailbox messages of the
firmware (R407 to R409), the hardware event queue (R514), health (R473), and the error record with its log, history and
interrupt (R461 to R464).
-/

namespace Sys2Proof.Machine

/-! ### Interrupts -/

/-- An MSI-X vector of a function is raised: its message is written to host memory, or its pending bit is set while it is
masked (R381). -/
def raiseMsix (f v : Nat) (s : State) : State :=
  let e := msixOf s f v
  if e.masked then setMsix s f v { e with pending := true } else hostWrite s e.addr (leBytes 4 e.data)

/-! ### Trace (R515) -/

/-- The trace buffer holds 2^23 records. -/
def traceSize : Nat := 8388608

/-- A trace record goes to the buffer when tracing is on and its KIND is selected; POWER_MARK (4) always is. With WRAP 0 a full
buffer drops it. -/
def traceWrite (r : TraceRec) (s : State) : State :=
  let t := s.trace
  if bitOf t.ctl 0 && (r.kind == 4 || bitOf t.ctl (8 + r.kind)) then
    let full := (slookup t.buf t.writeIndex).isSome
    if full && !bitOf t.ctl 1 then
      { s with trace := { t with dropped := saturate 0xFFFFFFFF (t.dropped + 1) } }
    else
      { s with trace := { t with
          buf := sset t.buf t.writeIndex r
          writeIndex := (t.writeIndex + 1) % traceSize
          wrapped := t.wrapped || full } }
  else s

/-- A trace record with no operation of its own. -/
def traceOf (s : State) (kind tag a b : Nat) : TraceRec :=
  { time := now s, kind := kind, spec := false, discontinuity := false, exit := false, unit := 0xFFFF, tag := tag, a := a, b := b }

/-- A completed command leaves a COMMAND record: opcode and status. -/
def traceCommand (tag opcode status : Nat) (s : State) : State :=
  traceWrite (traceOf s 3 tag (opcode + 256 * status) 0) s

/-! ### Health (R472, R473) -/

/-- The crew is of a die the part has (R3). -/
def crewPresent (s : State) (c : Nat) : Bool := decide (c < Config.crews s.part)

/-- Active cores of a crew, 0 for one that is retired or absent (R472). -/
def activeCores (s : State) (c : Nat) : Nat :=
  let x := crewOf s c
  let n := popCount x.active 9
  if !crewPresent s c || x.sramFailed || n < 6 then 0 else n

/-- STATE of FLT_CREW: 0 FULL, 1 SHORT, 2 RETIRED, 3 ABSENT. -/
def crewState (s : State) (c : Nat) : Nat :=
  if !crewPresent s c then 3 else if activeCores s c = 0 then 2 else if activeCores s c < 8 then 1 else 0

/-- The numbers of the part's crews. -/
def crewList (s : State) : List Nat := List.range (Config.crews s.part)

/-- HEALTH is computed (R473). -/
def computeHealth (s : State) : State :=
  let up := (crewList s).filter (fun c => activeCores s c != 0)
  let level :=
    if up.length < Config.crewsRequired s.part || s.boot.stackFailed then 2
    else if up.length < Config.crews s.part then 1 else 0
  { s with boot := { s.boot with
      level := level
      short := up.any (fun c => activeCores s c < 8)
      serviceable := up.length
      activeCores := (up.map (activeCores s)).sum } }

/-- The HEALTH register. -/
def healthReg (s : State) : Nat :=
  s.boot.level + 4 * bit s.boot.short + 256 * s.boot.serviceable + 65536 * s.boot.activeCores

/-- The BOOT_STATUS register. -/
def bootReg (s : State) : Nat :=
  s.boot.stage + 256 * bit s.boot.ready + 32768 * bit s.boot.activating + 65536 * s.boot.error + 2 ^ 32 * s.boot.detail

/-- The REV register; STEPPING is 0xA1. -/
def revReg (s : State) : Nat :=
  0xA1 + 256 * s.boot.fwMajor + 65536 * s.boot.fwMinor + 2 ^ 24 * s.boot.fwPatch + 2 ^ 32 * s.boot.activeSlot

/-- The package has power and its clocks run (R483, R487). -/
def clocksRun (s : State) : Bool := s.pins.pwrok && !s.clk.stopped

/-- The serving firmware runs: it has started (stage HUB) and no activation holds it (R410, R512). -/
def fwRunning (s : State) : Bool :=
  decide (4 ≤ s.boot.stage) && s.boot.act != .held && !s.clk.stopped && s.boot.error == 0

/-! ### Mailbox messages of the firmware (R407 to R409) -/

/-- Host-side doorbell bits are set; an unmasked one raises VECTOR when IRQ_EN is 1 (R409). -/
def setHostBits (f bits : Nat) (s : State) : State :=
  let c := channelOf s f
  let s1 := setChannel s f { c with hostBits := c.hostBits ||| bits }
  if bitOf c.cfg 40 && (bits &&& (0xFFFFFFFF - fieldOf c.cfg 31 0)) != 0 then raiseMsix f (fieldOf c.cfg 36 32) s1 else s1

/-- The D2H direction has a free slot (R407). -/
def d2hRoom (c : Channel) : Bool := decide ((c.d2hProd + 32 - c.d2hCons) % 32 < 16)

/-- One message goes into the next D2H slot and is posted. -/
def d2hPut (f : Nat) (msg : List Byte) (s : State) : State :=
  let c := channelOf s f
  let s1 := setChannel s f { c with
    d2h := writeBytes c.d2h (64 * (c.d2hProd % 16)) (slice msg 0 64)
    d2hProd := (c.d2hProd + 1) % 32 }
  setHostBits f (if leAt msg 0 2 = 3 then 3 else 1) s1

/-- A message of the firmware: posted when its direction has space and the firmware runs, else held in order (R407). -/
def d2hPost (f : Nat) (msg : List Byte) (s : State) : State :=
  let c := channelOf s f
  if d2hRoom c && c.held.isEmpty && fwRunning s then d2hPut f msg s
  else setChannel s f { c with held := c.held ++ [msg] }

/-- A mailbox message: header and payload, zero beyond LEN. -/
def mailMessage (type response len cookie : Nat) (payload : List Byte) : List Byte :=
  leBytes 2 type ++ leBytes 1 response ++ leBytes 1 len ++ leBytes 4 cookie ++ slice (payload.take len) 0 56

/-! ### The hardware event queue (R514) -/

/-- An event is latched. While the firmware runs it takes the event at once; while activation holds it, the event waits. The
answer says whether the event was lost. -/
def latchEvent (e : Event) (s : State) : Bool × State :=
  let n := s.boot.evq.length
  if 4096 ≤ n then (true, { s with boot := { s.boot with losses := saturate 0xFFFFFFFF (s.boot.losses + 1) } })
  else
    let hw := max s.boot.highWater (n + 1)
    (false, { s with boot := { s.boot with highWater := hw, evq := if s.boot.act = .held then s.boot.evq ++ [e] else s.boot.evq } })

/-! ### Error records (R461 to R464) -/

/-- The class and the restart of an event code (R462): restart 0 none, 1 the shell, 2 every shell. Codes whose action depends on
the event take it from the caller. -/
def codeClass (code : Nat) : Nat :=
  if code ≤ 3 then 0
  else if code = 0x10 ∨ code = 0x12 ∨ code = 0x25 then 1
  else if code = 0x21 ∨ code = 0x32 ∨ code = 0x60 ∨ code = 0x61 then 3
  else 2

/-- The 64 bytes of an error record (R461). -/
def recordBytes (r : ErrRec) : List Byte :=
  leBytes 8 r.time ++ leBytes 4 r.seq ++ leBytes 1 r.cls ++ leBytes 1 r.action ++ leBytes 2 r.code ++ leBytes 1 r.unitKind
    ++ leBytes 1 0 ++ leBytes 2 r.unit
    ++ leBytes 1 (bit r.committed + 2 * bit r.isRepeat + 4 * bit r.suspect + 8 * bit r.nv + 16 * r.verdict) ++ leBytes 1 0
    ++ leBytes 2 r.fn ++ leBytes 4 r.tag ++ leBytes 2 r.ring ++ leBytes 2 r.pkg ++ leBytes 4 r.shell ++ leBytes 4 r.count
    ++ leBytes 8 (r.addr % 2 ^ 60 + 2 ^ 60 * r.space) ++ leBytes 8 r.detail0 ++ leBytes 6 r.detail1 ++ leBytes 1 1 ++ leBytes 1 0

/-- The crew a unit of the record belongs to, if it is a core or a crew. -/
def crewOfUnit (kind unit : Nat) : Option Nat := if kind = 3 then some (unit / 9) else if kind = 2 then some unit else none

/-- Attributed events of a unit that the history holds (R469, R477). -/
def historyOf (s : State) (u : UnitRef) : List HistRec := s.flt.history.filter (fun h => h.attributed == some u)

/-- Those that count toward HIST_LIMIT: within HIST_DAYS, or all of them when the calendar was not valid at one (R470). -/
def windowEvents (s : State) (u : UnitRef) : Nat :=
  let hs := historyOf s u
  let days := fieldOf s.flt.ctl 23 16
  if hs.any (fun h => !h.calValid) || !s.cal.valid then hs.length
  else (hs.filter (fun h => decide (s.cal.sec ≤ h.calSec + 86400 * days))).length

/-- The failure signature of a record (R477), taken with the history as it will stand with this record in it. -/
def signatureOf (s : State) (r : ErrRec) (who : Option UnitRef) : Signature :=
  let hs := match who with | some u => historyOf s u | none => []
  let first := (hs.getLast?.map HistRec.calSec).getD s.cal.sec
  { crewActive := match crewOfUnit r.unitKind r.unit with | some c => (crewOf s c).active | none => 0
    eventsTotal := hs.length + bit who.isSome
    eventsWindow := (match who with | some u => windowEvents s u | none => 0) + bit who.isSome
    firstCal := if s.cal.valid || hs.any HistRec.calValid then first else 0
    lastCal := s.cal.sec
    serviceable := s.boot.serviceable
    health := s.boot.level }

/-- A record joins the history; when it is full the oldest record without VERDICT PERMANENT makes room (R464). -/
def pushHistory (h : HistRec) (l : List HistRec) : List HistRec :=
  if l.length < 4096 then h :: l
  else
    match indexWhere (fun x : HistRec => x.record.verdict != 3) l.reverse with
    | some i => h :: (l.reverse.eraseIdx i).reverse
    | none => l

/-- The package number in a record: 0 while ALONE (R461). -/
def pkgNow (s : State) : Nat := if s.net.st = .alone then 0 else s.net.pkgNum

/-- The firmware posts LOG_NOTIFY and ERROR_RECORD for a record that names a function (R408, R463). Its COOKIE is no request's,
and is a free value (log entry 17). -/
def logNotify (f time : Nat) (s : State) : State :=
  let fr := takeFree s
  d2hPost f (mailMessage 3 0 8 (Config.freeValue fr.1).toNat (leBytes 8 time)) fr.2

/-- A record is written: it takes the next SEQ, enters the live log and, by R464, the history, and raises what R409, R408, R515,
R524 and FLT_CTL give it. who is the unit an attributed event is charged to (R469). -/
def logRecord (r0 : ErrRec) (who : Option UnitRef) (s : State) : State :=
  let nv := (decide (2 ≤ r0.cls) && decide (1 ≤ r0.unitKind) && decide (r0.unitKind ≤ 7)) || decide (2 ≤ r0.verdict)
  let r := { r0 with
    time := now s, seq := (s.flt.newest + 1) % 2 ^ 32, nv := nv, pkg := pkgNow s, shell := s.net.shellId }
  let hist : HistRec :=
    { record := r, sig := signatureOf s r who, calSec := s.cal.sec, calValid := s.cal.valid, attributed := who
      startup := s.flt.startups }
  let s1 := { s with flt := { s.flt with
    newest := r.seq
    live := (r :: s.flt.live).take 4096
    history := if nv then pushHistory hist s.flt.history else s.flt.history } }
  let s2 := if bitOf s.flt.ctl 0 && decide (2 ≤ r.cls) then raiseMsix 0 (fieldOf s.flt.ctl 5 1) s1 else s1
  let s3 := { s2 with pins := { s2.pins with gpio3 := s2.pins.gpio3 || decide (2 ≤ r.cls), ibis := s2.pins.ibis + 1 } }
  let s4 := traceWrite (traceOf s3 5 r.tag r.seq 0) s3
  if r.fn < 64 then logNotify r.fn r.time s4 else s4

/-- A software-class record about a function's command (R323, R376, R256). -/
def softRecord (code fn tag ring d0 d1 : Nat) (s : State) : State :=
  logRecord { cls := 0, action := 0, code := code, unitKind := 8, unit := fn, fn := fn, tag := tag, ring := ring, detail0 := d0, detail1 := d1 }
    none s

/-- A counter of FLT_CNT. -/
def countCeNear (n : Nat) (s : State) : State := { s with flt := { s.flt with ceNear := saturate 0xFFFFFF (s.flt.ceNear + n) } }
def countUe (n : Nat) (s : State) : State := { s with flt := { s.flt with ue := saturate 0xFF (s.flt.ue + n) } }

end Sys2Proof.Machine
end

