-- ==== Sys2Proof/Machine/Access.lean ====
section
/-!
DEFINITION. A register write as fields see it (R14 to R17): which bits the access covers, the value the register would take,
and the conditions under which a host access reaches a register at all (R379, R504, R518).
-/

namespace Sys2Proof.Machine

/-- The register's bits that an access would leave: the accessed half replaced (R17). -/
def merged (old : Reg) (w : RegAccess) : Reg :=
  match w.half with
  | .full => w.data
  | .low => BitVec.ofNat 64 (w.data.toNat % 2 ^ 32 + (old.toNat / 2 ^ 32) * 2 ^ 32)
  | .high => BitVec.ofNat 64 (old.toNat % 2 ^ 32 + (w.data.toNat % 2 ^ 32) * 2 ^ 32)

/-- The data of an access at its bits; 0 elsewhere. -/
def written (w : RegAccess) : Reg := merged 0 w

/-- The access includes bits hi to lo. -/
def covers (w : RegAccess) (hi lo : Nat) : Bool :=
  match w.half with
  | .full => true
  | .low => decide (hi < 32)
  | .high => decide (32 ≤ lo)

/-- A 1 is written to bit n: what triggers a WO action, clears an RW1C bit or sets an RW1S bit (R14). -/
def wrote (w : RegAccess) (n : Nat) : Bool := bitOf (written w) n

/-- An RW field after a write: the value it would take where that value is in range, else the value it held (R15). A field
that straddles the halves is judged by its merged value. -/
def rwField (old : Reg) (w : RegAccess) (hi lo : Nat) (ok : Nat → Bool) (r : Reg) : Reg :=
  let v := fieldOf (merged old w) hi lo
  if ok v then withField r hi lo v else r

/-- Every value of the field is a value. -/
def anyVal (_ : Nat) : Bool := true

/-- The field holds lo to hi. -/
def within (lo hi v : Nat) : Bool := decide (lo ≤ v) && decide (v ≤ hi)

/-- A host access can reach window 0 and its registers: the host port is trained, the clocks run, and the package is not in
recovery mode, where every register but the identity block ignores writes (R502, R504). -/
def hostUp (s : State) : Bool := s.port.trained && !s.clk.stopped && !s.boot.recovery

/-- A write to a register of the physical function's window takes effect (R379, R518). -/
def pfWrite (w : RegAccess) (s : State) : Bool := hostUp s && w.fn == 0

/-- A function that the device presents: function 0, or an enabled virtual function (R379). -/
def fnPresent (s : State) (f : Nat) : Bool := f == 0 || (s.port.vfEnable && decide (f ≤ s.port.numVfs))

/-- A wake (R403, R455): a device in STANDBY or RETAIN starts its exit; one that is ENTERING finishes first; LAST_WAKE takes the
cause. -/
def wakeDevice (cause : Nat) (s : State) : State :=
  match s.gov.st with
  | .standby => { s with gov := { s.gov with st := .exiting, lastWake := cause, exitFrom := 1, exitSince := now s } }
  | .retain => { s with gov := { s.gov with st := .exiting, lastWake := cause, exitFrom := 2, exitSince := now s } }
  | .entering => { s with gov := { s.gov with wakePending := true, lastWake := cause } }
  | _ => s

end Sys2Proof.Machine
end

