-- ==== Sys2Proof/Machine/Tensor.lean ====
section
/-!
DEFINITION. Tensors as an operation list sees them (R178 to R182, R542, R546): where an element of a descriptor lies, and reads and
writes of elements, rows and MX blocks with their flags. A run's writes go to its own working space and its own view of
KV; weights and parameters never change.
-/

namespace Sys2Proof.Machine

/-- The descriptor numbered n of a model; a number beyond the section stands for a tensor of one WORK element. -/
def descOf (m : Model) (n : Nat) : Desc := m.descs.getD n ⟨2, 0, 1, 0, 0xFFFF, false, 0, [1, 1, 1, 1, 1, 1], [1, 0, 0, 0, 0, 0]⟩

/-- Extent of dimension k. -/
def Desc.e (d : Desc) (k : Nat) : Nat := d.ext.getD k 1

/-- Stride of dimension k. -/
def Desc.s (d : Desc) (k : Nat) : Nat := d.stride.getD k 0

/-- Index k of an index list. -/
def ixAt (ix : List Nat) (k : Nat) : Nat := ix.getD k 0

/-- The element offset of R180. -/
def elemOffset (d : Desc) (ix : List Nat) : Nat :=
  let p0 := alignUp (d.e 0) 64
  let base :=
    if d.tiled then
      (ixAt ix 1 / 64) * 64 * p0 + (ixAt ix 0 / 64) * 4096 + (ixAt ix 1 % 64) * 64 + ixAt ix 0 % 64
    else ixAt ix 0 * d.s 0 + ixAt ix 1 * d.s 1
  base + ixAt ix 2 * d.s 2 + ixAt ix 3 * d.s 3 + ixAt ix 4 * d.s 4 + ixAt ix 5 * d.s 5

/-- An index lies within the extents. -/
def inExtents (d : Desc) (ix : List Nat) : Bool := (List.range 6).all (fun k => decide (ixAt ix k < d.e k))

/-- The distance between two pages in a request's KV view (R546). -/
def kvSpan : Nat := 2 ^ 40

/-- The byte address and bit of an element: for KV, the position selects the page and i1 is taken modulo 64 (R546). -/
def elemPlace (d : Desc) (ix : List Nat) : Nat × Nat :=
  let bits := elemBits d.fmt
  if d.cls = 3 then
    let off := elemOffset d (ix.set 1 (ixAt ix 1 % 64))
    (ixAt ix 1 / 64 * kvSpan + d.dataOff + off * bits / 8, off * bits % 8)
  else
    let off := elemOffset d ix
    (d.dataOff + off * bits / 8, off * bits % 8)

/-- The memory that holds a descriptor's bytes (R182). An OUTPUT tensor is the request's hand-off, which EMIT alone writes and no record
reads: what has been delivered stands in the run's emits. -/
def spaceOf (m : Model) (r : RunCtx) (n : Nat) (d : Desc) : Mem :=
  if d.cls = 2 then r.work
  else if d.cls = 3 then r.kv
  else if d.cls = 4 then sgetD r.inputs n []
  else if d.cls ≤ 1 then m.tensors
  else []

/-- The code of bits at a place. -/
def readCode (mem : Mem) (pl : Nat × Nat) (bits : Nat) : Nat :=
  if bits = 4 then (readByte mem pl.1).toNat / 2 ^ pl.2 % 16 else leNat (readBytes mem pl.1 (bits / 8))

/-- A code written at a place; a 4-bit code leaves the other half of its byte. -/
def writeCode (mem : Mem) (pl : Nat × Nat) (bits code : Nat) : Mem :=
  if bits = 4 then
    let b := (readByte mem pl.1).toNat
    let keep := b - (b / 2 ^ pl.2 % 16) * 2 ^ pl.2
    writeByte mem pl.1 (BitVec.ofNat 8 (keep + code % 16 * 2 ^ pl.2))
  else writeBytes mem pl.1 (leBytes (bits / 8) code)

/-- The code of the element at an index. -/
def elemCode (m : Model) (r : RunCtx) (n : Nat) (ix : List Nat) : Nat :=
  let d := descOf m n
  readCode (spaceOf m r n d) (elemPlace d ix) (elemBits d.fmt)

/-- The block scale of an element of an MX tensor (R123, R181); 127 where the tensor has no scale. -/
def scaleAt (m : Model) (r : RunCtx) (n : Nat) (ix : List Nat) : Nat :=
  let d := descOf m n
  if isMx d.fmt && d.scale != 0xFFFF then elemCode m r d.scale (ix.set 0 (ixAt ix 0 / 32)) else 127

/-- The exact value of an element, under its block scale where it has one. -/
def elemValue (m : Model) (r : RunCtx) (n : Nat) (ix : List Nat) : Num :=
  let d := descOf m n
  let v := elemNum d.fmt (elemCode m r n ix)
  if isMx d.fmt then scaleNum (scaleAt m r n ix) v else v

/-- An element as an FP32 word with the flags of the conversion (R159, R542). -/
def elemFp32 (m : Model) (r : RunCtx) (n : Nat) (ix : List Nat) : Word × Nat := toFp32 (elemValue m r n ix)

/-- An element as an INT32 word (R159): integers and token ids saturate, other formats convert as CVTFI. -/
def elemInt32 (m : Model) (r : RunCtx) (n : Nat) (ix : List Nat) : Word × Nat :=
  let d := descOf m n
  if isIntFormat d.fmt || d.fmt = 12 then satWord (elemInt d.fmt (elemCode m r n ix))
  else
    let x := numToInt 32 (elemValue m r n ix)
    (BitVec.ofInt 32 x.1, x.2)

/-- The run with a code written at an element of a WORK or KV tensor; other classes are not written by records (R182). -/
def putCode (m : Model) (r : RunCtx) (n : Nat) (ix : List Nat) (code : Nat) : RunCtx :=
  let d := descOf m n
  if d.cls = 2 then { r with work := writeCode r.work (elemPlace d ix) (elemBits d.fmt) code }
  else if d.cls = 3 then { r with kv := writeCode r.kv (elemPlace d ix) (elemBits d.fmt) code }
  else r

/-- The indices of one block: the elements 32b to 32b + 31 along dimension 0 within the extent. -/
def blockIndices (d : Desc) (ix : List Nat) : List (List Nat) :=
  let b := ixAt ix 0 / 32
  ((List.range 32).map (fun j => 32 * b + j)).filter (fun i => decide (i < d.e 0)) |>.map (fun i => ix.set 0 i)

/-! ### Speculative rows (R134, R543, R544)

A row is 0 where a value carries no SPEC, 1 to 8 for the row of a decode step it depends on, and 9 for a value that is speculative as a whole,
which no commit point accepts (log entry 136). -/

/-- Flags raised for a row. -/
def raiseRow (r : RunCtx) (fault : Bool) (row f : Nat) : RunCtx :=
  if fault then { r with faultFlags := raiseAt r.faultFlags row f } else { r with flags := raiseAt r.flags row f }

/-- A tensor carries the token rows of the step along dimension 1: its extent there is k + 1 or more (R544). -/
def carriesRows (m : Model) (r : RunCtx) (n : Nat) : Bool := decide (r.k < (descOf m n).e 1)

/-- The row that index i of dimension 1 stands for in a tensor that carries rows: rows 1 to k carry SPEC. -/
def rowSpec (r : RunCtx) (i : Nat) : Nat := if 1 ≤ i ∧ i ≤ r.k then i else 0

/-- The row of the last write to a place of working space. -/
def writtenRow (r : RunCtx) (addr bytes : Nat) : Nat :=
  ((r.written.reverse.find? (fun w => decide (w.addr < addr + bytes) && decide (addr < w.addr + max 1 (w.bits / 8)))).map WorkWrite.row).getD 0

/-- The row that the element at an index depends on: by its row, by what was written there, or for KV by its position (R543, R544). Tensors that
requests share carry none. -/
def elemRow (m : Model) (r : RunCtx) (n : Nat) (ix : List Nat) : Nat :=
  let d := descOf m n
  if r.k = 0 ∨ d.cls ≤ 1 then 0
  else if d.cls = 3 then rowSpec r (ixAt ix 1 - r.pos)
  else
    let byRow := if carriesRows m r n then rowSpec r (ixAt ix 1) else 0
    if d.cls = 2 then max byRow (writtenRow r (elemPlace d ix).1 (max 1 (elemBits d.fmt / 8))) else byRow

/-- A code written for a row: a run over drafts keeps what it writes to working space apart until its commit point (R66, R163). -/
def putTagged (m : Model) (row : Nat) (r : RunCtx) (x : Nat × List Nat × Nat) : RunCtx :=
  let d := descOf m x.1
  let y := putCode m r x.1 x.2.1 x.2.2
  if r.k = 0 ∨ d.cls ≠ 2 then y
  else
    let at_ := elemPlace d x.2.1
    { y with written := r.written ++ [⟨row, at_.1, at_.2, elemBits d.fmt, x.2.2⟩] }

/-- A source value of an output stage: an FP32 word, or an exact integer. -/
inductive OutVal where
  | real (w : Word)
  | int (v : Int)
  deriving DecidableEq, Repr

/-- An output value converted to a format that is not MX (R124, R159). -/
def convertOut (fmt : Nat) : OutVal → Nat × Nat
  | .real w => convertNum fmt (numOf w)
  | .int v => convertInt fmt v

/-- An output value brought to FP32 (R542). -/
def outFp32 : OutVal → Word × Nat
  | .real w => (w, 0)
  | .int v => toFp32 (numOfInt v)

/-- The codes of one column range of dimension 0, from index 0 on at the other indices of ix, as descriptor, index and code, with the
flags of their conversion; an MX tensor takes codes and scales block by block (R542). -/
def rowCodes (m : Model) (n : Nat) (ix : List Nat) (vs : List OutVal) : List (Nat × List Nat × Nat) × Nat :=
  let d := descOf m n
  let vs := vs.take (d.e 0)
  if isMx d.fmt then
    let ws := vs.map outFp32
    let blocks := (List.range (ceilDiv ws.length 32)).map (fun b =>
      let q := quantiseBlock d.fmt (((ws.drop (32 * b)).take 32).map (fun w => numOf w.1))
      let codes := (q.2.1.zipIdx).map (fun c => (n, ix.set 0 (32 * b + c.2), c.1))
      (codes ++ (if d.scale = 0xFFFF then [] else [(d.scale, ix.set 0 b, q.1)]), flagsOf q.2.2))
    (blocks.flatMap Prod.fst, flagOr (flagsOf (blocks.map Prod.snd)) (flagsOf (ws.map Prod.snd)))
  else
    let cs := vs.map (convertOut d.fmt)
    ((cs.zipIdx).map (fun p => (n, ix.set 0 p.2, p.1.1)), flagsOf (cs.map Prod.snd))

/-- Codes written at their places for a row. -/
def putCodes (m : Model) (row : Nat) (r : RunCtx) (ws : List (Nat × List Nat × Nat)) : RunCtx := ws.foldl (putTagged m row) r

/-- A block of FP32 values written to an MX tensor (R125, R542): codes and scale, with the flags of each element. -/
def putBlock (m : Model) (row : Nat) (r : RunCtx) (n : Nat) (ix : List Nat) (xs : List Word) : RunCtx × List Nat :=
  let d := descOf m n
  let q := quantiseBlock d.fmt (xs.map numOf)
  let codes := ((blockIndices d ix).zip q.2.1).map (fun p => (n, p.1, p.2))
  (putCodes m row r (codes ++ (if d.scale = 0xFFFF then [] else [(d.scale, ix.set 0 (ixAt ix 0 / 32), q.1)])), q.2.2)

/-- The values of one column range of dimension 0, written from index 0 on at the other indices of ix. The flags are joined and
raised for the row. -/
def putRow (m : Model) (r : RunCtx) (fault : Bool) (n : Nat) (ix : List Nat) (row : Nat) (vs : List OutVal) : RunCtx :=
  let w := rowCodes m n ix vs
  raiseRow (putCodes m row r w.1) fault row w.2

/-- Every index of a tensor but for dimension 0, dimension 1 fastest. -/
def outerIndices (d : Desc) : List (List Nat) :=
  (List.range (d.e 5)).flatMap fun i5 => (List.range (d.e 4)).flatMap fun i4 => (List.range (d.e 3)).flatMap fun i3 =>
    (List.range (d.e 2)).flatMap fun i2 => (List.range (d.e 1)).map fun i1 => [0, i1, i2, i3, i4, i5]

/-- Every index of a tensor in element order, dimension 0 fastest. -/
def allIndices (d : Desc) : List (List Nat) :=
  (outerIndices d).flatMap fun ix => (List.range (d.e 0)).map fun i0 => ix.set 0 i0

/-- A tensor holds a speculative value. -/
def specTensor (m : Model) (r : RunCtx) (n : Nat) : Bool := r.k != 0 && (allIndices (descOf m n)).any (fun ix => elemRow m r n ix != 0)

/-- The row that index i of a source's dimension 1 stands for (R544): its own where the tensor carries the token rows; a tensor that does not is
speculative as a whole once it holds a speculative value. -/
def tokenRow (m : Model) (r : RunCtx) (n i : Nat) : Nat :=
  if r.k = 0 then 0
  else if carriesRows m r n then (if (descOf m n).cls = 3 then rowSpec r (i - r.pos) else if (descOf m n).cls ≤ 1 then 0 else rowSpec r i)
  else if specTensor m r n then 9
  else 0

/-- The row that index i of a result's dimension 1 stands for, made from the tensors given (R544): its own where the result carries the token
rows and no source is speculative as a whole; a result that does not carry them is speculative as a whole where a source holds a speculative
value. -/
def resultRow (m : Model) (r : RunCtx) (from_ : List Nat) (out i : Nat) : Nat :=
  if r.k = 0 then 0
  else if carriesRows m r out then
    (if from_.any (fun n => !carriesRows m r n && specTensor m r n) then 9 else rowSpec r i)
  else if from_.any (specTensor m r) then 9
  else 0

/-- The codes of a whole tensor in element order. -/
def tensorCodes (m : Model) (r : RunCtx) (n : Nat) : List Nat := (allIndices (descOf m n)).map (elemCode m r n)

/-- The bytes of an input part laid out for a descriptor (R545): each element in element order, as codes of the format. -/
def inputMem (d : Desc) (bs : List Byte) : Mem :=
  let bits := elemBits d.fmt
  ((allIndices d).zipIdx).foldl (fun mem p =>
    let code := if bits = 4 then (leAt bs (p.2 / 2) 1) / 2 ^ (4 * (p.2 % 2)) % 16 else leAt bs (p.2 * (bits / 8)) (bits / 8)
    writeCode mem (elemPlace d p.1) bits code) []

/-- Bytes that the whole extent of a descriptor takes, in element order. -/
def inputBytes (d : Desc) : Nat := ceilDiv ((d.ext.foldl (· * ·) 1) * elemBits d.fmt) 8

end Sys2Proof.Machine
end

