-- ==== Sys2Proof/Machine/Operands.lean ====
section
/-!
DEFINITION. Operand forms: the second source, predicate, iteration and type fields of a lane instruction (R150 to R153), the segment
tags of R161 and R543, and the fields of a submission entry (R389, R391, R392).
-/

namespace Sys2Proof.Machine

/-! ### Lane instruction words -/

/-- The opcode of an OPC value, if it is not reserved (R153). -/
def laneOpOf : Nat → Option LaneOp
  | 0x00 => some .nop | 0x01 => some .add | 0x02 => some .sub | 0x03 => some .mul | 0x04 => some .fma | 0x05 => some .min
  | 0x06 => some .max | 0x07 => some .abs | 0x08 => some .neg | 0x09 => some .div | 0x0A => some .cmpeq | 0x0B => some .cmplt
  | 0x0C => some .cmple | 0x0D => some .sel | 0x0E => some .mov | 0x10 => some .and | 0x11 => some .or | 0x12 => some .xor
  | 0x13 => some .shl | 0x14 => some .shra | 0x15 => some .shrl | 0x18 => some .cvtfi | 0x19 => some .cvtif
  | 0x20 => some .rcp | 0x21 => some .sqrt | 0x22 => some .rsqrt | 0x23 => some .exp2 | 0x24 => some .log2
  | 0x25 => some .sinpi | 0x26 => some .cospi | 0x27 => some .tanh | 0x30 => some .rsum | 0x31 => some .rmax
  | 0x32 => some .rmin | 0x33 => some .bcast | 0x34 => some .iota | 0x38 => some .sget | 0x40 => some .ld | 0x41 => some .st
  | 0x42 => some .popq | 0x48 => some .selpush | 0x50 => some .signal | 0x51 => some .wait
  | _ => none

/-- The fields of an instruction word other than OPC (R150). -/
def laneFieldsOf (w : Reg) : LaneFields :=
  { vd := w.extractLsb' 52 4, va := w.extractLsb' 48 4, vb := w.extractLsb' 44 4, vc := w.extractLsb' 40 4
    pred := w.extractLsb' 37 3, pneg := bitOf w 36, bsrc := w.extractLsb' 34 2, ty := w.extractLsb' 32 2
    imm := w.extractLsb' 0 32 }

/-- OPC of an instruction word. -/
def laneOpc (w : Reg) : Nat := fieldOf w 63 56

/-- WHEN: 0 where the immediate takes its bits (R150). -/
def laneWhen (f : LaneFields) : Nat := if f.bsrc = 2#2 then 0 else f.imm.toNat / 2 ^ 28

/-- ARG, bits 27:0. -/
def laneArg (f : LaneFields) : Nat := f.imm.toNat % 2 ^ 28

/-- TYPE is allowed for the opcode by R153. -/
def typeAllowed (op : LaneOp) (ty : Nat) : Bool :=
  match op with
  | .div | .cvtif | .rcp | .sqrt | .rsqrt | .exp2 | .log2 | .sinpi | .cospi | .tanh | .selpush => ty == 0
  | .and | .or | .xor | .shl | .shra | .shrl | .cvtfi | .iota => ty == 1
  | _ => decide (ty ≤ 1)

/-- No PRED, BSRC, TYPE or WHEN value is reserved, TYPE is allowed for the opcode, and the fields that R150 and R153 give as
0 are 0 (R174). -/
def laneOk (op : LaneOp) (f : LaneFields) : Bool :=
  decide (f.pred.toNat ≤ 4) && decide (f.bsrc.toNat ≤ 2) && typeAllowed op f.ty.toNat && decide (laneWhen f ≤ 12)
    && (match op with
        | .cmpeq | .cmplt | .cmple => decide (f.vd.toNat < 4)
        | .rsum | .rmax | .rmin | .bcast | .sget => decide (laneArg f < 256)
        | _ => true)

/-! ### Engine state -/

/-- A vector engine at work: its core, the run of the operation list whose tensors its ports address, the model, and the sync
counts it signals and waits on (R171). -/
structure Eng where
  core : Core
  run : RunCtx
  model : Model
  sync : Sparse Nat

/-- Index ik of the iteration; 0 where no launch is in progress. -/
def loopIndex (c : Core) (k : Nat) : Nat :=
  match c.launch with
  | some l => l.idx.getD k 0
  | none => 0

/-- Extent of loop index k. -/
def loopExtent (c : Core) (k : Nat) : Nat :=
  match c.launch with
  | some l => l.ext.getD k 1
  | none => 1

/-- Elements of the chunk that lie within E0 (R149). -/
def liveCount (c : Core) : Nat :=
  match c.launch with
  | some l => min 256 (l.e0 - 256 * l.idx.getD 0 0)
  | none => 256

/-- The tag of the launch: its request, without SPEC (R160). -/
def launchTag (c : Core) : RowTag :=
  match c.launch with
  | some l => ⟨some l.slot, false, 0⟩
  | none => ⟨none, false, 0⟩

/-- WHEN lets the instruction execute in this iteration (R151). -/
def whenHolds (c : Core) (w : Nat) : Bool :=
  if w = 0 then true
  else if w ≤ 6 then (List.range w).all (fun k => loopIndex c k == 0)
  else (List.range (w - 6)).all (fun k => loopIndex c k + 1 == loopExtent c k)

/-- A vector register (R146). -/
def vecReg (c : Core) (n : Nat) : List Word := sgetD c.v n (List.replicate 256 0)

/-- A scalar register. -/
def scalarReg (c : Core) (n : Nat) : Word := sgetD c.sregs n 0

/-- A predicate register; all ones at launch start. -/
def predReg (c : Core) (n : Nat) : List Bool := sgetD c.p n (List.replicate 256 true)

/-- The second source (R150). -/
def sourceB (c : Core) (f : LaneFields) : List Word :=
  if f.bsrc = 0#2 then vecReg c f.vb.toNat
  else if f.bsrc = 1#2 then List.replicate 256 (scalarReg c f.vb.toNat)
  else List.replicate 256 f.imm

/-- The elements the predicate enables (R152). -/
def enabled (c : Core) (f : LaneFields) : List Bool :=
  if f.pred = 0#3 then List.replicate 256 true
  else (predReg c (f.pred.toNat - 1)).map (fun b => b != f.pneg)

/-- The tag stored for a segment of a register. -/
def storedTag (c : Core) (r g : Nat) : RowTag := sgetD c.tags (4 * r + g) ⟨none, false, 0⟩

/-- The tags of a register's four segments. In a launch without POPQ every segment carries the launch's request (R164). -/
def segTags (c : Core) (r : Nat) : List RowTag :=
  (List.range 4).map fun g =>
    match c.launch with
    | some l => if l.isQ then storedTag c r g else { storedTag c r g with slot := some l.slot }
    | none => storedTag c r g

/-- The tag that takes the request of the first and SPEC when any read value carries it; sc is the SPEC row of a scalar
register read, 0 for none (R161, R543). -/
def mixTags (first : RowTag) (others : List RowTag) (sc : Nat) : RowTag :=
  let all := first :: others
  { slot := first.slot
    spec := all.any RowTag.spec || decide (0 < sc)
    row := (all.filter RowTag.spec).foldl (fun acc t => max acc t.row) sc }

/-- The SPEC row of the scalar register that the second source reads. -/
def scalarSpec (c : Core) (f : LaneFields) : Nat := if f.bsrc = 1#2 then sgetD c.sspec f.vb.toNat 0 else 0

/-! ### Submission entries (R389) -/

/-- n bytes of an entry from byte o, as a number. -/
def entryAt (e : Entry) (o n : Nat) : Nat := (e.toNat >>> (8 * o)) % 2 ^ (8 * n)

/-- The 64 bytes of an entry. -/
def entryBytes (e : Entry) : List Byte := leBytes 64 e.toNat

end Sys2Proof.Machine
end

