-- ==== Sys2Proof/Machine/Ring.lean ====
section
/-!
DEFINITION. Ring pairs (14_host_rings.md): completions and their interrupts, command errors and the freeze, when an entry is
fetched and the checks at fetch, and the path every submission entry takes from its ring to a completion or a slot.
-/

namespace Sys2Proof.Machine

/-! ### Fields of RING_CFG -/

def RingPair.modTime (r : RingPair) : Nat := fieldOf r.cfg 49 42
def RingPair.cqSel (r : RingPair) : Nat := fieldOf r.cfg 41 32
def RingPair.cqLog2 (r : RingPair) : Nat := fieldOf r.cfg 31 27
def RingPair.sqLog2 (r : RingPair) : Nat := fieldOf r.cfg 26 22
def RingPair.sweepClass (r : RingPair) : Nat := fieldOf r.cfg 21 20
def RingPair.irqEn (r : RingPair) : Bool := bitOf r.cfg 19
def RingPair.vector (r : RingPair) : Nat := fieldOf r.cfg 18 14
def RingPair.modCount (r : RingPair) : Nat := max 1 (fieldOf r.cfg 13 6)
def RingPair.sqSize (r : RingPair) : Nat := 2 ^ r.sqLog2
def RingPair.cqSize (r : RingPair) : Nat := 2 ^ r.cqLog2

/-- The completion ring that a submission ring posts to. -/
def cqOf (s : State) (q : RingRef) : RingRef := ⟨q.fn, (ringOf s q).cqSel⟩

/-- Slots of a completion ring neither posted and unread nor reserved (R388). -/
def cqFree (r : RingPair) : Nat :=
  r.cqSize - 1 - (r.cqTail + r.cqSize - r.consumer) % r.cqSize - r.reserved

/-- Local ring pairs of a function that have been touched. -/
def ringsOf (s : State) (f : Nat) : List (Nat × RingPair) :=
  (s.port.rings.filter (fun x => x.1 / 1024 == f)).map (fun x => (x.1 % 1024, x.2))

/-- The ring pair exists: its number is below the function's COUNT (R380). -/
def ringExists (s : State) (q : RingRef) : Bool := decide (q.fn < 64) && decide (q.ring < allocOf s q.fn)

/-! ### Completions (R390, R402) -/

/-- A completion entry's fields. -/
structure Cpl where
  tag : Nat
  opcode : Nat
  status : Nat
  aged : Bool := false
  arith : Bool := false
  froze : Bool := false
  result : List Byte := []
  deriving DecidableEq, Repr

/-- The 32 bytes of a completion entry (R390). -/
def cplBytes (c : Cpl) (sqHead sqId : Nat) (phase : Bool) : List Byte :=
  leBytes 4 c.tag ++ leBytes 2 sqHead ++ leBytes 2 sqId ++ leBytes 1 c.status
    ++ leBytes 1 (bit phase + 2 * bit c.aged + 4 * bit c.arith + 8 * bit c.froze) ++ leBytes 1 c.opcode ++ leBytes 1 0
    ++ slice c.result 0 20

/-- An entry posted into completion ring cq counts toward its next interrupt, or raises it at once (R402). -/
def moderate (cq : RingRef) (urgent : Bool) (s : State) : State :=
  let r := ringOf s cq
  if !r.irqEn then s
  else
    let n := r.modCount
    let k := (ringOf s cq).modCountNow + 1
    if urgent || decide (n ≤ k) then
      raiseMsix cq.fn r.vector (setRing s cq { r with modCountNow := 0, modSince := none })
    else setRing s cq { r with modCountNow := k, modSince := some (r.modSince.getD (now s)) }

/-- A completion of submission ring q is posted into the ring its CQ_SEL names. reserved is 1 for an entry whose fetch reserved
the slot, 0 for a doorbell error. A pair that was DISABLED since still posts what was held for it (R387); what a reset ends is posted nowhere (R404),
and never comes here. -/
def postCompletion (q : RingRef) (c : Cpl) (reserved : Nat) (s : State) : State :=
  let r := ringOf s q
  let cq := cqOf s q
  let p := ringOf s cq
  let s1 := hostWrite s (p.cqBase.toNat + 32 * p.cqTail) (cplBytes c r.sqHead q.ring p.phase)
  let t := (p.cqTail + 1) % p.cqSize
  let s2 := setRing s1 cq { p with
    cqTail := t, phase := if t = 0 then !p.phase else p.phase, reserved := p.reserved - reserved }
  traceCommand c.tag c.opcode c.status (moderate cq (c.froze || c.aged) s2)

/-! ### Command errors (R398, R399) -/

/-- A command error: its status, the failed check of the command's chapter, the field and block of R399, RESULT bytes where the
command has them, and the software-class record it leaves (R323, R376). -/
structure CmdErr where
  status : Nat
  check : Nat := 0
  off : Nat := 0xFFFFFFFF
  block : Nat := 0
  result : List Byte := []
  log : Option (Nat × Nat × Nat) := none
  deriving DecidableEq, Repr

/-- RING_ERR and the error log page are written, and the ring freezes (R398 steps 1 and 2). -/
def freezeRing (q : RingRef) (tag index opcode dbSeq : Nat) (x : CmdErr) (s : State) : State :=
  let r := ringOf s q
  setRing s q { r with
    st := if r.st = .active then .frozen else r.st
    errTag := tag, errIndex := index, errOpcode := opcode, errStatus := x.status
    errCount := r.errCount + 1
    page := ⟨tag, index, opcode, x.status, now s, x.check, x.off, x.block, dbSeq⟩ }

/-- A command error: the ring freezes and the failed command's completion is posted with FROZE (R398), and with AGED and ARITH_FLAG where the request
had them (R390, R396). -/
def failCommand (q : RingRef) (aged arith : Bool) (tag index opcode : Nat) (x : CmdErr) (s : State) : State :=
  let s1 := match x.log with
    | some d => softRecord d.1 q.fn tag q.ring d.2.1 d.2.2 s
    | none => s
  postCompletion q { tag := tag, opcode := opcode, status := x.status, aged := aged, arith := arith, froze := true, result := x.result } 1
    (freezeRing q tag index opcode 0 x s1)

/-- A command error at the fetch of an entry. -/
def commandError (q : RingRef) (tag index opcode : Nat) (x : CmdErr) (s : State) : State := failCommand q false false tag index opcode x s

/-- The 64 bytes of a ring's error log page (R399). -/
def pageBytes (r : RingPair) : List Byte :=
  let p := r.page
  leBytes 4 p.tag ++ leBytes 2 p.index ++ leBytes 1 p.opcode ++ leBytes 1 p.status ++ leBytes 8 p.time ++ leBytes 4 p.check
    ++ leBytes 4 p.fieldOff ++ leBytes 1 p.block ++ leBytes 3 0 ++ leBytes 4 p.dbSeq ++ leBytes 8 r.errCount ++ leBytes 24 0

/-- A doorbell error (R387): the ring freezes, and its error completion is posted or held. -/
def doorbellError (q : RingRef) (seq : Nat) (s : State) : State :=
  let s1 := freezeRing q 0xFFFFFFFF (ringOf s q).sqHead 0 seq { status := 0x14 } s
  let cq := cqOf s1 q
  let waiting := (ringsOf s1 q.fn).any (fun x => x.2.heldErrors != 0 && x.2.cqSel == cq.ring)
  if waiting || cqFree (ringOf s1 cq) == 0 then
    setRing s1 q { ringOf s1 q with heldErrors := (ringOf s1 q).heldErrors + 1 }
  else postCompletion q { tag := 0xFFFFFFFF, opcode := 0, status := 0x14, froze := true } 0 s1

/-! ### Fetching (R388, R394) -/

/-- Admin opcodes of R391 and I/O opcodes of R392. -/
def isAdminOp (op : Nat) : Bool := decide (0x02 ≤ op) && decide (op ≤ 0x0F)
def isIoOp (op : Nat) : Bool := (decide (0x20 ≤ op) && decide (op ≤ 0x29)) || (decide (0x30 ≤ op) && decide (op ≤ 0x33)) || op == 0x38 || op == 0x3F

/-- Header fields of an entry (R389). -/
def entOp (e : Entry) : Nat := entryAt e 0 1
def entPrio (e : Entry) : Nat := entryAt e 1 1 % 4
def entTag (e : Entry) : Nat := entryAt e 4 4

/-- ABORT and FENCE take no slot (R300). -/
def needsSlot (op : Nat) : Bool := op != 0x08 && op != 0x3F

/-- The package may fetch the entry now: while a power state is being entered, and outside ACTIVE, it fetches only from ring 0 of
the physical function, and outside ACTIVE only an ENTER_POWER_STATE, which may wake it (R403, R455). -/
def fetchPower (q : RingRef) (op : Nat) (s : State) : Bool :=
  let first := q.fn == 0 && q.ring == 0
  if s.gov.draining then first else s.gov.st == .active || (first && op == 0x09)

/-- The device fetches the next entry of the ring, which has opcode op (R387, R388, R393, R300, R384). -/
def canFetch (q : RingRef) (op : Nat) (s : State) : Bool :=
  let r := ringOf s q
  let cq := cqOf s q
  hostUp s && s.boot.ready && ringExists s q && r.st == .active && !r.reread && r.producer != r.sqHead
    && cqFree (ringOf s cq) != 0
    && !(ringsOf s q.fn).any (fun x => x.2.heldErrors != 0 && x.2.cqSel == cq.ring)
    && !s.srv.holds.any (fun h => h.fn == q.fn && h.ring == q.ring && h.opcode == 0x3F)
    && fetchPower q op s
    && (!needsSlot op || decide (s.srv.slots.length < 65536))

/-- A tag is held by a command in flight from the ring (R394). -/
def tagInFlight (s : State) (q : RingRef) (tag : Nat) : Bool :=
  s.srv.slots.any (fun x => x.2.fn == q.fn && x.2.ring == q.ring && x.2.tag == tag && !x.2.silent)
    || s.srv.holds.any (fun h => h.fn == q.fn && h.ring == q.ring && h.tag == tag)

/-- Opcodes and features that a virtual function may not submit (R382). -/
def pfOnly (e : Entry) : Bool :=
  let op := entOp e
  op == 0x09 || op == 0x0C || op == 0x0D || op == 0x0F
    || (op == 0x0B && [0x10, 0x21, 0x22, 0x23].contains (entryAt e 8 1))

/-- Checks 1 to 3 of R394, and the read of the entry itself. -/
def headerError (q : RingRef) (e : Entry) (s : State) : Option CmdErr :=
  let op := entOp e
  let r := ringOf s q
  if !isAdminOp op && !isIoOp op then some { status := 0x10, off := 0 }
  else if (q.ring == 0) != isAdminOp op then some { status := 0x11, off := 0 }
  else if entryAt e 2 1 ≠ q.fn ∨ (q.fn ≠ 0 ∧ pfOnly e = true) then some { status := 0x12, off := 2 }
  else if entTag e = 0xFFFFFFFF ∨ tagInFlight s q (entTag e) = true then some { status := 0x13, off := 4 }
  else if (firstCovered (s.mem.hostFail ++ s.mem.hostBad) (r.sqBase.toNat + 64 * r.sqHead) (r.sqBase.toNat + 64 * r.sqHead + 64)).isSome then
    some { status := 0x15 }
  else none

/-- What a command that passed its checks does at its fetch: it completes at once, it takes a slot with its work, or it waits
without one (FENCE, ABORT). -/
inductive Taken where
  | done (status : Nat) (result : List Byte) (s : State)
  | slot (w : Work) (s : State)
  | hold (reply target : Nat) (s : State)

/-- The lowest slot number that is free. -/
def leastFree {α : Type} : Sparse α → Nat → Nat
  | [], n => n
  | (k, _) :: m, n => if k = n then leastFree m (n + 1) else n

/-- What follows a command's own checks. -/
def settleTaken (q : RingRef) (e : Entry) (index seq : Nat) (t : Except CmdErr Taken) (s : State) : State :=
  match t with
  | .error x => commandError q (entTag e) index (entOp e) x s
  | .ok (.done st res u) => postCompletion q { tag := entTag e, opcode := entOp e, status := st, result := res } 1 u
  | .ok (.slot w u) =>
    setSlot u (leastFree u.srv.slots 0)
      { fn := q.fn, ring := q.ring, tag := entTag e, opcode := entOp e, prio := entPrio e, entry := e, fetchSeq := seq
        tFetch := now s, st := .queued, work := w, sqIndex := index }
  | .ok (.hold reply target u) =>
    { u with srv := { u.srv with
        holds := u.srv.holds ++ [⟨q.fn, q.ring, entTag e, entOp e, seq, reply, target⟩] } }

/-- Commands that a member of a shell other than its lead takes (R437): on its I/O rings inserts, deletes, row writes and reads and FENCE;
on ring 0 all but loading and unloading images. -/
def memberTakes (q : RingRef) (op : Nat) : Bool :=
  if q.ring = 0 then op != 0x02 && op != 0x03 else [0x30, 0x31, 0x32, 0x33, 0x3F].contains op

/-- Once the checks of R394 have passed, a command that a member other than the lead does not take fails (R437). -/
def shellGate (q : RingRef) (e : Entry) (s : State) (t : Except CmdErr Taken) : Except CmdErr Taken :=
  let shut := s.net.myMember != 0 && (s.net.shell == .formed || s.net.shell == .restarting || s.net.shell == .ending)
    && !memberTakes q (entOp e)
  match t with
  | .error x => if shut && x.status != 0x15 && x.status != 0x19 then .error { status := 0x1F } else .error x
  | .ok u => if shut then .error { status := 0x1F } else .ok u

/-- An entry is fetched: SQ_HEAD passes it, its completion slot is reserved, it takes the next place of the fetch order, and it
is checked (R388, R394). -/
def takeEntry (body : RingRef → Entry → State → Except CmdErr Taken) (q : RingRef) (e : Entry) (s : State) : State :=
  let r := ringOf s q
  let s1 := setRing s q { r with sqHead := (r.sqHead + 1) % r.sqSize }
  let cq := cqOf s1 q
  let s2 := setRing s1 cq { ringOf s1 cq with reserved := (ringOf s1 cq).reserved + 1 }
  let s3 := { s2 with srv := { s2.srv with fetchSeq := s2.srv.fetchSeq + 1 } }
  match headerError q e s with
  | some x => commandError q (entTag e) r.sqHead (entOp e) x s3
  | none => settleTaken q e r.sqHead s.srv.fetchSeq (shellGate q e s3 (body q e s3)) s3

/-! ### Checks of fields -/

/-- A check: the error unless the condition holds. -/
def must (c : Bool) (x : CmdErr) : Except CmdErr Unit := if c then .ok () else .error x

/-- 0x19 FIELD_OUT_OF_RANGE at a byte offset of a block (R399). -/
def badField (block off : Nat) : CmdErr := { status := 0x19, block := block, off := off }

/-- A host read that the command needs at fetch (R394). -/
def needRead (s : State) (a n : Nat) : Except CmdErr (List Byte) :=
  match hostRead s a n with
  | .ok bs => .ok bs
  | .error _ => .error { status := 0x15 }

/-- The first byte from lo below hi that no used range (offset, length) covers and that is not 0. -/
def strayByte (bs : List Byte) (used : List (Nat × Nat)) (lo hi : Nat) : Option Nat :=
  ((List.range (hi - lo)).map (lo + ·)).find? fun i =>
    bs.getD i 0 != 0 && !used.any (fun u => decide (u.1 ≤ i) && decide (i < u.1 + u.2))

/-- Reserved bytes of a block are 0 (R394 check 5, R45). -/
def reservedZero (block : Nat) (bs : List Byte) (used : List (Nat × Nat)) : Except CmdErr Unit :=
  match strayByte bs used 0 bs.length with
  | some i => .error (badField block i)
  | none => .ok ()

/-- Reserved bits of the header and reserved bytes of the body are 0 (R389, R394). -/
def entryZero (e : Entry) (used : List (Nat × Nat)) : Except CmdErr Unit := do
  must (entryAt e 1 1 < 4) (badField 0 1)
  reservedZero 0 (entryBytes e) ([(0, 3), (4, 4)] ++ used)

end Sys2Proof.Machine
end

