-- ==== Sys2Proof/Machine/Lane.lean ====
section
/-!
DEFINITION. The vector engine and its 43 lane instructions (05_vector_engine.md): what each does to the engine in one iteration, the
loop unit (R148), and a whole launch (R187). A lane row of the command table runs one instruction on a core's engine, in the
launch it holds, if any (log entry 24).
-/

namespace Sys2Proof.Machine

/-! ### Results into registers -/

/-- Flags raised on element e of a segment's tag; none is raised on an element beyond E0 (R149, R162). -/
def raiseElem (c : Core) (e : Nat) (tag : RowTag) (f : Nat) : Core :=
  if f = 0 || decide (liveCount c ≤ e) then c
  else { c with laneFlags := raiseAt c.laneFlags e f, rowFlags := raiseTag c.rowFlags tag f }

/-- Flags of the enabled elements of a result. -/
def raiseAll (c : Core) (tags : List RowTag) (en : List Bool) (res : List (Word × Nat)) : Core :=
  ((res.zip en).zipIdx).foldl (fun c p =>
    if p.1.2 then raiseElem c p.2 (tags.getD (p.2 / 64) ⟨none, false, 0⟩) p.1.1.2 else c) c

/-- The segment tags of a register set, in the segments that on names. -/
def setTags (c : Core) (r : Nat) (on : List Bool) (tags : List RowTag) : Core :=
  { c with tags := (tags.zipIdx).foldl (fun t p => if on.getD p.2 false then sset t (4 * r + p.2) p.1 else t) c.tags }

/-- The segments in which the predicate enables an element; in the others nothing is written (R152, R158). -/
def liveSegments (en : List Bool) : List Bool := (List.range 4).map (fun g => ((en.drop (64 * g)).take 64).any id)

/-- A result written to VD: the enabled elements take it, every other element keeps its value (R152). -/
def writeVec (c : Core) (f : LaneFields) (tags : List RowTag) (res : List (Word × Nat)) : Core :=
  let en := enabled c f
  let old := vecReg c f.vd.toNat
  let c := raiseAll c tags en res
  let v := ((old.zip res).zip en).map (fun p => if p.2 then p.1.2.1 else p.1.1)
  setTags { c with v := sset c.v f.vd.toNat v } f.vd.toNat (liveSegments en) tags

/-- Tags of an arithmetic result of VA and the second source (R161, R543). -/
def binaryTags (c : Core) (f : LaneFields) : List RowTag :=
  let ta := segTags c f.va.toNat
  if f.bsrc = 0#2 then (ta.zip (segTags c f.vb.toNat)).map (fun p => mixTags p.1 [p.2] 0)
  else ta.map (fun t => mixTags t [] (scalarSpec c f))

/-- A result of one source, element by element. -/
def laneUnary (g : Word → Word × Nat) (f : LaneFields) (x : Eng) : Eng :=
  { x with core := writeVec x.core f (segTags x.core f.va.toNat) ((vecReg x.core f.va.toNat).map g) }

/-- A result of two sources, element by element. -/
def laneBinary (g : Word → Word → Word × Nat) (f : LaneFields) (x : Eng) : Eng :=
  { x with core := writeVec x.core f (binaryTags x.core f)
             (List.zipWith g (vecReg x.core f.va.toNat) (sourceB x.core f)) }

/-- The operation of the instruction's TYPE: 0 FP32, 1 INT32. -/
def byType {α : Type} (f : LaneFields) (real int : α) : α := if f.ty = 0#2 then real else int

/-! ### INT32 operations (R155) -/

def iadd (a b : Word) : Word × Nat := satWord (a.toInt + b.toInt)
def isub (a b : Word) : Word × Nat := satWord (a.toInt - b.toInt)
def imul (a b : Word) : Word × Nat := satWord (a.toInt * b.toInt)
def ifma (a b c : Word) : Word × Nat := satWord (a.toInt * b.toInt + c.toInt)
def imin (a b : Word) : Word × Nat := (if a.toInt ≤ b.toInt then a else b, 0)
def imax (a b : Word) : Word × Nat := (if a.toInt ≤ b.toInt then b else a, 0)
def iabs (a : Word) : Word × Nat := satWord a.toInt.natAbs
def ineg (a : Word) : Word × Nat := satWord (-a.toInt)

/-! ### The instructions -/

def laneNop (_ : LaneFields) (x : Eng) : Eng := x
def laneAdd (f : LaneFields) (x : Eng) : Eng := laneBinary (byType f fadd iadd) f x
def laneSub (f : LaneFields) (x : Eng) : Eng := laneBinary (byType f fsub isub) f x
def laneMul (f : LaneFields) (x : Eng) : Eng := laneBinary (byType f fmul imul) f x
def laneMin (f : LaneFields) (x : Eng) : Eng := laneBinary (byType f fmin imin) f x
def laneMax (f : LaneFields) (x : Eng) : Eng := laneBinary (byType f fmax imax) f x
def laneDiv (f : LaneFields) (x : Eng) : Eng := laneBinary fdiv f x
def laneAbs (f : LaneFields) (x : Eng) : Eng := laneUnary (byType f fabs iabs) f x
def laneNeg (f : LaneFields) (x : Eng) : Eng := laneUnary (byType f fneg ineg) f x

/-- FMA: VC is the third source; SPEC also comes from it (R153, R543). -/
def laneFma (f : LaneFields) (x : Eng) : Eng :=
  let c := x.core
  let g := byType f ffma ifma
  let res := List.zipWith (fun p z => g p.1 p.2 z) ((vecReg c f.va.toNat).zip (sourceB c f)) (vecReg c f.vc.toNat)
  let tags := ((binaryTags c f).zip (segTags c f.vc.toNat)).map (fun p => mixTags p.1 [p.2] 0)
  { x with core := writeVec c f tags res }

/-- A compare: enabled elements of the predicate register VD[1:0] take the outcome; compares raise no flag (R156). -/
def laneCompare (g : Word → Word → Bool) (f : LaneFields) (x : Eng) : Eng :=
  let c := x.core
  let r := List.zipWith g (vecReg c f.va.toNat) (sourceB c f)
  let n := f.vd.toNat % 4
  let p := (((predReg c n).zip r).zip (enabled c f)).map (fun q => if q.2 then q.1.2 else q.1.1)
  { x with core := { c with p := sset c.p n p } }

def laneCmpeq (f : LaneFields) (x : Eng) : Eng := laneCompare (byType f feq (fun a b => a == b)) f x
def laneCmplt (f : LaneFields) (x : Eng) : Eng := laneCompare (byType f flt (fun a b => decide (a.toInt < b.toInt))) f x
def laneCmple (f : LaneFields) (x : Eng) : Eng := laneCompare (byType f fle (fun a b => decide (a.toInt ≤ b.toInt))) f x

/-- SEL: P(VC) chooses a or b. -/
def laneSel (f : LaneFields) (x : Eng) : Eng :=
  let c := x.core
  let ab := (vecReg c f.va.toNat).zip (sourceB c f)
  let res := List.zipWith (fun p b => (if b then p.1 else p.2, 0)) ab (predReg c (f.vc.toNat % 4))
  { x with core := writeVec c f (binaryTags c f) res }

/-- MOV: the only source is b; a scalar or an immediate takes the launch's tag. -/
def laneMov (f : LaneFields) (x : Eng) : Eng :=
  let c := x.core
  let tags := if f.bsrc = 0#2 then segTags c f.vb.toNat
              else List.replicate 4 (mixTags (launchTag c) [] (scalarSpec c f))
  { x with core := writeVec c f tags ((sourceB c f).map (fun w => (w, 0))) }

def laneAnd (f : LaneFields) (x : Eng) : Eng := laneBinary (fun a b => (a &&& b, 0)) f x
def laneOr (f : LaneFields) (x : Eng) : Eng := laneBinary (fun a b => (a ||| b, 0)) f x
def laneXor (f : LaneFields) (x : Eng) : Eng := laneBinary (fun a b => (a ^^^ b, 0)) f x
def laneShl (f : LaneFields) (x : Eng) : Eng := laneBinary (fun a b => (a <<< (b.toNat % 32), 0)) f x
def laneShra (f : LaneFields) (x : Eng) : Eng := laneBinary (fun a b => (a.sshiftRight (b.toNat % 32), 0)) f x
def laneShrl (f : LaneFields) (x : Eng) : Eng := laneBinary (fun a b => (a >>> (b.toNat % 32), 0)) f x
def laneCvtfi (f : LaneFields) (x : Eng) : Eng := laneUnary cvtfi f x
def laneCvtif (f : LaneFields) (x : Eng) : Eng := laneUnary cvtif f x
def laneRcp (f : LaneFields) (x : Eng) : Eng := laneUnary frcp f x
def laneSqrt (f : LaneFields) (x : Eng) : Eng := laneUnary fsqrt f x
def laneRsqrt (f : LaneFields) (x : Eng) : Eng := laneUnary frsqrt f x
def laneExp2 (f : LaneFields) (x : Eng) : Eng := laneUnary fexp2 f x
def laneLog2 (f : LaneFields) (x : Eng) : Eng := laneUnary flog2 f x
def laneSinpi (f : LaneFields) (x : Eng) : Eng := laneUnary fsinpi f x
def laneCospi (f : LaneFields) (x : Eng) : Eng := laneUnary fcospi f x
def laneTanh (f : LaneFields) (x : Eng) : Eng := laneUnary ftanh f x

/-- One level of the pairwise tree of R158: element i takes op(e[i], e[i + s]). -/
def treeLevel (g : Word → Word → Word × Nat) (s : Nat) (es : List Word) (fl : Nat) : List Word × Nat :=
  let r := List.zipWith g (es.take s) (es.drop s)
  (r.map Prod.fst, flagOr fl (flagsOf (r.map Prod.snd)))

/-- The tree from 2^n elements down to one (R158). -/
def treeReduce (g : Word → Word → Word × Nat) : Nat → List Word → Nat → Word × Nat
  | 0, es, fl => (es.headD 0, fl)
  | n + 1, es, fl =>
    let r := treeLevel g (2 ^ n) es fl
    treeReduce g n r.1 r.2

/-- A reduction: elements the predicate does not enable enter as the identity; the result goes to the enabled elements of
each segment, or of the register with ARG[0] = 1 (R158). -/
def laneReduce (g : Word → Word → Word × Nat) (ident : Word) (f : LaneFields) (x : Eng) : Eng :=
  let c := x.core
  let src := List.zipWith (fun w b => if b then w else ident) (vecReg c f.va.toNat) (enabled c f)
  let ta := segTags c f.va.toNat
  if laneArg f % 2 = 1 then
    let r := treeReduce g 8 src 0
    let tag := mixTags (ta.headD ⟨none, false, 0⟩) (ta.drop 1) 0
    { x with core := writeVec c f (List.replicate 4 tag) (List.replicate 256 r) }
  else
    let res := (List.range 4).flatMap (fun k => List.replicate 64 (treeReduce g 6 ((src.drop (64 * k)).take 64) 0))
    { x with core := writeVec c f ta res }

def laneRsum (f : LaneFields) (x : Eng) : Eng := laneReduce (byType f fadd iadd) (byType f 0x80000000#32 0#32) f x
def laneRmax (f : LaneFields) (x : Eng) : Eng := laneReduce (byType f fmax imax) (byType f 0xFF800000#32 0x80000000#32) f x
def laneRmin (f : LaneFields) (x : Eng) : Eng := laneReduce (byType f fmin imin) (byType f 0x7F800000#32 0x7FFFFFFF#32) f x

/-- BCAST: every element takes a[ARG[7:0]]. -/
def laneBcast (f : LaneFields) (x : Eng) : Eng :=
  let c := x.core
  let e := laneArg f % 256
  let tag := mixTags ((segTags c f.va.toNat).getD (e / 64) ⟨none, false, 0⟩) [] 0
  { x with core := writeVec c f (List.replicate 4 tag) (List.replicate 256 ((vecReg c f.va.toNat).getD e 0, 0)) }

/-- IOTA: element e takes 256 × i0 + e. -/
def laneIota (f : LaneFields) (x : Eng) : Eng :=
  let c := x.core
  let res := (List.range 256).map (fun e => (BitVec.ofNat 32 (256 * loopIndex c 0 + e), 0))
  { x with core := writeVec c f (List.replicate 4 (launchTag c)) res }

/-- SGET: scalar register VD takes a[ARG[7:0]], with its SPEC (R543). PRED and PNEG do not hold it back: R152 speaks of elements of the
destination, and a scalar register has none (DESIGN CHOICE, log entry 138). -/
def laneSget (f : LaneFields) (x : Eng) : Eng :=
  let c := x.core
  let e := laneArg f % 256
  let t := (segTags c f.va.toNat).getD (e / 64) ⟨none, false, 0⟩
  { x with core := { c with
      sregs := sset c.sregs f.vd.toNat ((vecReg c f.va.toNat).getD e 0)
      sspec := sset c.sspec f.vd.toNat (if t.spec then t.row else 0) } }

/-- Index of element e of the chunk in a port's tensor; none where the tensor has no such element. A dimension of extent 1
stands at index 0 (log entry 25), and the tiles of a later column of 64 follow those before (log entry 26). -/
def portIndex (c : Core) (d : Desc) (e : Nat) : Option (List Nat) :=
  let base := (c.launch.map Launch.base).getD 0
  let raw := (256 * (base + loopIndex c 0) + e) :: (List.range 5).map (fun k => loopIndex c (k + 1))
  let ix := (raw.zipIdx).map (fun p => if d.e p.2 = 1 then 0 else p.1)
  if inExtents d ix then some ix else none

/-- The descriptor of port n (0 to 3 L0 to L3, 4 and 5 W0 and W1) in the launch, if bound. -/
def portDesc (c : Core) (n : Nat) : Option Nat :=
  match c.launch with
  | some l =>
    match l.ports.getD n 0xFFFF with
    | 0xFFFF => none
    | d => some d
  | none => none

/-- The tag that LD gives segment g (R160, R543): the launch's request, with SPEC where an element that it holds is speculative, by its row, its
position or what was stored there. -/
def loadTag (x : Eng) (n g : Nat) : RowTag :=
  let c := x.core
  let row := ((List.range 64).filterMap (fun j =>
    let e := 64 * g + j
    if e < liveCount c then (portIndex c (descOf x.model n) e).map (elemRow x.model x.run n) else none)).foldl max 0
  { launchTag c with spec := decide (0 < row), row := row }

/-- LD (R159): enabled elements take the chunk's elements; elements beyond E0 or beyond the tensor read as +0. -/
def laneLd (f : LaneFields) (x : Eng) : Eng :=
  match portDesc x.core (laneArg f % 4) with
  | none => x
  | some n =>
    let c := x.core
    let d := descOf x.model n
    let rd := if f.ty = 0#2 then elemFp32 x.model x.run n else elemInt32 x.model x.run n
    let res := (List.range 256).map fun e =>
      if e < liveCount c then
        match portIndex c d e with
        | some ix => rd ix
        | none => (0, 0)
      else (0, 0)
    { x with core := writeVec c f ((List.range 4).map (loadTag x n)) res }

/-- A register word as an output value of the register's kind (R159). -/
def outOfWord (f : LaneFields) (w : Word) : OutVal := if f.ty = 0#2 then .real w else .int w.toInt

/-- A register word converted for a tensor that is not MX (R159): an INT32 word becomes FP32 as CVTIF converts it on its way to a floating
format. -/
def storeCode (f : LaneFields) (fmt : Nat) (w : Word) : Nat × Nat :=
  if f.ty ≠ 0#2 ∧ (floatOf fmt).isSome then
    let v := cvtif w
    let r := convertOut fmt (.real v.1)
    (r.1, flagOr v.2 r.2)
  else convertOut fmt (outOfWord f w)

/-- The row that a store to an element takes (R543, R544): that of the segment stored there and that of the place in the tensor. A speculative
value stored where no token row stands, other than by a launch that drains a pass, makes the tensor speculative as a whole. -/
def storeRow (x : Eng) (n : Nat) (ix : List Nat) (t : RowTag) : Nat :=
  if x.run.k = 0 then 0
  else
    let seg := if t.spec then max 1 t.row else 0
    if carriesRows x.model x.run n then max seg (rowSpec x.run (ixAt ix 1))
    else if seg = 0 ∨ (x.core.launch.any Launch.isQ) = true then seg
    else 9

/-- One element stored to a tensor that is not MX. -/
def storeElem (f : LaneFields) (n : Nat) (tags : List RowTag) (x : Eng) (e : Nat) (w : Word) : Eng :=
  let d := descOf x.model n
  if d.e 0 = 1 ∧ e ≠ 0 then x
  else
    match portIndex x.core d e with
    | none => x
    | some ix =>
      let r := storeCode f d.fmt w
      let tag := tags.getD (e / 64) ⟨none, false, 0⟩
      { x with run := putTagged x.model (storeRow x n ix tag) x.run (n, ix, r.1)
               core := raiseElem x.core e tag r.2 }

/-- One 32-element block stored to an MX tensor: written whole when the predicate enables any of its elements (R159). -/
def storeBlock (f : LaneFields) (n : Nat) (tags : List RowTag) (src : List Word) (en : List Bool) (x : Eng) (b : Nat) : Eng :=
  let d := descOf x.model n
  let es := ((List.range 32).map (fun j => 32 * b + j)).filter
    (fun e => decide (e < liveCount x.core) && (portIndex x.core d e).isSome && (d.e 0 != 1 || e == 0))
  match es with
  | [] => x
  | e0 :: _ =>
    if es.any (fun e => en.getD e false) then
      match portIndex x.core d e0 with
      | none => x
      | some ix =>
        let ws := es.map (fun e => outFp32 (outOfWord f (src.getD e 0)))
        let r := putBlock x.model (storeRow x n ix (tags.getD (e0 / 64) ⟨none, false, 0⟩)) x.run n ix (ws.map Prod.fst)
        let fl := List.zipWith flagOr r.2 (ws.map Prod.snd)
        { x with run := r.1
                 core := (es.zip fl).foldl
                   (fun c p => raiseElem c p.1 (tags.getD (p.1 / 64) ⟨none, false, 0⟩) p.2) x.core }
    else x

/-- ST (R159): enabled elements within E0 are converted to the tensor's format and written. -/
def laneSt (f : LaneFields) (x : Eng) : Eng :=
  match portDesc x.core (4 + laneArg f % 2) with
  | none => x
  | some n =>
    let c := x.core
    let src := vecReg c f.va.toNat
    let tags := segTags c f.va.toNat
    let en := enabled c f
    if isMx (descOf x.model n).fmt then (List.range 8).foldl (fun x b => storeBlock f n tags src en x b) x
    else
      ((src.zip en).zipIdx).foldl (fun x p =>
        if p.1.2 && decide (p.2 < liveCount c) then storeElem f n tags x p.2 p.1.1 else x) x

/-- The array starts to write its next output tile when its slot is FREE (R165). -/
def startFilling (c : Core) : Core :=
  if c.outTiles.isEmpty then c
  else
    let q := sgetD c.queue c.fillAt {}
    if q.st = .free then { c with queue := sset c.queue c.fillAt { q with st := .filling } } else c

/-- The array's oldest output tile takes its slot, which becomes READY, and the array starts on the next; a full queue stalls it (R119, R165). -/
def offerTile (c : Core) : Core :=
  match c.outTiles with
  | [] => c
  | t :: ts =>
    let q := sgetD c.queue c.fillAt {}
    if q.st = .free ∨ q.st = .filling then
      startFilling { c with queue := sset c.queue c.fillAt ⟨.ready, 0, some t⟩, fillAt := (c.fillAt + 1) % 16, outTiles := ts }
    else c

/-- Every slot that is free takes a tile. -/
def offerTiles (c : Core) : Core := (List.range 16).foldl (fun c _ => offerTile c) c

/-- The pass whose tiles the POPQ instructions of a core read: the bound pass of its launch, a PASS command where it holds none (R167). -/
def popOwner (c : Core) : Option (Option (Nat × Nat × Nat)) :=
  match c.launch with
  | some l => if l.isQ then some (some (l.slot, l.run, l.bound)) else none
  | none => some none

/-- The oldest slot not fully read, with the number of earlier pops from it, where it is READY or HELD and its tile is one of the pass that the
core reads (R165 to R168). -/
def oldestTile (c : Core) : Option (OutTile × Nat) :=
  let q := sgetD c.queue c.readAt {}
  match q.st, q.tile with
  | .ready, some t => if popOwner c = some t.owner then some (t, q.pops) else none
  | .held, some t => if popOwner c = some t.owner then some (t, q.pops) else none
  | _, _ => none

/-- The queue after one more pop: the first makes the slot HELD and the 16th frees it (R165). -/
def countPop (c : Core) : Core :=
  let q := sgetD c.queue c.readAt {}
  if q.pops + 1 = 16 then { c with queue := sset c.queue c.readAt {}, readAt := (c.readAt + 1) % 16 }
  else { c with queue := sset c.queue c.readAt { q with st := .held, pops := q.pops + 1 } }

/-- A value of a tile as POPQ delivers it (R166). -/
def popValue (t : OutTile) (f : LaneFields) (v : Int) : Word × Nat :=
  if t.isInt then (if f.ty = 0#2 then toFp32 (numOfInt v) else satWord v) else (BitVec.ofInt 32 v, 0)

/-- POPQ: the next four rows, with their row tags (R166). It stalls, and nothing changes, while no tile is READY; to a launch the array offers
its tiles as slots fall free. -/
def lanePopq (f : LaneFields) (x0 : Eng) : Eng :=
  let x := if x0.core.launch.any Launch.isQ then { x0 with core := offerTiles x0.core } else x0
  match oldestTile x.core with
  | none => x0
  | some (t, g) =>
    let rows := (List.range 4).map (fun r => t.rows.getD (4 * g + r) [])
    let res := rows.flatMap (fun r => (List.range 64).map (fun j => popValue t f (r.getD j 0)))
    let tags := (List.range 4).map (fun r => t.tags.getD (4 * g + r) ⟨none, false, 0⟩)
    { x with core := countPop (writeVec x.core f tags res) }

/-- SELPUSH: the pairs that the predicate enables, all 256 of them with PRED 0, with S6 as the upper half of the index (R169, R170, R238). -/
def laneSelpush (f : LaneFields) (x : Eng) : Eng :=
  let c := x.core
  if c.sel.mode = 0 then x
  else
    let hi := (scalarReg c 6).toNat
    let ps := ((vecReg c f.va.toNat).zip (sourceB c f)).zip (enabled c f)
    let live := ps.filter Prod.snd
    let u := live.foldl (fun u p => pushPair u ⟨hi * 2 ^ 32 + p.1.2.toNat, p.1.1⟩) c.sel
    let spec := (binaryTags c f).any RowTag.spec || decide (0 < sgetD c.sspec 6 0)
    { x with core := { c with sel := { u with spec := u.spec || spec } } }

/-- SIGNAL: adds ARG[25:10] to the sync object ARG[9:0], modulo 2^32 (R171). -/
def laneSignal (f : LaneFields) (x : Eng) : Eng :=
  let n := laneArg f % 1024
  { x with sync := sset x.sync n ((sgetD x.sync n 0 + laneArg f / 1024 % 65536) % 2 ^ 32) }

/-- The sync object that a WAIT names has reached its target: the difference, as a signed 32-bit value, is 0 or greater (R171). -/
def waitReached (f : LaneFields) (x : Eng) : Bool :=
  let n := laneArg f % 1024
  let d := BitVec.ofNat 32 (sgetD x.sync n 0) - scalarReg x.core f.vb.toNat
  decide (0 ≤ d.toInt)

/-- WAIT that has completed does nothing more. -/
def laneWait (_ : LaneFields) (x : Eng) : Eng := x

/-- What an opcode does in an iteration in which it executes. -/
def laneEffect : LaneOp → LaneFields → Eng → Eng
  | .nop => laneNop | .add => laneAdd | .sub => laneSub | .mul => laneMul | .fma => laneFma | .min => laneMin
  | .max => laneMax | .abs => laneAbs | .neg => laneNeg | .div => laneDiv | .cmpeq => laneCmpeq | .cmplt => laneCmplt
  | .cmple => laneCmple | .sel => laneSel | .mov => laneMov | .and => laneAnd | .or => laneOr | .xor => laneXor
  | .shl => laneShl | .shra => laneShra | .shrl => laneShrl | .cvtfi => laneCvtfi | .cvtif => laneCvtif | .rcp => laneRcp
  | .sqrt => laneSqrt | .rsqrt => laneRsqrt | .exp2 => laneExp2 | .log2 => laneLog2 | .sinpi => laneSinpi
  | .cospi => laneCospi | .tanh => laneTanh | .rsum => laneRsum | .rmax => laneRmax | .rmin => laneRmin
  | .bcast => laneBcast | .iota => laneIota | .sget => laneSget | .ld => laneLd | .st => laneSt | .popq => lanePopq
  | .selpush => laneSelpush | .signal => laneSignal | .wait => laneWait

/-! ### The loop unit and launches -/

/-- The next iteration's indices, i0 innermost; none after the last (R148). -/
def nextIndex : List Nat → List Nat → Option (List Nat)
  | [], _ => none
  | i :: is, es =>
    if i + 1 < es.headD 1 then some ((i + 1) :: is)
    else (nextIndex is (es.drop 1)).map (fun r => 0 :: r)

/-- The engine before the next instruction: past the program's end the loop unit starts the next iteration. The answer is false when the
launch has ended. -/
def atInstruction (x : Eng) : Bool × Eng :=
  match x.core.launch with
  | none => (false, x)
  | some l =>
    if l.pc < l.prog.length then (true, x)
    else
      match nextIndex l.idx l.ext with
      | some ix => (true, { x with core := { x.core with launch := some { l with idx := ix, pc := 0 } } })
      | none => (false, x)

/-- The engine with its program position moved on by one. -/
def advance (x : Eng) : Eng :=
  match x.core.launch with
  | none => x
  | some l => { x with core := { x.core with launch := some { l with pc := l.pc + 1 } } }

/-- An instruction stalls: a WAIT that has not been reached, or a POPQ with no tile to read (R165, R171). -/
def stalls (op : LaneOp) (f : LaneFields) (x : Eng) : Bool :=
  match op with
  | .wait => !waitReached f x
  | .popq => (oldestTile (offerTiles x.core)).isNone
  | _ => false

/-- One instruction of a launch. The first component says whether the launch goes on: it stops at its end, and where an instruction stalls. -/
def launchStep (x : Eng) : Bool × Eng :=
  match atInstruction x with
  | (false, x) => (false, x)
  | (true, x) =>
    match x.core.launch with
    | none => (false, x)
    | some l =>
      let w := l.prog.getD l.pc 0
      let f := laneFieldsOf w
      match laneOpOf (laneOpc w) with
      | none => (true, advance x)
      | some op =>
        if whenHolds x.core (laneWhen f) then
          if stalls op f x then (false, x) else (true, advance (laneEffect op f x))
        else (true, advance x)

/-- The launch run on for at most n instructions. -/
def launchRun : Nat → Eng → Eng
  | 0, x => x
  | n + 1, x =>
    match launchStep x with
    | (true, y) => launchRun n y
    | (false, y) => y

/-- Instructions a launch executes or suppresses in all. -/
def launchFuel (l : Launch) : Nat := (l.ext.foldl (· * ·) 1) * l.prog.length + 1

/-- Whether the launch has run its last instruction. -/
def launchDone (x : Eng) : Bool :=
  match x.core.launch with
  | none => true
  | some l => decide (l.prog.length ≤ l.pc) && (nextIndex l.idx l.ext).isNone

/-- The end of a launch: the selection result goes to its port (R242), speculative as a whole where a pushed pair was (R244, R544), the row flags
go to the run under the record's policy (R162), and the selection unit and the launch's set-up are empty again (R244). -/
def launchEnd (fault : Bool) (x : Eng) : Eng :=
  match x.core.launch with
  | none => x
  | some l =>
    let run :=
      if x.core.sel.mode = 0 then x.run
      else
        match portDesc x.core (4 + l.selPort) with
        | none => x.run
        | some n =>
          let d := descOf x.model n
          let bs := selResult x.core.sel (d.e 0)
          let words := (List.range (min (bs.length / 4) (d.e 0))).map (fun i => leAt bs (4 * i) 4)
          putCodes x.model (if x.core.sel.spec && x.run.k != 0 then 9 else 0) x.run ((words.zipIdx).map (fun p => (n, [p.2, 0, 0, 0, 0, 0], p.1)))
    let run := x.core.rowFlags.foldl (fun r p =>
      if p.1 / 16 = l.slot then raiseRow r fault (p.1 % 16) p.2 else r) run
    { x with run := run, core := { x.core with launch := none, sel := {}, rowFlags := [] } }

/-- The engine's state at launch start (R146): S0 to S7 from the record, everything else at its start value. -/
def launchStart (c : Core) (l : Launch) (params : List Word) (mode k : Nat) : Core :=
  { c with
    v := [], tags := [], p := [], laneFlags := [], rowFlags := [], sspec := []
    sregs := (params.zipIdx).foldl (fun m q => sset m q.2 q.1) []
    launch := some l
    sel := { mode := mode, k := k, threshold := params.getD 7 0 } }

/-! ### Lane rows of the command table -/

/-- The number names a core of the package (R24). -/
def isCore (s : State) (n : Nat) : Bool := decide (n < 9 * Config.crews s.part)

/-- The run of a unit of a request, if it has one. -/
def unitRun (r : Request) (run : Nat) : Option (UnitCtx × RunCtx) :=
  match r.work with
  | .pipe p =>
    match p.unit with
    | some u => (u.runs[run]?).map (fun c => (u, c))
    | none => none
  | _ => none

/-- A request with the run of its unit replaced. -/
def setUnitRun (r : Request) (run : Nat) (c : RunCtx) : Request :=
  match r.work with
  | .pipe p =>
    match p.unit with
    | some u => { r with work := .pipe { p with unit := some { u with runs := u.runs.set run c } } }
    | none => r
  | _ => r

/-- A model held, by its object number. -/
def modelByOid (s : State) (oid : Nat) : Model := (s.obj.models.find? (fun m => m.oid == oid)).getD {}

/-- The engine of a core: within a launch, the run of the request the launch names and that request's counts; else the crew's
sync objects. -/
def loadEng (s : State) (n : Nat) : Eng :=
  let c := coreOf s n
  match c.launch with
  | some l =>
    let run := ((slotOf s l.slot).bind (fun r => unitRun r l.run)).elim {} (fun p => p.2)
    ⟨c, run, modelByOid s l.model, run.sync⟩
  | none => ⟨c, {}, {}, (crewOf s (n / 9)).syncs⟩

/-- The sync objects that stand for the logical numbers of a run hold their counts, in every crew (R171, R189). -/
def mirrorSyncs (slot run : Nat) (sync : Sparse Nat) (s : State) : State :=
  { s with crews := s.crews.map (fun x => (x.1, { x.2 with
      syncs := x.2.syncMap.foldl (fun m y => if y.2.1 = slot ∧ y.2.2.1 = run then sset m y.1 (sgetD sync y.2.2.2 0) else m) x.2.syncs })) }

/-- The engine put back; a launch whose counts have moved moves the objects that stand for them. -/
def storeEng (s : State) (n : Nat) (x : Eng) : State :=
  let s1 := setCore s n x.core
  match (coreOf s n).launch with
  | some l =>
    match slotOf s l.slot with
    | some r =>
      let s2 := setSlot s1 l.slot (setUnitRun r l.run { x.run with sync := x.sync })
      if x.sync = (loadEng s n).sync then s2 else mirrorSyncs l.slot l.run x.sync s2
    | none => s1
  | none => setCrew s1 (n / 9) { crewOf s (n / 9) with syncs := x.sync }

/-- One lane instruction on a core: suppressed by WHEN it changes nothing (R151). -/
def laneRun (op : LaneOp) (n : Nat) (f : LaneFields) (s : State) : Host.Outcome State Fault Refusal :=
  if isCore s n && laneOk op f then
    let x := loadEng s n
    finish s (if whenHolds x.core (laneWhen f) then storeEng s n (laneEffect op f x) else s)
  else .refused .illFormed

def execNop (n : Nat) (f : LaneFields) (s : State) : Host.Outcome State Fault Refusal := laneRun .nop n f s
def execAdd (n : Nat) (f : LaneFields) (s : State) : Host.Outcome State Fault Refusal := laneRun .add n f s
def execSub (n : Nat) (f : LaneFields) (s : State) : Host.Outcome State Fault Refusal := laneRun .sub n f s
def execMul (n : Nat) (f : LaneFields) (s : State) : Host.Outcome State Fault Refusal := laneRun .mul n f s
def execFma (n : Nat) (f : LaneFields) (s : State) : Host.Outcome State Fault Refusal := laneRun .fma n f s
def execMin (n : Nat) (f : LaneFields) (s : State) : Host.Outcome State Fault Refusal := laneRun .min n f s
def execMax (n : Nat) (f : LaneFields) (s : State) : Host.Outcome State Fault Refusal := laneRun .max n f s
def execAbs (n : Nat) (f : LaneFields) (s : State) : Host.Outcome State Fault Refusal := laneRun .abs n f s
def execNeg (n : Nat) (f : LaneFields) (s : State) : Host.Outcome State Fault Refusal := laneRun .neg n f s
def execDiv (n : Nat) (f : LaneFields) (s : State) : Host.Outcome State Fault Refusal := laneRun .div n f s
def execCmpeq (n : Nat) (f : LaneFields) (s : State) : Host.Outcome State Fault Refusal := laneRun .cmpeq n f s
def execCmplt (n : Nat) (f : LaneFields) (s : State) : Host.Outcome State Fault Refusal := laneRun .cmplt n f s
def execCmple (n : Nat) (f : LaneFields) (s : State) : Host.Outcome State Fault Refusal := laneRun .cmple n f s
def execSel (n : Nat) (f : LaneFields) (s : State) : Host.Outcome State Fault Refusal := laneRun .sel n f s
def execMov (n : Nat) (f : LaneFields) (s : State) : Host.Outcome State Fault Refusal := laneRun .mov n f s
def execAnd (n : Nat) (f : LaneFields) (s : State) : Host.Outcome State Fault Refusal := laneRun .and n f s
def execOr (n : Nat) (f : LaneFields) (s : State) : Host.Outcome State Fault Refusal := laneRun .or n f s
def execXor (n : Nat) (f : LaneFields) (s : State) : Host.Outcome State Fault Refusal := laneRun .xor n f s
def execShl (n : Nat) (f : LaneFields) (s : State) : Host.Outcome State Fault Refusal := laneRun .shl n f s
def execShra (n : Nat) (f : LaneFields) (s : State) : Host.Outcome State Fault Refusal := laneRun .shra n f s
def execShrl (n : Nat) (f : LaneFields) (s : State) : Host.Outcome State Fault Refusal := laneRun .shrl n f s
def execCvtfi (n : Nat) (f : LaneFields) (s : State) : Host.Outcome State Fault Refusal := laneRun .cvtfi n f s
def execCvtif (n : Nat) (f : LaneFields) (s : State) : Host.Outcome State Fault Refusal := laneRun .cvtif n f s
def execRcp (n : Nat) (f : LaneFields) (s : State) : Host.Outcome State Fault Refusal := laneRun .rcp n f s
def execSqrt (n : Nat) (f : LaneFields) (s : State) : Host.Outcome State Fault Refusal := laneRun .sqrt n f s
def execRsqrt (n : Nat) (f : LaneFields) (s : State) : Host.Outcome State Fault Refusal := laneRun .rsqrt n f s
def execExp2 (n : Nat) (f : LaneFields) (s : State) : Host.Outcome State Fault Refusal := laneRun .exp2 n f s
def execLog2 (n : Nat) (f : LaneFields) (s : State) : Host.Outcome State Fault Refusal := laneRun .log2 n f s
def execSinpi (n : Nat) (f : LaneFields) (s : State) : Host.Outcome State Fault Refusal := laneRun .sinpi n f s
def execCospi (n : Nat) (f : LaneFields) (s : State) : Host.Outcome State Fault Refusal := laneRun .cospi n f s
def execTanh (n : Nat) (f : LaneFields) (s : State) : Host.Outcome State Fault Refusal := laneRun .tanh n f s
def execRsum (n : Nat) (f : LaneFields) (s : State) : Host.Outcome State Fault Refusal := laneRun .rsum n f s
def execRmax (n : Nat) (f : LaneFields) (s : State) : Host.Outcome State Fault Refusal := laneRun .rmax n f s
def execRmin (n : Nat) (f : LaneFields) (s : State) : Host.Outcome State Fault Refusal := laneRun .rmin n f s
def execBcast (n : Nat) (f : LaneFields) (s : State) : Host.Outcome State Fault Refusal := laneRun .bcast n f s
def execIota (n : Nat) (f : LaneFields) (s : State) : Host.Outcome State Fault Refusal := laneRun .iota n f s
def execSget (n : Nat) (f : LaneFields) (s : State) : Host.Outcome State Fault Refusal := laneRun .sget n f s
def execSelpush (n : Nat) (f : LaneFields) (s : State) : Host.Outcome State Fault Refusal := laneRun .selpush n f s
def execSignal (n : Nat) (f : LaneFields) (s : State) : Host.Outcome State Fault Refusal := laneRun .signal n f s

/-- LD: a port that the launch does not bind is none that R174 lets a program name. -/
def execLd (n : Nat) (f : LaneFields) (s : State) : Host.Outcome State Fault Refusal :=
  if (portDesc (coreOf s n) (laneArg f % 4)).isSome then laneRun .ld n f s else .refused .portUnbound

/-- ST, as LD. -/
def execSt (n : Nat) (f : LaneFields) (s : State) : Host.Outcome State Fault Refusal :=
  if (portDesc (coreOf s n) (4 + laneArg f % 2)).isSome then laneRun .st n f s else .refused .portUnbound

/-- POPQ: an FP32 tile is popped with TYPE FP32 only (R166). -/
def execPopq (n : Nat) (f : LaneFields) (s : State) : Host.Outcome State Fault Refusal :=
  match oldestTile (coreOf s n) with
  | some (t, _) => if t.isInt || f.ty == 0#2 then laneRun .popq n f s else .refused .illFormed
  | none => laneRun .popq n f s

/-- WAIT: it completes when its target is reached; until then it stalls, and nothing changes (R171). -/
def execWait (n : Nat) (f : LaneFields) (s : State) : Host.Outcome State Fault Refusal := laneRun .wait n f s

/-- The next column of 64 of a VECTOR_Q whose pass has more columns: the launch starts again on its tiles (R190; log entry 26). -/
def nextColumn (x : Eng) : Option Eng :=
  match x.core.launch with
  | none => none
  | some l =>
    if l.isQ && l.left != 0 then
      let l2 := { l with idx := l.idx.map (fun _ => 0), pc := 0, base := l.base + ceilDiv l.e0 256, left := l.left - 1 }
      some { x with core := launchStart x.core l2 l.params x.core.sel.mode x.core.sel.k }
    else none

/-- The launch a core holds goes on to its end or to a stall, over at most n columns; the answer says whether it ended. -/
def launchColumns (fault : Bool) : Nat → Eng → Bool × Eng
  | 0, x => (true, launchEnd fault x)
  | n + 1, x =>
    match x.core.launch with
    | none => (true, x)
    | some l =>
      let y := launchRun (launchFuel l) x
      if launchDone y then
        match nextColumn y with
        | some z =>
          let run := (launchEnd fault y).run
          launchColumns fault n { z with run := run }
        | none => (true, launchEnd fault y)
      else (false, y)

end Sys2Proof.Machine
end

