-- ==== Sys2Proof/Machine/Array.lean ====
section
/-!
DEFINITION. The matrix array (04_matrix_array.md): passes and their accumulation order, output tiles, the array's side of the tile
hand-off queue, and dummy operations.
-/

namespace Sys2Proof.Machine

/-- A list cut into parts of n elements. -/
def chunksOf {α : Type} (n : Nat) (l : List α) : List (List α) :=
  (List.range (ceilDiv l.length n)).map (fun i => (l.drop (n * i)).take n)

/-- The operand pairs of R118, as (streamed, stationary) format codes. -/
def pairSupported (rf sf : Nat) : Bool :=
  match rf with
  | 2 | 3 => sf == 2 || sf == 3 || sf == 6
  | 4 | 5 => sf == 4 || sf == 5 || sf == 6
  | 6 => sf == 4 || sf == 5 || sf == 6
  | 1 => sf == 1 || sf == 2 || sf == 3
  | 7 | 8 => sf == 7 || sf == 8
  | _ => false

/-- The operands of a pair are both of 4 bits: K is 128 (R117). -/
def passK (rf sf : Nat) : Nat := if (rf = 6 ∧ sf = 6) ∨ (rf = 8 ∧ sf = 8) then 128 else 64

/-- A pair accumulates integers (R129). -/
def pairIsInt (rf : Nat) : Bool := rf == 7 || rf == 8

/-- A pair accumulates by blocks (R128). -/
def pairIsMx (rf sf : Nat) : Bool := isMx rf || isMx sf

/-- One accumulator taken through reduction elements in ascending order: the codes of both operands and the scales of their
blocks of 32 (127 for an operand without scales). The accumulator is a 40-bit integer or the bits of an FP32 value. -/
def accumulate (rf sf : Nat) (acc : Int) (flags : Nat) (as ws xas xws : List Nat) : Int × Nat :=
  if pairIsInt rf then accInt acc flags ((as.zip ws).map (fun p => (elemInt rf p.1, elemInt sf p.2)))
  else
    let ps := (as.zip ws).map (fun p => (elemNum rf p.1, elemNum sf p.2))
    let r :=
      if pairIsMx rf sf then accMx (BitVec.ofInt 32 acc) flags (((chunksOf 32 ps).zip (xas.zip xws)).map (fun q => (q.2.1, q.2.2, q.1)))
      else accFloat (BitVec.ofInt 32 acc) flags ps
    (r.1.toNat, r.2)

/-- A product is gated: one operand is zero and the other finite (R140). -/
def gatedProduct (a w : Num) : Bool :=
  match a, w with
  | .fin _ m _, .fin _ n _ => m == 0 || n == 0
  | _, _ => false

/-- Codes of n consecutive elements of a format from a byte address. -/
def codesAt (mem : Mem) (fmt addr first n : Nat) : List Nat :=
  let bits := elemBits fmt
  (List.range n).map (fun i => readCode mem (addr + (first + i) * bits / 8, (first + i) * bits % 8) bits)

/-- The operands of a pass as the array sees them: for each column of the stationary tile its K codes and block scales. -/
def stationaryColumns (rf sf : Nat) (codes scales : List Nat) : List (List Nat × List Nat) :=
  let k := passK rf sf
  (List.range 64).map fun j =>
    ((List.range k).map (fun i => codes.getD ((i / 64) * 4096 + j * 64 + i % 64) 0),
     (List.range (k / 32)).map (fun b => scales.getD (j * (k / 32) + b) 127))

/-- The stationary tile of a pass: the one the array holds, or the one at the addresses of the instruction (R116, R180). A tile kept from a pass
of K 64 under one of K 128 reads as zero codes in the half it does not have, with scale 127: the manual does not say what such a pass meets
(DESIGN CHOICE, log entry 40). -/
def passTile (c : Core) (p : PassOp) : Nat × List Nat × List Nat :=
  match p.keepTile, c.statTile with
  | true, some t => t
  | _, _ =>
    let k := passK p.rowFormat p.statFormat
    (p.statFormat, codesAt c.tileStore p.statFormat p.statAddr 0 (64 * k),
      if isMx p.statFormat then codesAt c.tileStore 11 p.statScaleAddr 0 (2 * k) else [])

/-- The seed of row r, column j (R116, R119): accumulator tiles hold 64 columns in rows, FP32 or 64-bit containers. -/
def passSeed (c : Core) (p : PassOp) (r j : Nat) : Int :=
  match p.accIn with
  | none => 0
  | some a =>
    if pairIsInt p.rowFormat then signedOf 40 (leNat (readBytes c.tileStore (a + (64 * r + j) * 8) 8))
    else (leNat (readBytes c.tileStore (a + (64 * r + j) * 4) 4) : Nat)

/-- The flags that accumulator lane j of row r starts with: a pass seeded by accumulators goes on with the chain of the pass before it, whose
flags stay set (R130, R132). -/
def laneSeed (c : Core) (p : PassOp) (r j : Nat) : Nat := if p.accIn.isNone then 0 else (c.chain.getD r []).getD j 0

/-- The accumulator lanes of one streamed row, each with its flags (R134). -/
def passLanes (c : Core) (rows : Mem) (p : PassOp) (cols : List (List Nat × List Nat)) (r : Nat) : List (Int × Nat) :=
  let k := passK p.rowFormat p.statFormat
  let as := codesAt rows p.rowFormat p.rowAddr (r * k) k
  let xas := if isMx p.rowFormat then codesAt rows 11 p.rowScaleAddr (r * (k / 32)) (k / 32) else List.replicate (k / 32) 127
  (cols.zipIdx).map (fun q => accumulate p.rowFormat p.statFormat (passSeed c p r q.2) (laneSeed c p r q.2) as q.1.1 xas q.1.2)

/-- One streamed row: its 64 accumulators and the OR of their flags (R134). -/
def passRow (c : Core) (rows : Mem) (p : PassOp) (cols : List (List Nat × List Nat)) (r : Nat) : List Int × Nat :=
  let out := passLanes c rows p cols r
  (out.map Prod.fst, flagsOf (out.map Prod.snd))

/-- Gated products of one streamed row (R141). -/
def passGated (rows : Mem) (p : PassOp) (cols : List (List Nat × List Nat)) (r : Nat) : Nat :=
  let k := passK p.rowFormat p.statFormat
  let as := (codesAt rows p.rowFormat p.rowAddr (r * k) k).map (elemNum p.rowFormat)
  (cols.map (fun q => (as.zip (q.1.map (elemNum p.statFormat))).countP (fun x => gatedProduct x.1 x.2))).sum

/-- Output tiles of 64 rows; the last holds the rest and zeros in its unused rows (R119). -/
def outputTiles (isInt : Bool) (rows : List (List Int × Nat)) (tags : List RowTag) (owner : Option (Nat × Nat × Nat)) : List OutTile :=
  (chunksOf 64 (rows.zipIdx)).map fun part =>
    let n := part.length
    { isInt := isInt
      rows := part.map (fun q => q.1.1) ++ List.replicate (64 - n) (List.replicate 64 0)
      valid := n
      tags := part.map (fun q => tags.getD q.2 ⟨none, false, 0⟩) ++ List.replicate (64 - n) ⟨none, false, 0⟩
      flags := part.map (fun q => q.1.2) ++ List.replicate (64 - n) 0
      owner := owner }

/-- The bytes that a pass reads lie within the tile store (2 MiB) and crew SRAM (16 MiB) (R24). -/
def passInside (p : PassOp) : Bool :=
  let k := passK p.rowFormat p.statFormat
  let lim := match p.rowSpace with | .tileStore => 0x200000 | .crewSram => 0x1000000
  (p.keepTile || (decide (p.statAddr + 64 * k * elemBits p.statFormat / 8 ≤ 0x200000)
      && (!isMx p.statFormat || decide (p.statScaleAddr + 2 * k ≤ 0x200000))))
    && decide (p.rowAddr + ceilDiv (p.m * k * elemBits p.rowFormat) 8 ≤ lim)
    && (!isMx p.rowFormat || decide (p.rowScaleAddr + p.m * (k / 32) ≤ lim))
    && (match p.accIn with
        | some a => decide (a + 64 * p.m * (if pairIsInt p.rowFormat then 8 else 4) ≤ 0x200000)
        | none => true)

/-- What a pass does to its core: the tile is held, M rows stream through it, and its output tiles wait for the queue. -/
def passEffect (c : Core) (rows : Mem) (p : PassOp) : Core :=
  let tile := passTile c p
  let cols := stationaryColumns p.rowFormat p.statFormat tile.2.1 tile.2.2
  let out := (List.range p.m).map (passRow c rows p cols)
  let gated := ((List.range p.m).map (passGated rows p cols)).sum
  startFilling { c with
    statTile := some tile
    outTiles := c.outTiles ++ outputTiles (pairIsInt p.rowFormat) out p.tags none
    gated := gated
    products := p.m * 64 * passK p.rowFormat p.statFormat
    chain := (List.range p.m).map (fun r => (passLanes c rows p cols r).map Prod.snd)
    inGap := false }

/-- The fields of a pass are in range (R116, R118). A kept tile is one that the array holds in the named format. -/
def passOk (s : State) (n : Nat) (p : PassOp) : Bool :=
  isCore s n && decide (1 ≤ p.m) && decide (p.m ≤ 16777216) && pairSupported p.rowFormat p.statFormat
    && (!p.keepTile || (match (coreOf s n).statTile with | some t => t.1 == p.statFormat | none => false))

/-- A poisoned 64-bit word of an SRAM within a range (R348). -/
def wordIn (poison : List Nat) (a len : Nat) : Option Nat := poison.find? (fun w => decide (w < a + len) && decide (a < w + 8))

/-- Poison that a streamed row uses: in its own elements, in the stationary tile, or in its seed; SPACE 4 is crew SRAM, 5 the tile store (R353,
R462). -/
def passPoison (c : Core) (crewPoison : List Nat) (p : PassOp) (r : Nat) : Option (Nat × Nat) :=
  let k := passK p.rowFormat p.statFormat
  let bits := k * elemBits p.rowFormat
  let src := match p.rowSpace with | .tileStore => (5, c.tsPoison) | .crewSram => (4, crewPoison)
  let tile := fun (a len : Nat) => (wordIn c.tsPoison a len).map (fun w => (5, w))
  ((((wordIn src.2 (p.rowAddr + r * bits / 8) (ceilDiv bits 8)).map (fun w => (src.1, w))).or
      (if isMx p.rowFormat then (wordIn src.2 (p.rowScaleAddr + r * (k / 32)) (k / 32)).map (fun w => (src.1, w)) else none)).or
    (if p.keepTile then none
     else (tile p.statAddr (64 * k * elemBits p.statFormat / 8)).or
       (if isMx p.statFormat then tile p.statScaleAddr (2 * k) else none))).or
    (p.accIn.bind (fun a => let b := if pairIsInt p.rowFormat then 512 else 256; tile (a + b * r) b))

/-- What a streamed row brings to the operation status of the request it is tagged with: its flags under the pass's policy, and its poison (R134,
R135, R353). A row of no running request brings nothing. -/
def tagRow (fault : Bool) (tag : RowTag) (flags : Nat) (bad : Option (Nat × Nat)) (s : State) : State :=
  match tag.slot with
  | none => s
  | some n =>
    match slotOf s n with
    | none => s
    | some q =>
      match unitRun q 0 with
      | none => s
      | some u =>
        if q.st = .running ∧ (flags ≠ 0 ∨ bad.isSome = true) then
          let row := if tag.spec then max 1 tag.row else 0
          let run := raiseRow u.2 fault row flags
          setSlot s n (setUnitRun q 0 { run with poisoned := run.poisoned ++ bad.toList.map (fun a => (row, a)) })
        else s

/-- PASS (R116). Its rows' flags go to the requests they are tagged with (R134). -/
def execPass (n : Nat) (p : PassOp) (s : State) : Host.Outcome State Fault Refusal :=
  if passOk s n p then
    if passInside p then
      let c := coreOf s n
      let rows := match p.rowSpace with | .tileStore => c.tileStore | .crewSram => (crewOf s (n / 9)).sram
      let tile := passTile c p
      let cols := stationaryColumns p.rowFormat p.statFormat tile.2.1 tile.2.2
      finish s ((List.range p.m).foldl
        (fun t r => tagRow p.faultPolicy (p.tags.getD r ⟨none, false, 0⟩) (passRow c rows p cols r).2 (passPoison c (crewOf s (n / 9)).sramPoison p r) t)
        (setCore s n (passEffect c rows p)))
    else .fault .addressOutside
  else .refused .illFormed

/-- TILE_OFFERED (R165): the oldest output tile takes its slot, which becomes READY. With no tile, or no FREE slot, the array
stalls and nothing changes (R119). -/
def execTileOffered (n : Nat) (s : State) : Host.Outcome State Fault Refusal :=
  if isCore s n then
    let c := coreOf s n
    let q := sgetD c.queue c.fillAt {}
    finish s (if c.outTiles ≠ [] ∧ (q.st = .free ∨ q.st = .filling) then setCore s n (offerTile c) else s)
  else .refused .illFormed

/-- a ÷ b to the nearest integer; a value midway takes the lower neighbour or, with up, the higher. -/
def roundDiv (up : Bool) (a b : Nat) : Nat :=
  let q := a / b
  let r := a % b
  if 2 * r > b || (2 * r == b && up) then q + 1 else q

/-- Dummy mode is over: no core streams dummy rows (R142). -/
def endDummy (s : State) : State :=
  { s with boot := { s.boot with dummy := false }, cores := s.cores.map (fun x => (x.1, { x.2 with inGap := false, duty := 0 })) }

/-- The core is one of its crew's active cores (R26). -/
def isActiveCore (s : State) (n : Nat) : Bool := hasBit (crewOf s (n / 9)).active (n % 9)

/-- DUMMY_GAP (R143): dummy rows start through the held tile at a duty of the fraction of ungated products of the last real
pass, to the nearest sixteenth, their operands from the LFSR. Where no pass has run the duty is a free value. -/
def execDummyGap (n : Nat) (s : State) : Host.Outcome State Fault Refusal :=
  if isCore s n then
    if s.boot.dummy && isActiveCore s n then
      let c := coreOf s n
      let fr := takeFree s
      let free := (Config.freeValue fr.1).toNat
      let num := 16 * (c.products - c.gated)
      let open_ := c.products = 0 ∨ 2 * (num % c.products) = c.products
      let duty := if c.products = 0 then free % 17 else roundDiv (free % 2 == 1) num c.products
      let t := if open_ then fr.2 else s
      finish s (setCore t n { c with inGap := true, duty := duty, lfsr := Config.lfsrNext c.lfsr })
    else finish s s
  else .refused .illFormed

/-- DUMMY_DUTY_STEP (R142, R143): in dummy mode the duty of an active core's gap falls by one sixteenth until it reaches 0. -/
def execDummyDutyStep (n : Nat) (s : State) : Host.Outcome State Fault Refusal :=
  if isCore s n then
    let c := coreOf s n
    if s.boot.dummy && isActiveCore s n && c.inGap then finish s (setCore s n { c with duty := c.duty - 1, lfsr := Config.lfsrNext c.lfsr }) else finish s s
  else .refused .illFormed

end Sys2Proof.Machine
end

