-- ==== Sys2Proof/Machine/ModelImage.lean ====
section
/-!
DEFINITION. Model images (06_model_images.md): their layout, and the nine checks of R196 in order. The fields of an operation
record (R183, R184) are read here too.
-/

namespace Sys2Proof.Machine

/-! ### Records (R183, R184) -/

/-- n bytes of a record from byte o. -/
def recAt (r : BitVec 256) (o n : Nat) : Nat := (r.toNat >>> (8 * o)) % 2 ^ (8 * n)

def recOp (r : BitVec 256) : Nat := recAt r 0 1
/-- POLICY: 1 FAULT (R135). -/
def recFault (r : BitVec 256) : Bool := hasBit (recAt r 1 1) 0
def recWaitEn (r : BitVec 256) : Bool := hasBit (recAt r 2 2) 15
def recWaitSync (r : BitVec 256) : Nat := recAt r 2 2 % 1024
def recWaitTarget (r : BitVec 256) : Nat := recAt r 4 2
def recSignalEn (r : BitVec 256) : Bool := hasBit (recAt r 6 2) 15
def recSignalSync (r : BitVec 256) : Nat := recAt r 6 2 % 1024

/-- The record operates on a VECTOR or VECTOR_Q program. -/
def recIsVector (r : BitVec 256) : Bool := recOp r == 0x20 || recOp r == 0x21

/-- The record is a MATMUL or EXPERT_MATMUL. -/
def recIsMatmul (r : BitVec 256) : Bool := recOp r == 0x10 || recOp r == 0x12

/-- A descriptor number of a record, if it is not 0xFFFF. -/
def recDesc (r : BitVec 256) (o : Nat) : Option Nat := if recAt r o 2 = 0xFFFF then none else some (recAt r o 2)

/-- The descriptors that a record reads and writes; LOOP only gives a shape. -/
def recReads (r : BitVec 256) : List Nat :=
  let at_ := fun os : List Nat => os.filterMap (recDesc r)
  match recOp r with
  | 0x10 => at_ [8, 10, 14]
  | 0x12 => at_ [8, 14, 16] ++ (List.range (recAt r 18 2)).map (recAt r 10 2 + ·)
  | 0x11 => at_ [8, 10, 12]
  | 0x20 => at_ [12, 14, 16, 18, 20]
  | 0x21 => at_ [12, 14, 16, 18]
  | 0x30 => at_ [10]
  | 0x31 => at_ [8]
  | 0x32 => at_ [8, 10]
  | 0x40 => at_ [10]
  | 0x41 => at_ [8]
  | 0x50 => at_ [8, 10]
  | 0x51 => at_ [8]
  | _ => []

def recWrites (r : BitVec 256) : List Nat :=
  let at_ := fun os : List Nat => os.filterMap (recDesc r)
  match recOp r with
  | 0x10 | 0x12 => at_ [12]
  | 0x11 => at_ [14]
  | 0x20 | 0x21 => at_ [22, 24]
  | 0x30 => at_ [12]
  | 0x31 => at_ [10]
  | 0x40 => at_ [12]
  | 0x41 => at_ [10]
  | _ => []

/-- The operation codes of R184 other than LIST. -/
def knownOp (n : Nat) : Bool := [0x10, 0x11, 0x12, 0x20, 0x21, 0x30, 0x31, 0x32, 0x40, 0x41, 0x50, 0x51].contains n

/-- The bytes of a record that its operation leaves reserved (check 9). -/
def recReservedOk (r : BitVec 256) : Bool :=
  let z := fun (o n : Nat) => recAt r o n == 0
  decide (recAt r 1 1 < 2) && bitsOf (recAt r 2 2) 14 10 == 0 && bitsOf (recAt r 6 2) 14 10 == 0
    && (match recOp r with
        | 0x01 => z 14 2 && z 24 8
        | 0x10 => z 16 16
        | 0x11 => z 16 16
        | 0x12 => z 20 12
        | 0x20 | 0x21 => z 30 2
        | 0x30 => z 14 18
        | 0x31 => z 14 18
        | 0x32 => z 12 20
        | 0x40 => z 9 1 && z 14 18
        | 0x41 => z 15 17
        | 0x50 => z 12 20
        | 0x51 => z 11 21
        | _ => true)

/-! ### Parsing -/

/-- Offset, length and count of section k (R177). -/
def section_ (bs : List Byte) (k : Nat) : Nat × Nat × Nat :=
  (leAt bs (32 + 24 * k) 8, leAt bs (40 + 24 * k) 8, leAt bs (48 + 24 * k) 4)

/-- A descriptor at a byte offset (R178). -/
def parseDesc (bs : List Byte) (o : Nat) : Desc :=
  { cls := leAt bs o 1, fmt := leAt bs (o + 1) 1, rank := leAt bs (o + 2) 1, placement := leAt bs (o + 3) 1
    scale := leAt bs (o + 4) 2, tiled := hasBit (leAt bs (o + 6) 1) 0, dataOff := leAt bs (o + 8) 8
    ext := (List.range 6).map (fun k => leAt bs (o + 16 + 4 * k) 4)
    stride := (List.range 6).map (fun k => leAt bs (o + 40 + 4 * k) 4) }

/-- A stage binding at a byte offset (R193). -/
def parseBinding (bs : List Byte) (o : Nat) : Binding :=
  { stage := leAt bs o 1, leadBos := hasBit (leAt bs (o + 1) 1) 0, trailEos := hasBit (leAt bs (o + 1) 1) 1
    pairSep := hasBit (leAt bs (o + 1) 1) 2, list := leAt bs (o + 4) 4, seqLen := leAt bs (o + 8) 4
    outDim := leAt bs (o + 12) 4, sparseHead := leAt bs (o + 16) 2, draftMax := leAt bs (o + 18) 2
    vocabTokens := leAt bs (o + 20) 4, cyclesFixed := leAt bs (o + 24) 4, cyclesBatch := leAt bs (o + 28) 4
    kvBytes := leAt bs (o + 32) 4 }

/-- Program k of the PROGRAMS section: its offset and length in words (R192). -/
def progEntry (bs : List Byte) (k : Nat) : Nat × Nat :=
  (leAt bs ((section_ bs 3).1 + 8 * k) 4, leAt bs ((section_ bs 3).1 + 8 * k + 4) 2)

/-- The words of program k. -/
def progWords (bs : List Byte) (k : Nat) : List Reg :=
  let e := progEntry bs k
  (List.range e.2).map (fun i => BitVec.ofNat 64 (leAt bs ((section_ bs 3).1 + 8 * (e.1 + i)) 8))

/-- The model that an image holds. -/
def parseModel (bs : List Byte) : Model :=
  let t := section_ bs 0
  { len := bs.length
    buildId := slice bs 176 16
    tensors := writeBytes [] 0 (slice bs t.1 t.2.1)
    descs := (List.range (section_ bs 1).2.2).map (fun i => parseDesc bs ((section_ bs 1).1 + 64 * i))
    recs := (List.range (section_ bs 2).2.2).map (fun i => BitVec.ofNat 256 (leAt bs ((section_ bs 2).1 + 32 * i) 32))
    progs := (List.range (section_ bs 3).2.2).map (progWords bs)
    binds := (List.range (section_ bs 4).2.2).map (fun i => parseBinding bs ((section_ bs 4).1 + 64 * i)) }

/-- The record numbered n; a number beyond the section reads as zeros. -/
def recOf (m : Model) (n : Nat) : BitVec 256 := m.recs.getD n 0

/-- The operation lists, as (LIST record, one past the last record); none where the records are not lists back to back. -/
def splitLists (recs : List (BitVec 256)) : Nat → Nat → Option (List (Nat × Nat))
  | 0, _ => some []
  | f + 1, i =>
    if recs.length ≤ i then some []
    else
      let n := recAt (recs.getD i 0) 8 4
      if recOp (recs.getD i 0) = 0x01 ∧ 1 ≤ n ∧ i + n ≤ recs.length then (splitLists recs f (i + n)).map ((i, i + n) :: ·) else none

def listsOf (m : Model) : List (Nat × Nat) := (splitLists m.recs (m.recs.length + 1) 0).getD []

/-- The record numbers of the list that begins at a LIST record. The header's WAIT and SIGNAL fields of the LIST record itself are not used: it
only counts the list (DESIGN CHOICE, log entry 141). -/
def listRecords (m : Model) (start : Nat) : List Nat :=
  (List.range (recAt (recOf m start) 8 4 - 1)).map (fun i => start + 1 + i)

/-- The list a record belongs to: its LIST record. -/
def listStart (m : Model) (n : Nat) : Nat := (((listsOf m).find? (fun l => decide (l.1 ≤ n) && decide (n < l.2))).map Prod.fst).getD 0

/-- The record that a VECTOR_Q drains (R184). -/
def boundRecord (m : Model) (n : Nat) : Nat := listStart m n + recAt (recOf m n) 20 2

/-- One past the last byte that a descriptor addresses from DATA_OFFSET (R180). -/
def descBytes (d : Desc) : Nat :=
  let hi := (List.range 4).foldl (fun acc k => acc + (d.e (k + 2) - 1) * d.s (k + 2)) 0
  let last :=
    if d.tiled then hi + alignUp (d.e 0) 64 * alignUp (d.e 1) 64 - 1
    else hi + (d.e 0 - 1) * d.s 0 + (d.e 1 - 1) * d.s 1
  ceilDiv ((last + 1) * elemBits d.fmt) 8

/-! ### Checks 1 to 4 -/

def modelCheck1 (bs : List Byte) : Bool :=
  magicOk bs "DRTHIMG1" && leAt bs 10 2 == 256 && leAt bs 8 2 == 1 && leAt bs 24 8 == bs.length
    && decide (bs.length ≤ 2 ^ 44) && decide (256 ≤ bs.length) && crcOk bs 16

/-- Sections: alignment, LENGTH and COUNT of R177. -/
def modelCheck2 (bs : List Byte) : Bool :=
  let sec := fun k => section_ bs k
  let counts : List (Nat × Nat × Nat) := [(0, 0, 0), (64, 1, 65535), (32, 2, 16777216), (8, 0, 65535), (64, 1, 6), (4, 0, 256)]
  placed bs.length [(0, 256)] ((List.range 6).map (fun k => ((sec k).1, (sec k).2.1)))
    && (counts.zipIdx).all (fun q =>
      let s := sec q.2
      decide (q.1.2.1 ≤ s.2.2) && decide (s.2.2 ≤ q.1.2.2)
        && (if q.2 = 0 then s.1 % 4096 == 0 else s.1 % 64 == 0)
        && (if q.2 = 0 then true
            else if q.2 = 3 then s.2.1 % 8 == 0 && decide (8 * s.2.2 ≤ s.2.1)
            else s.2.1 == s.2.2 * q.1.1))
    && (List.range (sec 3).2.2).all (fun k =>
      let e := progEntry bs k
      decide ((sec 3).2.2 ≤ e.1) && decide (8 * (e.1 + e.2) ≤ (sec 3).2.1))

/-- The capability entries of this issue, each at version 1 (R505, R507 to R509). -/
def capabilityIds : List Nat :=
  [0x0001, 0x0010, 0x0011, 0x0020, 0x0030, 0x0031, 0x0040, 0x0041, 0x0050, 0x0051, 0x0052, 0x0060, 0x0070, 0x0080, 0x0090,
   0x00A0, 0x00F0]

/-- Work contract 1.0 and the requirements of R195. -/
def modelCheck3 (bs : List Byte) : Bool :=
  leAt bs 13 1 == 1 && leAt bs 12 1 == 0
    && (List.range (section_ bs 5).2.2).all (fun i =>
      let o := (section_ bs 5).1 + 4 * i
      capabilityIds.contains (leAt bs o 2) && decide (leAt bs (o + 2) 1 ≤ 1))

/-- A scale tensor of R181. -/
def scaleOk (d sc : Desc) : Bool :=
  sc.fmt == 11 && !sc.tiled && sc.cls == d.cls && sc.placement == d.placement && sc.s 0 == 1
    && sc.e 0 == ceilDiv (d.e 0) 32 && sc.ext.drop 1 == d.ext.drop 1

/-- A descriptor valid under R178 to R182 and R546; len is the length of TENSORS. -/
def descOk (m : Model) (len : Nat) (d : Desc) : Bool :=
  decide (d.cls ≤ 5) && decide (d.fmt ≤ 12) && decide (1 ≤ d.rank) && decide (d.rank ≤ 6)
    && (if d.cls = 0 then decide (d.placement ≤ 3) else d.placement == 0)
    && (List.range 6).all (fun k => if k < d.rank then decide (1 ≤ d.e k) else d.e k == 1 && d.s k == 0)
    && (!d.tiled || (d.s 0 == 1 && d.s 1 == alignUp (d.e 0) 64))
    && (if isMx d.fmt then (m.descs[d.scale]?).elim false (scaleOk d) else d.scale == 0xFFFF)
    && (if d.cls ≤ 1 then d.dataOff % 4096 == 0 && decide (d.dataOff + descBytes d ≤ len)
        else if d.cls = 3 then decide (2 ≤ d.rank) && !d.tiled && decide (d.e 1 ≤ 131072)
        else if d.cls = 4 ∨ d.cls = 5 then d.dataOff == 0 else true)

/-- A scale tensor's DATA_OFFSET need not be 4 KiB aligned when it is written by records; for WEIGHT and PARAM R178 holds. That TENSORS holds every
tensor's data stands both in R177, with the lengths of check 2, and in check 4 of R196: it is judged here, where the table has it (DESIGN
CHOICE, log entry 141). -/
def modelCheck4 (m : Model) (len : Nat) : Bool := m.descs.all (descOk m len)

/-! ### Check 5 -/

/-- Extents of two tensors are equal. -/
def sameShape (a b : Desc) : Bool := a.ext == b.ext

/-- A tensor whose dimensions above 1 have extent 1. -/
def flat2 (d : Desc) : Bool := (d.ext.drop 2).all (fun e => e == 1)

/-- A ROUTE tensor names one expert for each of n rows (R184, R186). -/
def routeShape (d : Desc) (n : Nat) : Bool := flat2 d && ((d.e 0 == n && d.e 1 == 1) || (d.e 0 == 1 && d.e 1 == n))

/-- The shapes of a COLLECTIVE (R439): one extent along dimension 1, or a multiple of the other's, and equal extents elsewhere. -/
def collectiveShape (kind : Nat) (src dst : Desc) : Bool :=
  if kind = 0 ∨ kind = 3 then sameShape src dst
  else src.ext.set 1 1 == dst.ext.set 1 1 && (if kind = 1 then dst.e 1 % src.e 1 == 0 else src.e 1 % dst.e 1 == 0)

/-- The formats of table rows and of what a GATHER writes (R362, R370). -/
def rowFormat (f : Nat) : Bool := [0, 1, 2, 3, 7, 8, 9].contains f

/-- The tensors that the selections and merges of a list write: speculative as a whole where a pushed pair is (R543, R544). -/
def selectedTensors (m : Model) (recs : List Nat) : List Nat :=
  recs.filterMap (fun n =>
    let r := recOf m n
    if recIsVector r ∧ recAt r 26 1 ≠ 0 then recDesc r (22 + 2 * recAt r 27 1)
    else if recOp r = 0x41 then recDesc r 10
    else none)

/-- What EMIT may deliver in a list of a stage (R544): in a DECODE list a per-request tensor that carries the token rows of every step, nine with
eight drafts, and in a DECODE or DRAFT list no result of a selection (log entry 27). -/
def emitOk (m : Model) (recs : List Nat) (stage n : Nat) : Bool :=
  let d := descOf m n
  (stage != 3 || decide (d.cls ≤ 1) || decide (9 ≤ d.e 1)) && ((stage != 3 && stage != 4) || !(selectedTensors m recs).contains n)

/-- The accumulator format of a pair (R185). -/
def accFormat (rf : Nat) : Nat := if pairIsInt rf then 10 else 0

/-- The fields and operands of one record (R184 to R188, R248, R285, R370, R439, R544), in the list from start to fin and under every binding that
runs it. A record reads no OUTPUT tensor: that class is what EMIT delivers (R182; log entry 142). SEL_K and SEL_PORT have no range where SEL_MODE
is 0: they are not used then (DESIGN CHOICE, log entry 141). A port that SEL_PORT names is judged with the launch, in check 6 (R242). -/
def recOperandsOk (m : Model) (r : BitVec 256) (start fin n : Nat) (binds : List Binding) : Bool :=
  let d := fun o => descOf m (recAt r o 2)
  let has := fun o => decide (recAt r o 2 < m.descs.length)
  let opt := fun o => recAt r o 2 == 0xFFFF || has o
  let set := fun o => recAt r o 2 != 0xFFFF
  let work := fun o => has o && (d o).cls == 2
  let matmulOk := fun (e : Nat) =>
    has 8 && has 10 && opt 12 && opt 14 && decide (1 ≤ e) && decide (recAt r 10 2 + e ≤ m.descs.length)
      && (List.range e).all (fun i =>
        let st := descOf m (recAt r 10 2 + i)
        st.cls == 0 && st.fmt == (d 10).fmt && sameShape st (d 10))
      && flat2 (d 8) && flat2 (d 10)
      && pairSupported (d 8).fmt (d 10).fmt && (d 8).e 0 == (d 10).e 0
      && (!set 12 || (work 12 && (d 12).fmt != 11 && (d 12).e 0 == (d 10).e 1 && (d 12).e 1 == (d 8).e 1 && flat2 (d 12)))
      && (!set 14 || ((d 14).fmt == accFormat (d 8).fmt && (d 14).e 0 == (d 10).e 1 && (d 14).e 1 == (d 8).e 1
          && flat2 (d 14)))
      && (set 12 || ((List.range (fin - start)).countP (fun i =>
          recOp (recOf m (start + i)) == 0x21 && start + recAt (recOf m (start + i)) 20 2 == n)) == 1)
  (!recWaitEn r || decide (1 ≤ recWaitTarget r)) && (recReads r).all (fun k => (descOf m k).cls != 5)
    && (match recOp r with
        | 0x10 => matmulOk 1
        | 0x12 => matmulOk (recAt r 18 2) && decide (recAt r 18 2 ≤ 4096) && has 16 && (d 16).fmt == 9
            && routeShape (d 16) ((d 8).e 1)
        | 0x11 => has 8 && has 10 && opt 12 && work 14 && sameShape (d 8) (d 10) && sameShape (d 8) (d 14)
            && (!set 12 || sameShape (d 8) (d 12)) && (d 14).fmt != 11
            && (isIntFormat (d 8).fmt == isIntFormat (d 10).fmt) && (!set 12 || isIntFormat (d 12).fmt == isIntFormat (d 8).fmt)
        | 0x20 | 0x21 =>
            decide (recAt r 8 2 < m.progs.length) && has 10 && has 12 && (d 12).cls == 1
              && ((d 12).fmt == 0 || (d 12).fmt == 9 || (d 12).fmt == 12) && (d 12).ext.foldl (· * ·) 1 == 8
              && opt 14 && opt 16 && opt 18 && (recOp r == 0x21 || opt 20)
              && (!set 22 || work 22) && (!set 24 || work 24)
              && decide (recAt r 26 1 ≤ 3)
              && (recAt r 26 1 == 0 || (decide (1 ≤ recAt r 28 2) && decide (recAt r 28 2 ≤ 256)
                    && decide (recAt r 27 1 ≤ 1)))
              && (recOp r == 0x20 ||
                    (decide (0 < recAt r 20 2) && decide (start + recAt r 20 2 < fin)
                      && recIsMatmul (recOf m (start + recAt r 20 2)) && recAt (recOf m (start + recAt r 20 2)) 12 2 == 0xFFFF))
        | 0x30 => decide (recAt r 8 2 ≤ 1023) && has 10 && work 12 && ((d 10).fmt == 9 || (d 10).fmt == 12)
            && decide (2 ≤ (d 10).cls) && decide ((d 10).cls ≤ 4)
            && ((d 10).e 0 == 1 || (d 10).e 0 == 2) && (d 12).ext.drop 1 == (d 10).ext.drop 1
            && rowFormat (d 12).fmt
        | 0x31 => has 8 && has 10 && (d 10).cls == 3 && (d 8).e 0 == (d 10).e 0
            && (List.range 3).all (fun k => (d 8).e (k + 2) == (d 10).e (k + 3)) && (d 8).e 5 == 1
            && (if (d 10).rank = 2 then recAt r 12 2 == 0 else decide (recAt r 12 2 < (d 10).e 2))
        | 0x32 => has 8 && (d 8).cls == 0 && (d 8).placement == 3 && opt 10 && (!set 10 || (d 10).fmt == 9)
        | 0x40 => decide (recAt r 8 1 ≤ 3) && has 10 && work 12 && collectiveShape (recAt r 8 1) (d 10) (d 12)
        | 0x41 => has 8 && work 10 && (d 8).rank == 1 && (d 8).fmt == 9 && (d 10).rank == 1 && (d 10).fmt == 9
            && decide (1 ≤ recAt r 14 1) && decide (recAt r 14 1 ≤ 3)
            && (if recAt r 14 1 = 1 then decide (8 ≤ (d 10).e 0)
                else decide (4 + 4 * (if recAt r 12 2 = 0 then 65536 else recAt r 12 2) ≤ (d 10).e 0))
        | 0x50 => has 8 && has 10 && (d 8).cls == 2 && (d 8).fmt == 0 && (d 8).rank == 2 && (d 8).e 1 == 9
            && (d 10).cls == 4 && (d 10).fmt == 9 && (d 10).rank == 1 && (d 10).e 0 == 9
            && binds.all (fun b => (d 8).e 0 == b.vocabTokens)
        | 0x51 => has 8 && decide (recAt r 10 1 ≤ 3) && binds.all (fun b => emitOk m (listRecords m start) b.stage (recAt r 8 2))
        | _ => false)

/-- The bindings that run a list. -/
def bindingsOf (m : Model) (start : Nat) : List Binding := m.binds.filter (fun b => b.list == start)

/-- WORK tensors lie within the working space of the list: the manual gives WORK_BYTES as what a request needs, and no check for it (DESIGN CHOICE,
log entry 141). The scale tensors that go with them are not judged. -/
def recWorkOk (m : Model) (r : BitVec 256) (workBytes : Nat) : Bool :=
  (recReads r ++ recWrites r).all (fun n =>
    let d := descOf m n
    d.cls != 2 || decide (d.dataOff + descBytes d ≤ workBytes))

/-- VERIFY ends every PREFILL and DECODE list (R285). -/
def verifyEnds (m : Model) (l : Nat × Nat) : Bool :=
  (bindingsOf m l.1).all (fun b => (b.stage != 2 && b.stage != 3) || recOp (recOf m (l.2 - 1)) == 0x50)

def modelCheck5 (m : Model) : Bool :=
  match splitLists m.recs (m.recs.length + 1) 0 with
  | none => false
  | some ls => ls.all fun l =>
      let h := recOf m l.1
      decide (1 ≤ recAt h 12 2) && decide (recAt h 12 2 ≤ 1024) && verifyEnds m l
        && (listRecords m l.1).all (fun n =>
          let r := recOf m n
          knownOp (recOp r) && recOperandsOk m r l.1 l.2 n (bindingsOf m l.1) && recWorkOk m r (recAt h 16 8))

/-! ### Check 6: lane programs (R174) -/

/-- The ports that a launch binds, L0 to L3, W0, W1. -/
def recPorts (r : BitVec 256) : List Nat :=
  [recAt r 14 2, recAt r 16 2, recAt r 18 2, (if recOp r = 0x21 then 0xFFFF else recAt r 20 2), recAt r 22 2, recAt r 24 2]

/-- The loop shape of a launch (R149): E0 and the extents of the indices, i0 first. -/
def loopShape (d : Desc) : Nat × List Nat := (d.e 0, ceilDiv (d.e 0) 256 :: (d.ext.take d.rank).drop 1)

/-- One instruction word under R174, launched with a rank and ports, in a launch with or without POPQ. -/
def wordOk (rank : Nat) (ports : List Nat) (syncs : Nat) (isQ : Bool) (w : Reg) : Bool :=
  let f := laneFieldsOf w
  match laneOpOf (laneOpc w) with
  | none => false
  | some op =>
    let wh := laneWhen f
    laneOk op f && (wh == 0 || decide ((wh - 1) % 6 < rank))
      && (match op with
          | .ld => ports.getD (laneArg f % 4) 0xFFFF != 0xFFFF
          | .st => ports.getD (4 + laneArg f % 2) 0xFFFF != 0xFFFF
          | .signal => decide (laneArg f % 1024 < syncs) && decide (0 < laneArg f / 1024 % 65536)
          | .wait => decide (laneArg f % 1024 < syncs)
          | .popq => isQ && wh == 0 && f.pred == 0#3
          | .bcast | .iota | .sget | .selpush => !isQ
          | .rsum | .rmax | .rmin => !isQ || laneArg f % 2 == 0
          | _ => true)

/-- The program of a launch (R167, R174, R242). What a store may write is fixed by check 5: a W port is a WORK tensor of the request, where a SPEC
row stays apart until it is accepted (R163). -/
def launchOk (m : Model) (start : Nat) (r : BitVec 256) : Bool :=
  let prog := m.progs.getD (recAt r 8 2) []
  let loop := descOf m (recAt r 10 2)
  let isQ := recOp r == 0x21
  let pops := prog.countP (fun w => laneOpc w == 0x42)
  decide (1 ≤ prog.length) && decide (prog.length ≤ 64)
    && prog.all (wordOk loop.rank (recPorts r) (recAt (recOf m start) 12 2) isQ)
    && (if isQ then
          let mm := recOf m (start + recAt r 20 2)
          let row := descOf m (recAt mm 8 2)
          pops == 1 && loop.rank == 1 && ceilDiv (loop.e 0) 256 == 16 * ceilDiv (row.e 1) 64
            && (pairIsInt row.fmt || prog.all (fun w => laneOpc w != 0x42 || (laneFieldsOf w).ty == 0#2))
        else pops == 0)
    && (recAt r 26 1 == 0 ||
          (let p := descOf m (recAt r (22 + 2 * recAt r 27 1) 2)
           recAt r (22 + 2 * recAt r 27 1) 2 != 0xFFFF && p.rank == 1 && p.fmt == 9 && decide (4 + 4 * recAt r 28 2 ≤ p.e 0)))

/-- A program of the directory by itself (R174, R192): 1 to 64 instructions, with no reserved value in any. -/
def progOk (prog : List Reg) : Bool :=
  decide (1 ≤ prog.length) && decide (prog.length ≤ 64)
    && prog.all (fun w => (laneOpOf (laneOpc w)).any (fun op => laneOk op (laneFieldsOf w)))

def modelCheck6 (m : Model) : Bool :=
  m.progs.all progOk && (listsOf m).all (fun l => (listRecords m l.1).all (fun n => !recIsVector (recOf m n) || launchOk m l.1 (recOf m n)))

/-! ### Check 7: sync and R191 -/

/-- Iterations in which an instruction executes (R151). -/
def whenCount (ext : List Nat) (w : Nat) : Nat :=
  if w = 0 then ext.foldl (· * ·) 1 else (ext.drop ((w - 1) % 6 + 1)).foldl (· * ·) 1

/-- What a launch's program adds to each sync number. -/
def laneSignals (m : Model) (r : BitVec 256) : List (Nat × Nat) :=
  if recIsVector r then
    (m.progs.getD (recAt r 8 2) []).filterMap fun w =>
      let f := laneFieldsOf w
      if laneOpc w = 0x50 then
        some (laneArg f % 1024, whenCount (loopShape (descOf m (recAt r 10 2))).2 (laneWhen f) * (laneArg f / 1024 % 65536))
      else none
  else []

/-- The sync numbers a launch's program waits on, with the target where the image fixes it: S0 to S7 hold PARAMS and keep
them unless SGET writes them (R146, R153). -/
def laneWaits (m : Model) (r : BitVec 256) : List (Nat × Option Nat) :=
  if recIsVector r then
    let prog := m.progs.getD (recAt r 8 2) []
    let p := descOf m (recAt r 12 2)
    prog.filterMap fun w =>
      let f := laneFieldsOf w
      if laneOpc w = 0x51 then
        let vb := f.vb.toNat
        let written := prog.any (fun x => laneOpc x == 0x38 && (laneFieldsOf x).vd == f.vb)
        some (laneArg f % 1024, if vb < 8 ∧ written = false then some (leNat (readBytes m.tensors (p.dataOff + 4 * vb) 4)) else none)
      else none
  else []

/-- What a record adds to the sync numbers when it runs, and the waits it makes. -/
def recSignals (m : Model) (n : Nat) : List (Nat × Nat) :=
  let r := recOf m n
  (if recSignalEn r then [(recSignalSync r, 1)] else []) ++ laneSignals m r
def recWaits (m : Model) (n : Nat) : List (Nat × Option Nat) :=
  let r := recOf m n
  (if recWaitEn r then [(recWaitSync r, some (recWaitTarget r))] else []) ++ laneWaits m r

/-- What the record x adds to sync number k. -/
def addsTo (m : Model) (k x : Nat) : Nat := (((recSignals m x).filter (fun p => p.1 == k)).map Prod.snd).sum

/-- One of the waits of the record y waits for the record x: it is on a number that x signals, with a target that cannot be reached before
every signaller has signalled (R189, R191). -/
def waitsOn (m : Model) (recs : List Nat) (waits : List (Nat × Option Nat)) (y x : Nat) : Bool :=
  waits.any fun w =>
    match w.2 with
    | none => false
    | some t =>
      let others := (recs.filter (· != y)).map (addsTo m w.1)
      decide (0 < addsTo m w.1 x) && decide (others.sum - addsTo m w.1 x < t) && decide (x ≠ y)
        && (recs.filter (· != y)).all (fun z => addsTo m w.1 z == 0 || decide (others.sum - addsTo m w.1 z < t))

/-- The record y waits for the record x. -/
def waitsFor (m : Model) (recs : List Nat) (y x : Nat) : Bool := waitsOn m recs (recWaits m y) y x

/-- The records that a chain of waits reaches from those given, in at most f rounds. -/
def chainFrom (m : Model) (recs : List Nat) : Nat → List Nat → List Nat
  | 0, xs => xs
  | f + 1, xs =>
    let more := recs.filter (fun y => !xs.contains y && xs.any (waitsFor m recs y))
    if more.isEmpty then xs else chainFrom m recs f (xs ++ more)

/-- A chain of sync waits leads from record x to record y. -/
def chained (m : Model) (recs : List Nat) (x y : Nat) : Bool :=
  x != y && (chainFrom m recs recs.length [x]).contains y

/-- The bytes that hold the elements of a WORK or KV tensor, as (class, page, byte); the padding of a tiled tensor counts (R191). -/
def heldBytes (m : Model) (n : Nat) : List (Nat × Nat × Nat) :=
  let one := fun (d : Desc) =>
    let e := if d.tiled then { d with ext := (d.ext.set 0 (alignUp (d.e 0) 64)).set 1 (alignUp (d.e 1) 64) } else d
    (allIndices e).flatMap fun ix =>
      let page := if d.cls = 3 then ixAt ix 1 / 64 else 0
      let off := elemOffset d (if d.cls = 3 then ix.set 1 (ixAt ix 1 % 64) else ix)
      let b := d.dataOff + off * elemBits d.fmt / 8
      (List.range (max 1 (elemBits d.fmt / 8))).map (fun i => (d.cls, page, b + i))
  let d := descOf m n
  if d.cls = 2 ∨ d.cls = 3 then one d ++ (if isMx d.fmt then one (descOf m d.scale) else []) else []

/-- Two lists of tensors share a byte. -/
def shareBytes (m : Model) (xs ys : List Nat) : Bool :=
  let a := xs.flatMap (heldBytes m)
  (ys.flatMap (heldBytes m)).any (fun b => a.contains b)

/-- R191 for a pair of records. -/
def pairOrdered (m : Model) (recs : List Nat) (x y : Nat) : Bool :=
  x == y ||
    ((!shareBytes m (recWrites (recOf m x)) (recReads (recOf m y)) || chained m recs x y)
      && (!shareBytes m (recWrites (recOf m x)) (recWrites (recOf m y)) || chained m recs x y || chained m recs y x))

def modelCheck7 (m : Model) : Bool :=
  (listsOf m).all fun l =>
    let recs := listRecords m l.1
    let sc := recAt (recOf m l.1) 12 2
    recs.all (fun n => (recSignals m n).all (fun p => decide (p.1 < sc)) && (recWaits m n).all (fun p =>
        decide (p.1 < sc) && recs.any (fun x => decide (0 < addsTo m p.1 x))))
      && recs.all (fun x => recs.all (pairOrdered m recs x))

/-! ### Check 8: bindings (R193, R545) -/

/-- The INPUT descriptors of a list, ascending: those its records name, as an operand or as LOOP, and the scale tensors of MX ones among them, which
lie in the same hand-off (R181, R545). -/
def listInputs (m : Model) (start : Nat) : List Nat :=
  let direct := (listRecords m start).flatMap (fun n =>
    let r := recOf m n
    recReads r ++ (if recIsVector r then [recAt r 10 2] else []))
  let named := direct ++ (direct.filter (fun n => isMx (descOf m n).fmt)).map (fun n => (descOf m n).scale)
  (List.range m.descs.length).filter (fun n => (descOf m n).cls == 4 && named.contains n)

/-- The parts of a stage's input, as (format, extent) (R545). -/
def stageParts (b : Binding) : List (Nat × Nat) :=
  match b.stage with
  | 0 | 1 => [(12, b.seqLen), (9, 1)]
  | 2 => [(12, b.seqLen), (9, 1), (9, 1), (9, 9)]
  | 3 => [(9, 9), (9, 1), (9, 1)]
  | 4 => [(12, 1), (9, 1)]
  | _ => []

/-- The fields of a binding for its stage. -/
def bindingFieldsOk (b : Binding) : Bool :=
  decide (b.stage ≤ 5)
    && (match b.stage with
        | 0 => decide (bit b.leadBos + bit b.trailEos < b.seqLen) && decide (1 ≤ b.outDim) && decide (b.outDim ≤ 4096)
            && decide (b.sparseHead ≤ 1)
        | 1 => decide (bit b.leadBos + bit b.pairSep + bit b.trailEos < b.seqLen) && b.outDim == 1
        | 2 => decide (1 ≤ b.seqLen) && decide (b.seqLen ≤ 2048) && b.outDim == 0
        | _ => b.seqLen == 0 && b.outDim == 0)
    && (b.stage == 0 || b.sparseHead == 0)
    && (if b.stage = 4 then decide (1 ≤ b.draftMax) && decide (b.draftMax ≤ 8) else b.draftMax == 0)
    && (b.stage == 1 || !b.pairSep)

def bindingOk (m : Model) (b : Binding) : Bool :=
  bindingFieldsOk b && (listsOf m).any (fun l => l.1 == b.list)
    && m.binds.countP (fun c => c.stage == b.stage) == 1
    && (b.stage == 5 ||
          (let ins := listInputs m b.list
           let parts := stageParts b
           decide (ins.length ≤ parts.length)
             && (ins.zip parts).all (fun q =>
                let d := descOf m q.1
                d.fmt == q.2.1 && d.rank == 1 && d.e 0 == q.2.2)))

def modelCheck8 (m : Model) : Bool := m.binds.all (bindingOk m)

/-! ### Check 9 -/

def modelCheck9 (bs : List Byte) (m : Model) : Bool :=
  zeroBytes bs 14 2 && zeroBytes bs 20 4 && zeroBytes bs 192 64
    && (List.range 6).all (fun k => zeroBytes bs (52 + 24 * k) 4)
    && (List.range (section_ bs 1).2.2).all (fun i =>
      let o := (section_ bs 1).1 + 64 * i
      decide (leAt bs (o + 6) 1 ≤ 1) && zeroBytes bs (o + 7) 1)
    && m.recs.all recReservedOk
    && (List.range (section_ bs 3).2.2).all (fun k => zeroBytes bs ((section_ bs 3).1 + 8 * k + 6) 2)
    && (List.range (section_ bs 4).2.2).all (fun i =>
      let o := (section_ bs 4).1 + 64 * i
      decide (leAt bs (o + 1) 1 ≤ 7) && zeroBytes bs (o + 2) 2 && zeroBytes bs (o + 36) 28)
    && (List.range (section_ bs 5).2.2).all (fun i => zeroBytes bs ((section_ bs 5).1 + 4 * i + 3) 1)

/-- The first check of R196 that an image fails. -/
def modelCheck (bs : List Byte) : Option Nat :=
  if !modelCheck1 bs then some 1
  else if !modelCheck2 bs then some 2
  else if !modelCheck3 bs then some 3
  else
    let m := parseModel bs
    firstFail
      [(4, modelCheck4 m (section_ bs 0).2.1), (5, modelCheck5 m), (6, modelCheck6 m), (7, modelCheck7 m), (8, modelCheck8 m),
       (9, modelCheck9 bs m)]

/-- The near-memory bytes that an image takes beyond far memory (R182, R197): D dies. -/
def modelNearBytes (m : Model) (dies : Nat) : Nat :=
  (m.descs.map fun d =>
    if d.cls = 1 then descBytes d
    else if d.cls = 0 then (if d.placement = 3 then 0 else if d.placement = 0 then descBytes d * dies else descBytes d) else 0).sum

/-- A descriptor's data is placed in far memory, or in near memory (R182, R197). -/
def Desc.isFar (d : Desc) : Bool := d.cls == 0 && d.placement == 3
def Desc.isNear (d : Desc) : Bool := d.cls == 1 || (d.cls == 0 && d.placement != 3)

/-- The region that holds descriptor n's data and its offset there: the tensors of a tier lie one after the other (log entry 134). -/
def descPlace (m : Model) (n : Nat) : Option (Nat × Nat) :=
  match m.descs[n]? with
  | none => none
  | some d =>
    let before := m.descs.take n
    if d.isFar then some (m.farRegion, ((before.filter Desc.isFar).map descBytes).sum)
    else if d.isNear then some (m.nearRegion, ((before.filter Desc.isNear).map descBytes).sum)
    else none

/-- The far-memory bytes that an image takes (R197). -/
def modelFarBytes (m : Model) : Nat :=
  (m.descs.map fun d => if d.cls = 0 ∧ d.placement = 3 then descBytes d else 0).sum

end Sys2Proof.Machine
end

