-- ==== Sys2Proof/Machine/Tier.lean ====
section
/-!
DEFINITION. The operations of the memory tiers (12_memory_tiers.md): the far-memory map (R346), tiles and near copies (R335 to
R341), the write buffer (R355 to R357), poison (R348 to R352), and the space that objects and regions take (R339, R343).
-/

namespace Sys2Proof.Machine

/-! ### Pieces of a byte memory -/

/-- The bytes from a for n, by offset from a. -/
def memSlice (m : Mem) (a n : Nat) : Mem :=
  (m.filter (fun c => decide (a ≤ c.1) && decide (c.1 < a + n))).map (fun c => (c.1 - a, c.2))

/-- The memory with its bytes from a for n replaced by a piece that lies by offset from a. -/
def memReplace (m : Mem) (a n : Nat) (piece : Mem) : Mem :=
  m.filter (fun c => decide (c.1 < a)) ++ (piece.filter (fun c => decide (c.1 < n))).map (fun c => (a + c.1, c.2))
    ++ m.filter (fun c => decide (a + n ≤ c.1))

/-! ### Far memory (R346) -/

/-- Serving ports, ascending. -/
def servingPorts (s : State) : List Nat :=
  (List.range (Config.farPorts s.part)).filter (fun p => (farPortOf s p).serving)

/-- FM_TOTAL_GIB. -/
def farTotalGib (s : State) : Nat := (s.mem.mapPorts.map (fun p => (farPortOf s p).capacityGib)).sum

/-- Concatenated ports: the port and offset of an address. -/
def concatPort (s : State) : List Nat → Nat → Option (Nat × Nat)
  | [], _ => none
  | p :: ps, a =>
    let c := (farPortOf s p).capacityGib * 2 ^ 30
    if a < c then some (p, a) else concatPort s ps (a - c)

/-- The port and the offset on it of a far address (R346). -/
def farPlace (s : State) (a : Nat) : Option (Nat × Nat) :=
  let n := s.mem.mapPorts.length
  if n = 0 ∨ farTotalGib s * 2 ^ 30 ≤ a then none
  else if s.mem.mapInterleaved then
    some (s.mem.mapPorts.getD (a / 4096 % n) 0, a / 4096 / n * 4096 + a % 4096)
  else concatPort s s.mem.mapPorts a

/-- The map over the serving ports: interleaved when FM_INTERLEAVE is 1 and they number 1, 2 or 4 of equal capacity. -/
def buildMap (s : State) : State :=
  let ps := servingPorts s
  let equal := ps.all (fun p => (farPortOf s p).capacityGib == (farPortOf s (ps.headD 0)).capacityGib)
  let want := bitOf s.mem.ctl 0
  let inter := want && equal && (ps.length == 1 || ps.length == 2 || ps.length == 4)
  { s with mem := { s.mem with
      mapPorts := ps, mapInterleaved := inter, mapValid := true, fallback := want && !inter } }

/-! ### Fields of a region -/

def Region.tier (r : Region) : Nat := fieldOf r.base 63 62
def Region.lower (r : Region) : Nat := fieldOf r.base 57 12 * 4096
def Region.bytes (r : Region) : Nat := fieldOf r.size 47 12 * 4096
def Region.nearMib (r : Region) : Nat := fieldOf r.cfg 47 16
def Region.partn (r : Region) : Nat := fieldOf r.cfg 15 12
def Region.elem (r : Region) : Nat := fieldOf r.cfg 11 10
def Region.writeBack (r : Region) : Bool := fieldOf r.cfg 1 0 == 1
/-- Tile size in bytes (R335). -/
def Region.tileBytes (r : Region) : Nat := [4096, 2048, 8192, 16384].getD r.elem 4096
/-- The region serves accesses: ACTIVE, or FLUSHING, in which it serves throughout (R342). -/
def Region.serves (r : Region) : Bool := r.st == .active || r.st == .flushing

/-- A region uses far memory: it is not DISABLED and its lower tier is far memory. -/
def usesFar (r : Region) : Bool := r.st != .disabled && r.tier == 1

/-- Some region, of software or of the device, uses far memory (R346). -/
def farInUse (s : State) : Bool := s.mem.regions.any (fun x => usesFar x.2)

/-! ### The lower tier -/

/-- Bytes of the lower tier and its poisoned 32-byte words, by offset from o; o and n are multiples of 64. -/
def lowerRead (s : State) (r : Region) (o n : Nat) : Mem × List Nat :=
  let a := r.lower + o
  match r.tier with
  | 1 =>
    (memSlice s.mem.far a n,
     (List.range (n / 32)).filter (fun w => s.mem.farPoison.contains ((a + 32 * w) / 64 * 64)))
  | 2 =>
    (memSlice s.mem.host a n,
     (List.range (n / 32)).filter (fun w => (firstCovered s.mem.hostBad (a + 32 * w) (a + 32 * w + 32)).isSome))
  | _ => ([], [])

/-- Ranges (address, length) without their parts inside a range. -/
def cutRange (a n : Nat) (rs : List (Nat × Nat)) : List (Nat × Nat) :=
  rs.flatMap (fun r =>
    if r.1 + r.2 ≤ a ∨ a + n ≤ r.1 then [r]
    else (if r.1 < a then [(r.1, a - r.1)] else []) ++ (if a + n < r.1 + r.2 then [(a + n, r.1 + r.2 - (a + n))] else []))

/-- Bytes written to the lower tier: a poisoned 32-byte word poisons its whole 64-byte far line, and goes to the host with EP set
(R348, R352). -/
def lowerWrite (s : State) (r : Region) (o n : Nat) (piece : Mem) (poison : List Nat) : State :=
  let a := r.lower + o
  match r.tier with
  | 1 =>
    let lines := (poison.map (fun w => (a + 32 * w) / 64 * 64)).dedup
    { s with mem := { s.mem with
        far := memReplace s.mem.far a n piece
        farPoison := s.mem.farPoison.filter (fun l => decide (l < a) || decide (a + n ≤ l)) ++ lines } }
  | 2 =>
    { s with mem := { s.mem with
        host := memReplace s.mem.host a n piece
        hostBad := cutRange a n s.mem.hostBad ++ poison.map (fun w => (a + 32 * w, 32)) } }
  | _ => s

/-! ### Tiles of the near copy (R337 to R340) -/

/-- A dirty tile is written back alone: its dirty bit clears as it is read (R338). -/
def writeBackOne (s : State) (n t : Nat) : State :=
  let r := regionOf s n
  match slookup r.near t with
  | some x =>
    if x.dirty then
      let s1 := lowerWrite s r (t * r.tileBytes) r.tileBytes x.data x.poison
      setRegion s1 n { regionOf s1 n with near := sset r.near t { x with dirty := false } }
    else s
  | none => s

/-- A dirty tile is written back. A tile of 2 KiB goes with the other half of its aligned 4 KiB unit, so that the lower tier never holds a
unit half new (R357). -/
def writeBackTile (s : State) (n t : Nat) : State :=
  if (regionOf s n).tileBytes = 2048 ∧ (slookup (regionOf s n).near t).any Tile.dirty then
    writeBackOne (writeBackOne s n (t / 2 * 2)) n (t / 2 * 2 + 1)
  else writeBackOne s n t

/-- A tile leaves the near copy; a dirty one is written back first (R337). -/
def evictTile (s : State) (n t : Nat) : State :=
  let s1 := writeBackTile s n t
  setRegion s1 n { regionOf s1 n with near := serase (regionOf s1 n).near t }

/-- The least recently used tile; a clean one before a dirty one of equal age (R339). -/
def oldestTileOf (r : Region) : Option Nat :=
  (r.near.foldl (fun (acc : Option (Nat × Tile)) x =>
    match acc with
    | none => some x
    | some y => if x.2.lastUse < y.2.lastUse ∨ (x.2.lastUse = y.2.lastUse ∧ y.2.dirty = true ∧ x.2.dirty = false) then some x else acc)
    none).map Prod.fst

/-- Tile t is in the near copy and was used now: a missing tile is read from the lower tier, after the oldest has made room. -/
def fillTile (s : State) (n t : Nat) : State :=
  let r := regionOf s n
  let clock := s.mem.useClock + 1
  let s0 := { s with mem := { s.mem with useClock := clock } }
  match slookup r.near t with
  | some x => setRegion s0 n { r with near := sset r.near t { x with lastUse := clock } }
  | none =>
    let full := r.tier != 0 && decide (r.nearMib * 2 ^ 20 / r.tileBytes ≤ r.near.length)
    let s1 := match (if full then oldestTileOf r else none) with | some v => evictTile s0 n v | none => s0
    let r1 := regionOf s1 n
    let low := lowerRead s1 r1 (t * r.tileBytes) r.tileBytes
    setRegion s1 n { r1 with near := sset r1.near t { data := low.1, dirty := false, lastUse := clock, poison := low.2 } }

/-- Bytes of a tile written from offset o: a word the write covers whole loses its poison, a poisoned word it covers in part keeps
it (R351); pois lists the words of the data that are poisoned themselves. -/
def tileWrite (x : Tile) (o : Nat) (bs : List Byte) (pois : List Nat) (dirty : Bool) : Tile :=
  let hi := o + bs.length
  { x with
    data := writeBytes x.data o bs
    dirty := x.dirty || dirty
    poison := x.poison.filter (fun w => !(decide (o ≤ 32 * w) && decide (32 * w + 32 ≤ hi))) ++ pois }

/-- The parts of a byte range that lie in each tile: tile, offset in it, length. -/
def tileSpans (tb : Nat) : Nat → Nat → Nat → List (Nat × Nat × Nat)
  | 0, _, _ => []
  | f + 1, o, n =>
    if n = 0 then []
    else
      let k := min n (tb - o % tb)
      (o / tb, o % tb, k) :: tileSpans tb f (o + k) (n - k)

/-- Bytes written into a region's near copy, the dirty bit of each tile set or left. -/
def storeTiles (dirty : Bool) (s : State) (n o : Nat) (bs : List Byte) (pois : List Nat) : State :=
  let r := regionOf s n
  ((tileSpans r.tileBytes (bs.length + 1) o bs.length).foldl (fun (acc : State × Nat) p =>
    let s1 := fillTile acc.1 n p.1
    let r1 := regionOf s1 n
    let part := (bs.drop acc.2).take p.2.2
    let words := (pois.filter (fun w => decide (o + acc.2 ≤ 32 * w + 31) && decide (32 * w < o + acc.2 + p.2.2))).map
      (fun w => w - p.1 * r.tileBytes / 32)
    let x := tileWrite (sgetD r1.near p.1 {}) p.2.1 part words dirty
    (setRegion s1 n { r1 with near := sset r1.near p.1 x }, acc.2 + p.2.2)) (s, 0)).1

/-- A write by the device into a region's near copy (WRITE_BACK), which sets the dirty bit of each tile. -/
def regionStore (s : State) (n o : Nat) (bs : List Byte) (pois : List Nat) : State := storeTiles true s n o bs pois

/-- A write that goes to the lower tier of a READ_ONLY_BELOW region, with each tile it touches in the near copy updated (R337). -/
def lowerStore (s : State) (n o : Nat) (bs : List Byte) (pois : List Nat) : State :=
  let r := regionOf s n
  ((tileSpans r.tileBytes (bs.length + 1) o bs.length).foldl (fun (acc : State × Nat) p =>
    let part := (bs.drop acc.2).take p.2.2
    let words := (pois.filter (fun w => decide (o + acc.2 ≤ 32 * w + 31) && decide (32 * w < o + acc.2 + p.2.2))).map
      (fun w => w - p.1 * r.tileBytes / 32)
    let low := lowerRead acc.1 r (p.1 * r.tileBytes) r.tileBytes
    let x := tileWrite { data := low.1, poison := low.2 } p.2.1 part words false
    let s1 := lowerWrite acc.1 r (p.1 * r.tileBytes) r.tileBytes x.data x.poison
    let r1 := regionOf s1 n
    (match slookup r1.near p.1 with
     | some y => setRegion s1 n { r1 with near := sset r1.near p.1 (tileWrite y p.2.1 part words false) }
     | none => s1, acc.2 + p.2.2)) (s, 0)).1

/-! ### The write buffer (R355 to R357) -/

/-- Bytes written at offsets of a unit, the later ones winning. -/
def overlay (old new : List (Nat × Byte)) : List (Nat × Byte) := old.filter (fun x => !new.any (fun y => y.1 == x.1)) ++ new

/-- A unit is published: it joins the buffer at its end, or merges into the unit that is still there (R356). Its 64-bit words that the new
bytes cover whole lose their poison (R348, R351). -/
def publishUnit (u : WbUnit) (s : State) : State :=
  let same := fun x : WbUnit => x.region == u.region && x.unit == u.unit
  let wb :=
    if s.mem.wb.any same then
      s.mem.wb.map (fun x =>
        if same x then
          { x with
            bytes := overlay x.bytes u.bytes
            poison := x.poison.filter (fun w => !(List.range 8).all (fun i => u.bytes.any (fun b => b.1 == 8 * w + i))) ++ u.poison }
        else x)
    else s.mem.wb ++ [u]
  { s with mem := { s.mem with wb := wb } }

/-- Runs of neighbouring offsets of a unit, each with its bytes. -/
def runsOf : List (Nat × Byte) → List (Nat × List Byte)
  | [] => []
  | (o, b) :: rest =>
    match runsOf rest with
    | (o2, bs) :: more => if o2 = o + 1 then (o, b :: bs) :: more else (o, [b]) :: (o2, bs) :: more
    | [] => [(o, [b])]

/-- The oldest published unit drains to its region (R356, R337). -/
def drainUnit (u : WbUnit) (s : State) : State :=
  let r := regionOf s u.region
  let sorted := sortBy (fun a b : Nat × Byte => decide (a.1 < b.1)) u.bytes
  let words := (u.poison.map (fun w => u.unit * 128 + w / 4)).dedup
  if r.serves then
    (runsOf sorted).foldl (fun t p =>
      if r.writeBack || r.tier == 0 then regionStore t u.region (4096 * u.unit + p.1) p.2 words
      else lowerStore t u.region (4096 * u.unit + p.1) p.2 words) s
  else s

/-- Bytes published at a commit point, in 4 KiB units from an offset of a region (R355, R356). What the buffer has no space for is staged in
the request's working space and goes by the same rules; the list holds it behind the buffer's 16,384 units. -/
def publishBytes (n o : Nat) (bs : List Byte) (s : State) : State :=
  ((tileSpans 4096 (bs.length + 1) o bs.length).foldl (fun (acc : State × Nat) p =>
    (publishUnit ⟨n, p.1, ((bs.drop acc.2).take p.2.2).zipIdx.map (fun x => (p.2.1 + x.2, x.1)), []⟩ acc.1, acc.2 + p.2.2)) (s, 0)).1

/-- Every published unit drains, in publication order (R358). -/
def drainAll (s : State) : State :=
  (s.mem.wb.foldl (fun t u => drainUnit u t) { s with mem := { s.mem with wb := [] } })

/-! ### Reading a region -/

/-- A byte of a region as a reader sees it: from the write buffer while its unit is there, else from the near copy (R338, R356). -/
def regionByte (s : State) (n o : Nat) : Byte :=
  let r := regionOf s n
  match (s.mem.wb.find? (fun u => u.region == n && u.unit == o / 4096)).bind
      (fun u => u.bytes.find? (fun b => b.1 == o % 4096)) with
  | some b => b.2
  | none => readByte (sgetD r.near (o / r.tileBytes) {}).data (o % r.tileBytes)

/-- The 32-byte word at offset 32w of a region is poisoned: in the write buffer, whose words are 64 bits, or in the near copy under bytes that
the buffer does not cover whole. -/
def regionPoison (s : State) (n w : Nat) : Bool :=
  let r := regionOf s n
  match s.mem.wb.find? (fun u => u.region == n && u.unit == w / 128 && u.bytes.any (fun b => b.1 / 32 == w % 128)) with
  | some u => u.poison.any (fun x => x / 4 == w % 128) ||
      ((sgetD r.near (32 * w / r.tileBytes) {}).poison.contains (w % (r.tileBytes / 32))
        && !(List.range 32).all (fun i => u.bytes.any (fun b => b.1 == 32 * (w % 128) + i)))
  | none => (sgetD r.near (32 * w / r.tileBytes) {}).poison.contains (w % (r.tileBytes / 32))

/-- The tiles of a range are brought into the near copy. -/
def touchRange (s : State) (n o len : Nat) : State :=
  (tileSpans (regionOf s n).tileBytes (len + 1) o len).foldl (fun t p => fillTile t n p.1) s

/-- A read of a range of a region, tile by tile: each tile is brought in and read before the next may take its place (R339). Its bytes, the
offset of its first poisoned word, and the state with the tiles it brought in. -/
def readSpans (n : Nat) (tb : Nat) : List (Nat × Nat × Nat) → State → (List Byte × Option Nat) × State
  | [], s => (([], none), s)
  | p :: ps, s =>
    let s1 := fillTile s n p.1
    let o := p.1 * tb + p.2.1
    let words := (List.range (ceilDiv (o % 32 + p.2.2) 32)).map (o / 32 + ·)
    let r := readSpans n tb ps s1
    (((List.range p.2.2).map (fun i => regionByte s1 n (o + i)) ++ r.1.1, ((words.find? (regionPoison s1 n)).map (32 * ·)).or r.1.2), r.2)

/-- A read of a range of a region (R338). A FAILED region returns poison (R347). -/
def regionRead (s : State) (n o len : Nat) : (List Byte × Option Nat) × State :=
  if (regionOf s n).st = .failed then ((List.replicate len 0, if len = 0 then none else some (32 * (o / 32))), s)
  else readSpans n (regionOf s n).tileBytes (tileSpans (regionOf s n).tileBytes (len + 1) o len) s

/-- The offset of the first poisoned word of a range of a region, as its near copy, its lower tier and its state have it, without a tile
being moved. -/
def rangePoison (s : State) (n o len : Nat) : Option Nat :=
  let r := regionOf s n
  let tb := r.tileBytes
  let near := r.near.flatMap (fun x => x.2.poison.map (fun w => x.1 * tb + 32 * w))
  let low := if r.tier = 1 then (s.mem.farPoison.filter (fun l => decide (r.lower ≤ l) && decide (l < r.lower + r.bytes)
    && (slookup r.near ((l - r.lower) / tb)).isNone)).flatMap (fun l => [l - r.lower, l - r.lower + 32]) else []
  if r.st = .failed then (if len = 0 then none else some (32 * (o / 32)))
  else ((near ++ low).filter (fun a => decide (o < a + 32) && decide (a < o + len))).min?

/-- The place of an offset of a region as an error record names it: its space and address. The near address of a region without a lower
tier is its placement's, which the manual does not give: a free value by region and offset (log entry 17). -/
def placeOf (s : State) (n off : Nat) : Nat × Nat :=
  let r := regionOf s n
  if r.tier = 0 then (1, (Config.nearAddress n off).toNat) else (r.tier + 1, r.lower + off)

/-- A prefetch of a tile: one that the near copy lacks is read, and dropped again if it carries poison (R60). -/
def prefetchTile (n t : Nat) (s : State) : State :=
  if (regionOf s n).st = .failed ∨ (slookup (regionOf s n).near t).isSome then s
  else
    let s1 := fillTile s n t
    if ((slookup (regionOf s1 n).near t).map (fun x => x.poison.isEmpty)).getD true then s1
    else setRegion s1 n { regionOf s1 n with near := serase (regionOf s1 n).near t }

/-- The tiles of a region that a range touches. -/
def rangeTiles (s : State) (n o len : Nat) : List Nat := (tileSpans (regionOf s n).tileBytes (len + 1) o len).map Prod.fst

/-! ### The device's own regions (R336, R343; log entry 134) -/

/-- The device's regions that every package has: the KV page pool, working space, the text-object area and the trace buffer. -/
def kvRegion : Nat := 0
def workRegion : Nat := 1
def textRegion : Nat := 2
def traceRegion : Nat := 3

/-- A region of the device over bytes of a tier, ACTIVE. -/
def devRegion (tier base bytes elem mode : Nat) : Region :=
  let n := alignUp bytes 4096
  { base := withField (withField 0 63 62 tier) 57 12 (base / 4096), size := withField 0 47 12 (n / 4096)
    cfg := withField (withField (withField 0 47 16 (if tier = 0 then ceilDiv n (2 ^ 20) else 64)) 11 10 elem) 1 0 mode
    st := .active, near := [] }

/-- The lowest region of the device that is not in use, or past the last one the lowest number from 256 up. -/
def freeKey (s : State) : Nat :=
  let free := fun k => (regionOf s k).st == .disabled
  (((List.range 64).drop 4).find? free).getD ((((List.range (s.mem.regions.length + 1)).map (256 + ·)).find? free).getD noRegion)

/-- A region is made for bytes that the device places; none is made for none. -/
def addRegion (tier base bytes elem mode : Nat) (s : State) : Nat × State :=
  if bytes = 0 then (noRegion, s) else (freeKey s, setRegion s (freeKey s) (devRegion tier base bytes elem mode))

/-- The content that the device gives a region of its own as it places it: in the lower tier, or in the near copy of one that has none. -/
def initRegion (n o : Nat) (bs : List Byte) (s : State) : State :=
  if bs.isEmpty then s
  else if (regionOf s n).tier = 0 then storeTiles false s n o bs []
  else lowerStore s n o bs []

/-- The regions that every package has, made as near memory comes into use (R334, R336, R515). -/
def baseRegions (s : State) : State :=
  [(kvRegion, s.srv.kvPoolMib * 2 ^ 20), (workRegion, Config.nearGiB s.part * 2 ^ 30 - s.srv.kvPoolMib * 2 ^ 20 - 2 ^ 28 - 2 ^ 32),
    (textRegion, 2 ^ 32), (traceRegion, 2 ^ 28)].foldl (fun t x => setRegion t x.1 (devRegion 0 0 x.2 0 1)) s

/-! ### Space -/

/-- Pseudo-channels of partition p, of 64: those of its PC_MASK; partition 0 holds what no other claims (R314). -/
def partChannels (s : State) (p : Nat) : Nat :=
  if p = 0 then 64 - (s.srv.partitions.map (fun x => popCount x.2.pcMask 64)).sum
  else popCount (sgetD s.srv.partitions p {}).pcMask 64

/-- The partition of a function (R314). -/
def partOf (s : State) (f : Nat) : Nat := ((s.srv.partitions.find? (fun x => hasBit x.2.functions f)).map Prod.fst).getD 0

/-- The KV pool of a partition in MiB (R314). -/
def quotaMib (s : State) (p : Nat) : Nat :=
  if p = 0 then s.srv.kvPoolMib - (s.srv.partitions.map (fun x => x.2.quotaMib)).sum
  else (sgetD s.srv.partitions p {}).quotaMib

/-- Rows of an embedding table that this package holds: those r with r mod SHARD_COUNT = SHARD_INDEX (R366). -/
def Table.heldRows (t : Table) : Nat := (t.rows + t.shardCount - 1 - t.shardIndex) / t.shardCount

/-- Bytes of the rows that this package holds (R361, R366). -/
def Table.bytes (t : Table) : Nat := t.heldRows * t.rowBytes

/-- Near bytes that a table takes: each die's copy counts, a FAR table takes far memory, a COMPOSED one holds no rows (R361, R367). -/
def tableNear (s : State) (t : Table) : Nat :=
  if t.kind ≠ 0 ∨ t.placement = 3 then 0 else t.bytes * (if t.placement = 0 then Config.dies s.part else 1)

/-- Near bytes that the regions given take where they lie in near memory, and the near copies of those that do not. -/
def regionNear (s : State) (ks : List Nat) : Nat :=
  (ks.dedup.map (fun k => let r := regionOf s k; if r.st = .disabled then 0 else if r.tier = 0 then r.bytes else r.nearMib * 2 ^ 20)).sum

/-- Near bytes that objects take: models, indexes with the FULL and side-list regions they share between epochs, tables (R197, R210, R367). -/
def placedNear (s : State) (ms : List Model) (xs : List Index) (ts : List Table) : Nat :=
  (ms.map (fun m => modelNearBytes m (Config.dies s.part))).sum + (xs.map indexNearBytes).sum + (ts.map (tableNear s)).sum
    + regionNear s (ms.map Model.farRegion ++ xs.flatMap (fun x => [x.fullRegion, x.sideRegion])
        ++ (ts.filter (fun t => t.placement == 3)).map Table.region)

/-- Near bytes that the objects of partition 0 take, with the trace buffer and the text-object area (R82, R334, R515). -/
def objectNear (s : State) : Nat := placedNear s s.obj.models s.obj.indexes s.obj.tables + 2 ^ 28 + 2 ^ 32

/-- Near bytes of partition p that are free for regions and objects (R339; log entry 28). -/
def nearFree (s : State) (p : Nat) : Nat :=
  let total := Config.nearGiB s.part * 2 ^ 30 * partChannels s p / 64
  let regions := ((s.mem.regions.filter (fun x => decide (64 ≤ x.1) && decide (x.1 < 256) && x.2.st != .disabled && x.2.partn == p)).map (fun x => x.2.nearMib * 2 ^ 20)).sum
  total - (quotaMib s p * 2 ^ 20 + regions + (if p = 0 then objectNear s else 0))

/-- Ranges of far memory that are taken: regions that are not DISABLED, the device's own among them. -/
def farTaken (s : State) : List (Nat × Nat) := (s.mem.regions.filter (fun x => usesFar x.2)).map (fun x => (x.2.lower, x.2.bytes))

/-- The highest base at which a range of n bytes, in whole 4 KiB units, lies free below the top of far memory (R343). A range
that touches another moves below it. -/
def farFit (taken : List (Nat × Nat)) (n : Nat) : Nat → Nat → Option Nat
  | 0, _ => none
  | f + 1, top =>
    if top < n then none
    else
      match taken.find? (fun r => decide (r.1 < top) && decide (top - n < r.1 + r.2)) with
      | none => some (top - n)
      | some r => farFit taken n f r.1

/-- Far memory is taken for bytes that the device places, as a region of its own; none where there is no room (R343). -/
def addFar (bytes elem mode : Nat) (s : State) : Option (Nat × State) :=
  if bytes = 0 then some (noRegion, s)
  else
    (farFit (farTaken s) (alignUp bytes 4096) ((farTaken s).length + 1) (farTotalGib s * 2 ^ 30)).map
      (fun b => addRegion 1 b bytes elem mode s)

/-! ### Ports of a region -/

/-- Two ranges (address, length) share a byte. -/
def rangesMeet (a n b m : Nat) : Bool := decide (a < b + m) && decide (b < a + n)

/-- Ports of the far-memory map that a far range touches. -/
def rangePorts (s : State) (a n : Nat) : List Nat :=
  let k := s.mem.mapPorts.length
  if s.mem.mapInterleaved then
    ((List.range (min k (n / 4096))).filterMap (fun i => (farPlace s (a + 4096 * i)).map Prod.fst)).dedup
  else
    (s.mem.mapPorts.foldl (fun (acc : List Nat × Nat) p =>
      let c := (farPortOf s p).capacityGib * 2 ^ 30
      (if rangesMeet a n acc.2 c then acc.1 ++ [p] else acc.1, acc.2 + c)) ([], 0)).1

/-- Far-memory ports that a region's range touches. -/
def regionPorts (s : State) (r : Region) : List Nat := if r.tier = 1 then rangePorts s r.lower r.bytes else []

/-- A read of the region waits: a port that holds part of it is being retrained (R347). -/
def portWaits (s : State) (n : Nat) : Bool := (regionPorts s (regionOf s n)).any (fun p => (farPortOf s p).retraining)

end Sys2Proof.Machine
end

