-- ==== Sys2Proof/Machine/Store.lean ====
section
/-!
DEFINITION. The objects the package holds: which object a slot, handle or number names, which objects stay because a request or a
conversation is bound to them (R83, R199, R205, R365), and what an installing commit point changes.
-/

namespace Sys2Proof.Machine

/-! ### Objects by name -/

/-- The vocabulary in a slot (R80). -/
def vocabIn (s : State) (slot : Nat) : Option Vocab :=
  (slookup s.obj.vocabSlot slot).bind (fun o => s.obj.vocabs.find? (fun v => v.oid == o))

/-- The grammar in a slot. -/
def grammarIn (s : State) (slot : Nat) : Option Grammar :=
  (slookup s.obj.grammarSlot slot).bind (fun o => s.obj.grammars.find? (fun g => g.oid == o))

/-- The pack template in a slot (R264). -/
def templateIn (s : State) (slot : Nat) : Option Template :=
  (slookup s.obj.templateSlot slot).bind (fun o => s.obj.templates.find? (fun t => t.oid == o))

/-- The image with a handle (R198). -/
def modelIn (s : State) (handle : Nat) : Option Model :=
  (slookup s.obj.modelHandle handle).bind (fun o => s.obj.models.find? (fun m => m.oid == o))

/-- The index in a slot (R204). -/
def indexIn (s : State) (slot : Nat) : Option Index :=
  (slookup s.obj.indexSlot slot).bind (fun o => s.obj.indexes.find? (fun x => x.oid == o))

/-- The embedding table with a number (R361). -/
def tableIn (s : State) (n : Nat) : Option Table :=
  (slookup s.obj.tableSlot n).bind (fun o => s.obj.tables.find? (fun t => t.oid == o))

/-- Objects by object number, for what a request has bound. -/
def vocabOf (s : State) (oid : Nat) : Vocab := (s.obj.vocabs.find? (fun v => v.oid == oid)).getD {}
def grammarOf (s : State) (oid : Nat) : Grammar := (s.obj.grammars.find? (fun g => g.oid == oid)).getD {}
def templateOf (s : State) (oid : Nat) : Template := (s.obj.templates.find? (fun t => t.oid == oid)).getD {}
def indexOf (s : State) (oid : Nat) : Index := (s.obj.indexes.find? (fun x => x.oid == oid)).getD {}
def tableOf (s : State) (oid : Nat) : Table := (s.obj.tables.find? (fun t => t.oid == oid)).getD {}

/-- An index held, with its content replaced. -/
def setIndex (x : Index) (s : State) : State :=
  { s with obj := { s.obj with indexes := s.obj.indexes.map (fun y => if y.oid == x.oid then x else y) } }

/-- A table held, with its content replaced. -/
def setTable (t : Table) (s : State) : State :=
  { s with obj := { s.obj with tables := s.obj.tables.map (fun y => if y.oid == t.oid then t else y) } }

/-- A model held, with its content replaced. -/
def setModel (m : Model) (s : State) : State :=
  { s with obj := { s.obj with models := s.obj.models.map (fun y => if y.oid == m.oid then m else y) } }

/-- A fresh object number. -/
def takeOid (s : State) : Nat × State := (s.obj.nextOid, { s with obj := { s.obj with nextOid := s.obj.nextOid + 1 } })

/-! ### What stays -/

/-- Objects a pipeline request has bound. -/
def pipeOids (p : Pipe) : List Nat :=
  [p.vocab, p.template, p.grammar, p.embedModel, p.rerankModel, p.genModel, p.draftModel, p.index, p.filter] ++ p.boundTables.map Prod.snd

/-- Objects a request in a slot holds or has bound. -/
def workOids : Work → List Nat
  | .pipe p => pipeOids p
  | .install (.model m) => [m.oid]
  | .install (.index _ (some ix)) => [ix.oid]
  | .install (.table _ t) => [t.oid]
  | .merge o _ => [o]
  | .insert o _ => [o]
  | .delete o _ => [o]
  | .rowWrite o _ => [o]
  | .rowRead o _ _ => [o]
  | _ => []

/-- Objects a conversation has bound (R317). -/
def convOids (c : Conv) : List Nat := [c.genModel, c.draftModel, c.vocab, c.grammarObj]

/-- Every object that a slot, a request or a conversation names. -/
def liveOids (s : State) : List Nat :=
  (s.obj.vocabSlot ++ s.obj.grammarSlot ++ s.obj.templateSlot ++ s.obj.modelHandle ++ s.obj.indexSlot ++ s.obj.tableSlot).map Prod.snd
    ++ s.srv.slots.flatMap (fun x => workOids x.2.work) ++ s.srv.convs.flatMap convOids

/-- The changes that requests in slots will install. -/
def pendingInstalls (s : State) : List Install :=
  s.srv.slots.filterMap (fun x => match x.2.work with | .install i => some i | _ => none)

/-- The regions that objects of each kind hold. -/
def modelRegions (m : Model) : List Nat := [m.nearRegion, m.farRegion]
def indexRegions (x : Index) : List Nat := [x.fullRegion, x.sideRegion, x.nearRegion]

/-- The regions of the device that an object, or one about to be installed, holds. -/
def heldRegions (s : State) : List Nat :=
  s.obj.models.flatMap modelRegions ++ s.obj.indexes.flatMap indexRegions ++ s.obj.tables.map Table.region
    ++ (pendingInstalls s).flatMap (fun i =>
      match i with
      | .model m => modelRegions m
      | .index _ (some x) => indexRegions x
      | .table _ t => [t.region]
      | _ => [])

/-- Regions of the device that no object holds any more are gone, with the space they took and the writes that were still to drain to
them. -/
def dropRegions (s : State) : State :=
  let held := heldRegions s
  let keep := fun k => (decide (64 ≤ k) && decide (k < 256)) || decide (k < 4) || held.contains k
  { s with mem := { s.mem with regions := s.mem.regions.filter (fun x => keep x.1), wb := s.mem.wb.filter (fun u => keep u.region) } }

/-- Objects that nothing names are given up, with the regions they hold. -/
def collect (s : State) : State :=
  let live := liveOids s
  dropRegions { s with obj := { s.obj with
      vocabs := s.obj.vocabs.filter (fun x => live.contains x.oid)
      grammars := s.obj.grammars.filter (fun x => live.contains x.oid)
      templates := s.obj.templates.filter (fun x => live.contains x.oid)
      models := s.obj.models.filter (fun x => live.contains x.oid)
      indexes := s.obj.indexes.filter (fun x => live.contains x.oid)
      tables := s.obj.tables.filter (fun x => live.contains x.oid) } }

/-! ### Space for objects in flight -/

/-- Bytes of a text object that an install brings (R82). -/
def installText : Install → Nat
  | .vocab _ (some v) => v.len
  | .grammar _ (some g) => g.len
  | .template _ (some t) => t.len
  | _ => 0

/-- Bytes of the text-object area in use, by objects held and by loads in flight (R82). -/
def textBytes (s : State) : Nat :=
  (s.obj.vocabs.map Vocab.len).sum + (s.obj.grammars.map Grammar.len).sum + (s.obj.templates.map Template.len).sum
    + ((pendingInstalls s).map installText).sum

/-- A text object of n bytes fits beside those held (R82). -/
def textFits (n : Nat) (s : State) : Bool := decide (textBytes s + n ≤ 2 ^ 32)

/-- Near bytes of partition 0 that a new object may take: loads in flight have taken theirs. -/
def nearRoom (s : State) : Nat :=
  nearFree s 0 - ((pendingInstalls s).map (fun i =>
    match i with
    | .model m => placedNear s [m] [] []
    | .index _ (some ix) => placedNear s [] [ix] []
    | .table _ t => placedNear s [] [] [t]
    | _ => 0)).sum

/-- Images that count toward the 64 of R198. -/
def modelCount (s : State) : Nat :=
  s.obj.models.length + (pendingInstalls s).countP (fun i => match i with | .model _ => true | _ => false)

/-- The lowest handle above the last one that is not in use, wrapping from 65,535 to 1 (R198). -/
def nextHandle (used : List Nat) : Nat → Nat → Nat
  | 0, h => h
  | f + 1, h =>
    let n := if 65535 ≤ h then 1 else h + 1
    if used.contains n then nextHandle used f n else n

/-- The ranges of the text-object area that its objects take. -/
def textRanges (s : State) : List (Nat × Nat) :=
  s.obj.vocabs.map (fun v => (v.place, v.len)) ++ s.obj.grammars.map (fun g => (g.place, g.len))
    ++ s.obj.templates.map (fun t => (t.place, t.len))

/-- The place of a text object of n bytes: the lowest free one, or past the others where no gap is wide enough (log entry 134). -/
def textPlace (s : State) (n : Nat) : Nat :=
  let rs := textRanges s
  let free := fun a => rs.all (fun r => decide (a + n ≤ r.1) || decide (r.1 + r.2 ≤ a))
  ((sortBy (fun a b => decide (a < b)) (0 :: rs.map (fun r => r.1 + r.2))).find? free).getD 0

/-! ### Installing -/

/-- A slot takes an object, or none. -/
def slotTake (m : Sparse Nat) (slot : Nat) : Option Nat → Sparse Nat
  | some o => sset m slot o
  | none => serase m slot

/-- A partition is set up, changed or disbanded (R314). -/
def setPartition (n functions pc way quota : Nat) (s : State) : State :=
  { s with srv := { s.srv with
      partitions := if quota = 0 then serase s.srv.partitions n else sset s.srv.partitions n ⟨functions, pc, way, quota⟩ } }

/-- REGION, SIZE or MAX_SLOTS would change while a conversation is PAUSED in far memory (R326). -/
def boathouseBusy (s : State) (g size slots : Nat) : Bool :=
  !(s.srv.bhRegion == g && s.srv.bhSize == size && s.srv.bhMaxSlots == slots) && s.srv.convs.any (fun c => c.st == .paused && c.tier == 0)

/-- The change of an installing commit point. -/
def applyInstall (i : Install) (s : State) : State :=
  match i with
  | .vocab slot v =>
    let t := takeOid s
    collect { t.2 with obj := { t.2.obj with
      vocabs := match v with | some x => t.2.obj.vocabs ++ [{ x with oid := t.1, place := textPlace s x.len }] | none => t.2.obj.vocabs
      vocabSlot := slotTake t.2.obj.vocabSlot slot (v.map (fun _ => t.1)) } }
  | .grammar slot g =>
    let t := takeOid s
    collect { t.2 with obj := { t.2.obj with
      grammars := match g with | some x => t.2.obj.grammars ++ [{ x with oid := t.1, place := textPlace s x.len }] | none => t.2.obj.grammars
      grammarSlot := slotTake t.2.obj.grammarSlot slot (g.map (fun _ => t.1)) } }
  | .template slot g =>
    let t := takeOid s
    collect { t.2 with obj := { t.2.obj with
      templates := match g with | some x => t.2.obj.templates ++ [{ x with oid := t.1, place := textPlace s x.len }] | none => t.2.obj.templates
      templateSlot := slotTake t.2.obj.templateSlot slot (g.map (fun _ => t.1)) } }
  | .passage ix p =>
    { s with obj := { s.obj with passages := match p with | some x => sset s.obj.passages ix x | none => serase s.obj.passages ix } }
  | .model m =>
    let used := s.obj.modelHandle.map Prod.fst ++ s.obj.models.map Model.handle
    let h := nextHandle used (used.length + 1) s.obj.lastHandle
    { s with obj := { s.obj with
        models := s.obj.models ++ [{ m with handle := h }]
        modelHandle := sset s.obj.modelHandle h m.oid, lastHandle := h } }
  | .index slot ix =>
    collect { s with obj := { s.obj with
      indexes := s.obj.indexes ++ ix.toList
      indexSlot := slotTake s.obj.indexSlot slot (ix.map Index.oid) } }
  | .table n t => collect { s with obj := { s.obj with tables := s.obj.tables ++ [t], tableSlot := sset s.obj.tableSlot n t.oid } }
  | .tableDelete n => collect { s with obj := { s.obj with tableSlot := serase s.obj.tableSlot n } }
  | .arbitration w a => { s with port := { s.port with arbWeight := w, arbAge := a } }
  | .serving us pw => { s with srv := { s.srv with strokeTargetUs := us, pageWait := pw } }
  | .partition n f pc way q => setPartition n f pc way q s
  | .boathouse r ttl size slots =>
    { s with srv := { s.srv with bhRegion := r, bhTtl := ttl, bhSize := size, bhMaxSlots := slots } }

/-- A request that has not taken its snapshot follows its index to the new epoch; a command that appends to or merges the index
does too, and a merge counts its entries from the new start (R77, R229, R231). -/
def rebindWork (old new folded : Nat) (w : Work) : Work :=
  match w with
  | .pipe p => if p.index = old ∧ p.snapTaken = false then .pipe { p with index := new } else w
  | .merge o n => if o = old then .merge new (n - folded) else w
  | .insert o xs => if o = old then .insert new xs else w
  | .delete o xs => if o = old then .delete new xs else w
  | _ => w

/-- INDEX_MERGE installs the new epoch in every slot that named the old one (R229). -/
def installMerge (old upTo : Nat) (s : State) : State :=
  let ix := indexOf s old
  let n := min upTo ix.side.length
  let t := takeOid s
  let s1 := t.2
  collect { s1 with
    obj := { s1.obj with
      indexes := s1.obj.indexes ++ [{ mergeIndex ix n with oid := t.1 }]
      indexSlot := s1.obj.indexSlot.map (fun x => if x.2 = old then (x.1, t.1) else x) }
    srv := { s1.srv with slots := s1.srv.slots.map (fun x => (x.1, { x.2 with work := rebindWork old t.1 n x.2.work })) } }

/-- The vector of a merged item moves from its side-list slot to its place in FULL, with the poison it carries; one whose id has no place
there stays (R230; log entry 134). -/
def moveVector (o : Nat) (s : State) (it : IxItem) : State :=
  let ix := indexOf s o
  match it.loc with
  | .full _ => s
  | .side j =>
    if (regionOf s ix.fullRegion).bytes < it.id * ix.vec + ix.vec then s
    else
      let r := regionRead s ix.sideRegion (j * ix.vec) ix.vec
      let words := (List.range (ceilDiv ix.vec 32)).filter (fun w => regionPoison r.2 ix.sideRegion (j * ix.vec / 32 + w))
      let at_ := it.id * ix.vec
      let s1 := if (regionOf r.2 ix.fullRegion).tier = 0 then storeTiles false r.2 ix.fullRegion at_ r.1.1 (words.map (at_ / 32 + ·))
        else lowerStore r.2 ix.fullRegion at_ r.1.1 (words.map (at_ / 32 + ·))
      setIndex { ix with items := ix.items.map (fun x => if x.id = it.id then { x with loc := .full it.id } else x) } s1

/-- Vectors that merges have folded move to FULL, for every index whose earlier epochs no request is bound to any more (R230). -/
def moveVectors (s : State) : State :=
  s.obj.indexes.foldl (fun t ix =>
    if s.obj.indexes.countP (fun y => y.fullRegion == ix.fullRegion) = 1 then ix.items.foldl (moveVector ix.oid) t else t) s

/-- The offset of a physical row in the region of the table that holds it (R366, R367). -/
def rowAt (t : Table) (row : Nat) : Nat := row / t.shardCount * t.rowBytes

/-- The bytes of a physical row. A row that another member holds comes over the Novmund links: its bytes are free values (log entry 31). -/
def rowBytesOf (s : State) (n : Nat) (t : Table) (row : Nat) : List Byte :=
  if row % t.shardCount = t.shardIndex then (regionRead s t.region (rowAt t row) t.rowBytes).1.1
  else (List.range t.rowBytes).map (Config.remoteRowByte s.srv.strokeNo n row)

/-- The tiles of a row held here are in the near copy. -/
def touchRow (t : Table) (row : Nat) (s : State) : State :=
  if row % t.shardCount = t.shardIndex then (regionRead s t.region (rowAt t row) t.rowBytes).2 else s

/-- The place of the first poisoned word of a row held here. -/
def rowPoison (s : State) (t : Table) (row : Nat) : Option (Nat × Nat) :=
  if row % t.shardCount = t.shardIndex then (rangePoison s t.region (rowAt t row) t.rowBytes).map (placeOf s t.region) else none

/-! ### Conversations (R316 to R329) -/

/-- A live conversation by its id. Ids are an owner's own; another owner's conversation of the same number answers for R317. -/
def convOf (s : State) (f id : Nat) : Option Conv := s.srv.convs.find? (fun c => c.fn == f && c.id == id)

/-- Some other function holds a live conversation of the id. -/
def convForeign (s : State) (f id : Nat) : Option Conv := s.srv.convs.find? (fun c => c.fn != f && c.id == id)

def setConv (c : Conv) (s : State) : State :=
  { s with srv := { s.srv with
      convs := if s.srv.convs.any (fun x => x.fn == c.fn && x.id == c.id) then
          s.srv.convs.map (fun x => if x.fn == c.fn && x.id == c.id then c else x)
        else s.srv.convs ++ [c] } }

def dropConv (f id : Nat) (s : State) : State :=
  { s with srv := { s.srv with convs := s.srv.convs.filter (fun x => !(x.fn == f && x.id == id)) } }

/-- How an id of the recent table ended. -/
def recentOf (s : State) (f id : Nat) : Option ConvEnd :=
  (s.srv.recent.find? (fun x => x.1 == f && x.2.1 == id)).map (fun x => x.2.2)

/-- An id enters the recent table of 65,536 (R322). -/
def enterRecent (f id : Nat) (how : ConvEnd) (s : State) : State :=
  { s with srv := { s.srv with
      recent := ((f, id, how) :: s.srv.recent.filter (fun x => !(x.1 == f && x.2.1 == id))).take 65536 } }

/-- A conversation ends: its buffers and bindings go, and its id enters the recent table. -/
def endConv (how : ConvEnd) (s : State) (c : Conv) : State := collect (enterRecent c.fn c.id how (dropConv c.fn c.id s))

/-- The calendar's instant has reached (sec, frac). -/
def calReached (s : State) (sec frac : Nat) : Bool :=
  decide (sec < s.cal.sec) || (s.cal.sec == sec && decide (frac ≤ s.cal.frac))

/-- A conversation holds a slot whose expiry runs (R327, R328). -/
def expires (c : Conv) : Bool := c.st == .paused && !c.expiryCancelled

/-- The conversations whose expiry instant the present calendar time has reached (R327, R328). -/
def dueConvs (s : State) : List Conv := s.srv.convs.filter (fun c => expires c && calReached s c.expirySec c.expiryFrac)

/-- They are ended. -/
def applyExpiry (s : State) : State := (dueConvs s).foldl (endConv .expired) s

/-- Conversations of a function that no request holds are released (R325). -/
def releaseConvs (f : Nat) (s : State) : State :=
  (s.srv.convs.filter (fun c => c.fn == f && (c.st == .open || c.st == .paused))).foldl (endConv .released) s

/-- Once no request is left that a function-level reset has ended, the function's conversations are released (R325). -/
def settleReset (f : Nat) (s : State) : State :=
  if s.srv.releasing.contains f && !s.srv.slots.any (fun x => x.2.fn == f && x.2.silent) then
    releaseConvs f { s with srv := { s.srv with releasing := s.srv.releasing.filter (· != f) } }
  else s

/-! ### KV pages (R287, R309, R310, R314) -/

/-- KV_BYTES of a model's bindings of the stages given. -/
def kvBytesOf (m : Model) (stages : List Nat) : Nat :=
  (m.binds.filter (fun b => stages.contains b.stage)).foldl (fun acc b => max acc b.kvBytes) 0

/-- Bytes of one page of 64 tokens of a generator and a draft model. -/
def genPageBytes (s : State) (gm dm : Nat) : Nat :=
  64 * (kvBytesOf (modelByOid s gm) [2, 3] + (if dm = 0 then 0 else kvBytesOf (modelByOid s dm) [4]))

/-- Models that draft or are verified take two shadow pages each (R309). -/
def shadowBytes (s : State) (p : Pipe) : Nat :=
  if p.gp.draftLimit = 0 ∨ !(p.gp.srcCopy || (p.gp.srcModel && p.draftModel != 0)) then 0
  else 128 * (kvBytesOf (modelByOid s p.genModel) [2, 3]
    + (if p.gp.srcModel && p.draftModel != 0 then kvBytesOf (modelByOid s p.draftModel) [4] else 0))

/-- KV bytes a request holds. -/
def requestKv (s : State) (r : Request) : Nat :=
  match r.work with
  | .pipe p => if p.gen.pages = 0 then 0 else p.gen.pages * genPageBytes s p.genModel p.draftModel
      + (if p.gen.shadow then shadowBytes s p else 0)
  | _ => 0

/-- A request that generates has taken a conversation: it holds the conversation's pages (R317). -/
def convTaken (s : State) (c : Conv) : Bool :=
  s.srv.slots.any (fun x => x.2.fn == c.fn && (match x.2.work with | .pipe p => p.gen.conv == c.id | _ => false))

/-- KV bytes a conversation holds by itself: while a request has it, the request holds its pages. -/
def convKv (s : State) (c : Conv) : Nat :=
  match c.st with
  | .open => c.pages * genPageBytes s c.genModel c.draftModel
  | .pausing => c.pages * genPageBytes s c.genModel c.draftModel
  | .resuming => if convTaken s c then 0 else c.pages * genPageBytes s c.genModel c.draftModel
  | _ => 0

/-- KV bytes in use in a partition. -/
def kvUsed (s : State) (part : Nat) : Nat :=
  ((s.srv.slots.filter (fun x => partOf s x.2.fn == part)).map (fun x => requestKv s x.2)).sum
    + ((s.srv.convs.filter (fun c => partOf s c.fn == part)).map (convKv s)).sum

/-- KV bytes a function may still take. -/
def kvFree (s : State) (f : Nat) : Nat := quotaMib s (partOf s f) * 2 ^ 20 - kvUsed s (partOf s f)

/-- A chunk has been posted: the conversation takes the request's committed state (R288, R319). -/
def saveConv (f : Nat) (p : Pipe) (s : State) : State :=
  match convOf s f p.gp.convId with
  | none => s
  | some c =>
    setConv { c with
      ctx := p.gen.ctx, count := p.gen.total, seed := p.gp.seed, kvGen := p.gen.kvGen, kvDraft := p.gen.kvDraft
      draftSeen := p.gen.draftSeen, prefilled := p.gen.prefilled, held := p.gen.held, grammar := p.gen.grammar
      genModel := p.genModel, draftModel := p.draftModel, vocab := p.vocab, grammarObj := p.grammar
      pages := ceilDiv p.gen.ctx.length 64
      genPoison := p.gen.genPoison, draftPoison := p.gen.draftPoison } s

end Sys2Proof.Machine
end

