-- ==== Sys2Proof/Machine/Ending.lean ====
section
/-!
DEFINITION. How a request ends: its report (R72), its completion (R390, R392), what becomes of the conversation it holds (R319, R320), the
commands that wait for it (R297, R393), and the drain of a power-state entry (R403).
-/

namespace Sys2Proof.Machine

/-! ### Stages and the report -/

/-- The stages of a request: 0 to 6 as in the stage mask, 7 a GENERIC list, 8 DETOKENIZE. -/
def nextStage (p : Pipe) : Option Nat := p.stages.find? (fun k => p.lastStage == 0xFF || decide (p.lastStage < k))

/-- GENERATE is among the stages. -/
def generates (p : Pipe) : Bool := p.stages.contains 6

/-- c(x): x rounded up to a multiple of 64 (R61). -/
def c64 (x : Nat) : Nat := alignUp x 64

/-- Commands that write the report of R72. -/
def reports (opcode : Nat) : Bool := [0x20, 0x22, 0x23, 0x29].contains opcode

/-- RERANK_REMAIN_NS. -/
def remainField (r : Request) (p : Pipe) : Nat :=
  if r.opcode ≠ 0x20 ∧ p.stages.contains 4 = false then 0
  else if p.deadlineUs = 0 then 0x7FFFFFFF
  else match p.remainNs with
    | none => 0
    | some v => codeOf 32 (max (-(2 ^ 31)) (min 0x7FFFFFFE v))

/-- The 128 bytes of the query report (R72). -/
def reportBytes (r : Request) (p : Pipe) (status : Nat) : List Byte :=
  let res := p.results.length
  let promptAt := 128 + c64 (16 * res)
  let spanAt := promptAt + c64 (4 * p.prompt.length)
  let rr := p.stages.contains 4
  let pk := p.stages.contains 5
  let out := p.frontWritten
  let hold := fun n => min n 0xFFFFFFFF
  leBytes 1 status ++ leBytes 1 p.lastStage
    ++ leBytes 2 (bit (rr && decide (p.nUsed < p.rerankK) && decide (0 < p.nUsed)) + 2 * bit p.truncated + 4 * bit p.late + 8 * bit r.aged
        + 16 * bit p.overrun + 32 * bit p.arith)
    ++ leBytes 2 (if rr then p.rerankK else 0) ++ leBytes 2 (if rr then p.nUsed else 0)
    ++ leBytes 4 p.queryTokens ++ leBytes 4 (if out then res else 0) ++ leBytes 4 (if out then p.prompt.length else 0)
    ++ leBytes 4 (if out then p.spanMap.length else 0)
    ++ leBytes 4 128 ++ leBytes 4 (if pk && out then promptAt else 0) ++ leBytes 4 (if pk && out then spanAt else 0)
    ++ leBytes 4 p.snapshot ++ leBytes 8 p.snapEpoch ++ leBytes 8 r.tFetch
    ++ (List.range 7).flatMap (fun k => leBytes 4 (p.stageEnd.getD k 0xFFFFFFFF))
    ++ leBytes 4 (hold ((r.firstAdmit.getD r.tFetch) - r.tFetch)) ++ leBytes 4 (hold r.deferred) ++ leBytes 4 (hold r.strokes)
    ++ leBytes 4 (hold (if rr then p.estNs else 0)) ++ leBytes 4 (remainField r p)
    ++ leBytes 4 p.prefetchIssued ++ leBytes 4 p.prefetchUsed ++ leBytes 4 (p.snapshot / 2 ^ 32) ++ leBytes 12 0

/-- A stage ends at the commit point of a time (R72). -/
def endStage (r : Request) (k time : Nat) (p : Pipe) : Pipe :=
  let took := time - r.tFetch
  { p with
    lastStage := k
    stageEnd := (if p.stageEnd.isEmpty then List.replicate 7 0xFFFFFFFF else p.stageEnd).set k (min took 0xFFFFFFFE)
    overrun := p.overrun || (p.budgets.getD k 0 != 0 && decide (1000 * p.budgets.getD k 0 < time - p.stageStart))
    started := false }

/-- A time in ns as whole µs, rounded up and saturating (R305). -/
def upUs (ns : Nat) : Nat := min (ceilDiv ns 1000) 0xFFFFFFFF

/-- RESULT of a command that generates (R391, R305); GENERATE adds TOKENS_GENERATED. -/
def genResult (r : Request) (p : Pipe) : List Byte :=
  let g := p.gen
  leBytes 4 (upUs (g.firstAt.getD r.tFetch - r.tFetch)) ++ leBytes 4 (upUs g.tbtMaxNs) ++ leBytes 2 (min g.tbtMisses 0xFFFF)
    ++ leBytes 1 g.endReason ++ leBytes 1 0 ++ (if r.opcode = 0x24 then leBytes 4 g.count else [])

/-- The success status of R73. -/
def successStatus (p : Pipe) : Nat :=
  if p.stages.contains 4 && decide (p.nUsed < p.rerankK) then 1 else if p.truncated then 2 else 0

/-! ### Conversations at a request's end -/

/-- The conversation that a request names, 0 for none (R317). -/
def convName (r : Request) : Nat :=
  match r.work with
  | .pipe p => if generates p then p.gp.convId else 0
  | .pause id _ _ _ _ => id
  | .release id => id
  | .resume id => id
  | _ => 0

/-- The conversation that a request's end leaves (R319, R320, R325). -/
def settleConv (r : Request) (status : Nat) (s : State) : State :=
  match r.work with
  | .pipe p =>
    if p.gen.conv = 0 then s
    else
      match convOf s r.fn p.gp.convId with
      | none => s
      | some c =>
        if r.silent then endConv .released s c
        else if c.st = .resuming then setConv { c with st := .paused } s
        else if status = 0x60 ∨ status = 0x61 then endConv .lost s c
        else if c.ctx.isEmpty then dropConv c.fn c.id s
        else setConv { c with st := .open } s
  | .pause id _ _ _ _ =>
    match convOf s r.fn id with
    | some c => if c.st = .pausing then (if r.silent then endConv .released s c else setConv { c with st := .open } s) else s
    | none => s
  | .resume id =>
    match convOf s r.fn id with
    | some c => if c.st = .resuming then (if r.silent then endConv .released s c else setConv { c with st := .paused } s) else s
    | none => s
  | _ => s

/-! ### Ending -/

/-- A command that stood in progress in the package's own state and ends is in progress no more: a join of a shell, a firmware
activation, a power-state entry (R403, R436, R512). -/
def abandonWork (w : Work) (s : State) : State :=
  match w with
  | .shellJoin => if s.net.shell = .joining then { s with net := { s.net with shell := .solo, shellPkgs := [], joined := [] } } else s
  | .activate _ => { s with boot := { s.boot with act := .idle, activating := false } }
  | .power _ => { s with gov := { s.gov with draining := false } }
  | _ => s

/-- A request has ended in everything but its completion: its report, its conversation and its slot. A request ended by a reset
writes nothing more to host memory (R404). -/
def releaseRequest (n status : Nat) (r : Request) (s : State) : State :=
  let s1 := match r.work with
    | .pipe p => if reports r.opcode && !r.silent then hostWrite s p.outAddr (reportBytes r p status) else s
    | _ => s
  collect (freeSlot (settleConv r status (abandonWork r.work s1)) n)

/-- ARITH_FLAG of a request (R390). -/
def arithOf (r : Request) : Bool := match r.work with | .pipe p => p.arith | _ => false

/-- RESULT: what the command gives, or the generation fields. -/
def resultOf (r : Request) (result : List Byte) : List Byte :=
  match r.work with
  | .pipe p => if generates p then genResult r p else result
  | _ => result

/-- The request in a slot ends with a status: the completion is posted after the report (R74). -/
def endRequest (n status : Nat) (result : List Byte) (s : State) : State :=
  match slotOf s n with
  | none => s
  | some r =>
    let s1 := releaseRequest n status r s
    if r.silent then settleReset r.fn s1
    else
      postCompletion ⟨r.fn, r.ring⟩
        { tag := r.tag, opcode := r.opcode, status := status, aged := r.aged, arith := arithOf r, result := resultOf r result } 1 s1

/-- A request whose entry counts as not fetched: it leaves its slot with nothing done. One that runs on ring 0 ends at the commit point of its
stroke (R302). -/
def unfetch (s : State) (x : Nat × Request) : State :=
  if x.2.ring = 0 ∧ x.2.st = .running then setSlot s x.1 { x.2 with silent := true, aborted := true }
  else collect (freeSlot (settleConv x.2 0x80 (abandonWork x.2.work s)) x.1)

/-- Entries of a ring after a failed one are not processed, even those already read: SQ_HEAD stands just past the failed entry (R398 step 1; log
entry 148). -/
def dropLater (q : RingRef) (seq index : Nat) (s : State) : State :=
  let later := s.srv.slots.filter (fun x => x.2.fn == q.fn && x.2.ring == q.ring && decide (seq < x.2.fetchSeq) && !x.2.silent)
  let waits := fun (h : Hold) => h.fn == q.fn && h.ring == q.ring && decide (seq < h.fetchSeq)
  let n := later.length + s.srv.holds.countP waits
  let s1 := later.foldl unfetch s
  let s2 := { s1 with srv := { s1.srv with holds := s1.srv.holds.filter (fun h => !waits h) } }
  let s3 := setRing s2 q { ringOf s2 q with sqHead := (index + 1) % (ringOf s2 q).sqSize }
  let cq := cqOf s3 q
  setRing s3 cq { ringOf s3 cq with reserved := (ringOf s3 cq).reserved - n }

/-- The request in a slot ends with a command error found after its fetch (R321, R398). -/
def failRequest (n : Nat) (x : CmdErr) (s : State) : State :=
  match slotOf s n with
  | none => s
  | some r =>
    let s1 := releaseRequest n x.status r s
    if r.silent then settleReset r.fn s1
    else failCommand ⟨r.fn, r.ring⟩ r.aged (arithOf r) r.tag r.sqIndex r.opcode x (dropLater ⟨r.fn, r.ring⟩ r.fetchSeq r.sqIndex s1)

/-- The work of a request in a slot, replaced. -/
def setWork (n : Nat) (w : Work) (s : State) : State :=
  match slotOf s n with
  | some r => setSlot s n { r with work := w }
  | none => s

def setPipe (n : Nat) (p : Pipe) (s : State) : State := setWork n (.pipe p) s

/-- The pipeline context in a slot. -/
def pipeOf (s : State) (n : Nat) : Option Pipe :=
  match slotOf s n with
  | some r => (match r.work with | .pipe p => some p | _ => none)
  | none => none

/-! ### Commands that wait (R297, R393) -/

/-- A waiting command may complete: a FENCE when every command fetched earlier from its ring has, an ABORT when its target has. -/
def holdDone (s : State) (h : Hold) : Bool :=
  if h.opcode = 0x3F then
    !s.srv.slots.any (fun x => x.2.fn == h.fn && x.2.ring == h.ring && decide (x.2.fetchSeq < h.fetchSeq) && !x.2.silent)
      && !s.srv.holds.any (fun g => g.fn == h.fn && g.ring == h.ring && decide (g.fetchSeq < h.fetchSeq))
  else if h.opcode = 0x08 then !s.srv.slots.any (fun x => x.2.fetchSeq == h.target)
  else false

/-- A waiting command completes SUCCESS; an ABORT carries its REPLY. -/
def releaseHold (h : Hold) (s : State) : State :=
  let s1 := { s with srv := { s.srv with holds := s.srv.holds.filter (fun g => g.fetchSeq != h.fetchSeq) } }
  postCompletion ⟨h.fn, h.ring⟩ { tag := h.tag, opcode := h.opcode, status := 0, result := if h.opcode = 0x08 then leBytes 1 h.reply else [] }
    1 s1

/-- Waiting commands fetched before the place limit complete in fetch order, in at most f rounds (R390). -/
def settleHolds (limit : Nat) : Nat → State → State
  | 0, s => s
  | f + 1, s =>
    match s.srv.holds.find? (fun h => decide (h.fetchSeq < limit) && holdDone s h) with
    | some h => settleHolds limit f (releaseHold h s)
    | none => s

/-- Every waiting command that may complete does. -/
def settleAll (s : State) : State := settleHolds s.srv.fetchSeq s.srv.holds.length s

/-! ### Power-state entry (R403, R455) -/

/-- The request slots of commands that change the power state. -/
def powerSlots (s : State) : List (Nat × Nat) :=
  s.srv.slots.filterMap (fun x => match x.2.work with | .power t => some (x.1, t) | _ => none)

/-- The state that ENTER_POWER_STATE names: 1 STANDBY, 2 RETAIN. -/
def powerTarget (n : Nat) : PwrState := if n = 2 then .retain else .standby

/-- When every other slot is FREE the command completes, and the entry begins (R403 steps 2 and 4). -/
def drainCheck (s : State) : State :=
  if s.gov.draining && s.srv.slots.length == 1 && s.srv.strokeSince.isNone then
    match powerSlots s with
    | (n, t) :: _ =>
      let s1 := endRequest n 0 [] s
      { s1 with gov := { s1.gov with draining := false, st := .entering, target := powerTarget t } }
    | [] => s
  else s

/-- The DRAIN_MS limit of an ENTER_POWER_STATE entry in ns, 0 meaning 1,000 ms (R391). -/
def drainNs (e : Entry) : Nat := 1000000 * (if entryAt e 12 4 = 0 then 1000 else entryAt e 12 4)

/-- An ENTER_POWER_STATE begins to drain (R403 step 1). -/
def beginDrain (e : Entry) (s : State) : State :=
  { s with gov := { s.gov with
      draining := true, wakeOnDoorbell := hasBit (entryAt e 9 1) 0, force := hasBit (entryAt e 9 1) 1, drainUntil := now s + drainNs e } }

/-- What follows every end of requests outside a commit loop. -/
def settle (s : State) : State := drainCheck (settleAll s)

/-! ### The meaning of an entry's row -/

/-- The entry is one of a row with opcode op, in a ring that can exist (R380). -/
def isRow (q : RingRef) (op : Nat) (e : Entry) : Bool := decide (q.fn < 64) && decide (q.ring < 1024) && entOp e == op

/-- The meaning of an entry's row: ok says that the entry is one of this row. Where the device does not fetch from the ring now,
the entry stays in it and nothing changes. -/
def fetchEntry (ok : Bool) (body : RingRef → Entry → State → Except CmdErr Taken) (q : RingRef) (e : Entry) (s : State) :
    Host.Outcome State Fault Refusal :=
  if ok then
    if canFetch q (entOp e) s then finish s (settle (takeEntry body q e s)) else finish s s
  else .refused .illFormed

end Sys2Proof.Machine
end

