-- ==== Sys2Proof/Machine/Frames.lean ====
section
/-!
DEFINITION. Sending over the Novmund links (R419, R423 to R428): which port a frame leaves by, its header, and the frames that are held
until they are acknowledged.
-/

namespace Sys2Proof.Machine

/-- Ports the part has (R419). -/
def isPort (s : State) (p : Nat) : Bool := decide (p < Config.nlPorts s.part)

/-- Ports by which a frame for package d may leave: those of ROUTE[d] whose links are up and that are not retraining (R421, R428). -/
def routePorts (s : State) (d : Nat) : List Nat :=
  let r := sgetD s.net.route d 0
  if hasBit r 8 then
    (List.range 8).filter (fun p => hasBit r p && isPort s p && (nlPortOf s p).linkUp && !(nlPortOf s p).training)
  else []

/-- The next port of the rotation for package d (R428). -/
def pickPort (s : State) (d : Nat) : Option Nat :=
  let ps := routePorts s d
  ps[sgetD s.net.rotate d 0 % ps.length]?

/-- The source address of a frame that leaves port p of package n: 02-4E-56-00-hi-lo (R423). -/
def srcAddress (p n : Nat) : Nat := 0x024E56000000 + (p * 2048 + n) % 65536

/-- A frame goes out by the next port of its destination's route; with no route it goes nowhere. -/
def transmit (f : Frame) (s : State) : State :=
  match pickPort s f.dst with
  | none => s
  | some p =>
    { s with net := { s.net with
        sent := s.net.sent ++ [(p, { f with srcAddr := srcAddress p s.net.pkgNum })]
        rotate := sset s.net.rotate f.dst (sgetD s.net.rotate f.dst 0 + 1) } }

/-- A frame of this package, before it leaves. -/
def newFrame (s : State) (kind dst shell seq : Nat) (payload : List Byte) (c : Control) : Frame :=
  { version := 1, hops := 4, kind := kind, src := s.net.pkgNum, dst := dst, shell := shell, seq := seq, payload := payload, control := c
    fecOk := true, srcAddr := 0 }

/-- A CONTROL frame to a package (R424: KIND 2, SHELL_ID 0, regatta traffic). -/
def sendControl (dst : Nat) (c : Control) (s : State) : State := transmit (newFrame s 2 dst 0 0 [] c) s

/-- A CONTROL frame to each of several packages, but for this one. -/
def sendControls (ds : List Nat) (c : Control) (s : State) : State :=
  (ds.filter (· != s.net.pkgNum)).foldl (fun t d => sendControl d c t) s

/-- A DATA frame to a package: it takes the next SEQ of the pair and is held until it is acknowledged (R426). -/
def sendData (dst : Nat) (payload : List Byte) (s : State) : State :=
  let seq := sgetD s.net.txSeq dst 0
  let f := newFrame s 0 dst s.net.shellId seq payload .none
  let port := (pickPort s dst).getD 0
  let s1 := transmit f s
  { s1 with net := { s1.net with
      txSeq := sset s1.net.txSeq dst ((seq + 1) % 2 ^ 32)
      unacked := s1.net.unacked ++ [⟨f, port, now s, 1⟩] } }

/-- This package is the lead of its shell; a solo shell's one member is (R434). -/
def isLead (s : State) : Bool := s.net.myMember == 0

end Sys2Proof.Machine
end

