-- ==== Sys2Proof/Machine/Restart.lean ====
section
/-!
DEFINITION. Fault detection and the shell restart (R440 to R442, R462 to R476): what a detected event records, the units under watch
(R470, R472), and the restart and end of a shell.
-/

namespace Sys2Proof.Machine

/-! ### Units under watch (R469 to R474) -/

/-- Physical cores of a crew. -/
def coreNumbers : List Nat := List.range 9

/-- A crew places its cores afresh at step 5 of a restart: cores in TESTING or FAILED leave, the free spare takes a place, and cores
that passed their test rejoin while a place is open (R471, R472). -/
def placeCrew (c : Crew) : Crew :=
  let out := c.failed ||| c.testing
  let stay := (coreNumbers.filter (fun k => hasBit c.active k && !hasBit out k)).foldl setBit 0
  let take := popCount stay 9 < 8 && decide (c.spare < 9) && !hasBit out c.spare
  let act1 := if take then setBit stay c.spare else stay
  let sp1 := if take ∨ (c.spare < 9 ∧ hasBit out c.spare = true) then 15 else c.spare
  let back := (coreNumbers.filter (fun k => hasBit c.rejoin k && !hasBit out k)).foldl (fun (x : Nat × Nat) k =>
    if popCount x.1 9 < 8 then (setBit x.1 k, x.2) else if x.2 = 15 then (x.1, k) else x) (act1, sp1)
  { c with active := back.1, spare := back.2, rejoin := 0 }

/-- The spare and the active cores of a crew chosen afresh: of nine that are not FAILED the highest is the spare (R26, R474). -/
def freshCrew (c : Crew) : Crew :=
  let good := coreNumbers.filter (fun k => !hasBit c.failed k)
  let all := good.foldl setBit 0
  if good.length = 9 then { c with active := clearBit all 8, spare := 8 } else { c with active := all, spare := 15 }

/-- The crew that holds a unit. -/
def unitCrew : UnitRef → Nat
  | .core n => n / 9
  | .crew n => n

/-- A unit is in WATCH. -/
def inWatch (s : State) : UnitRef → Bool
  | .core n => hasBit (crewOf s (n / 9)).watch (n % 9)
  | .crew n => (crewOf s n).sramWatch

/-- A unit is out of placement: TESTING or FAILED. -/
def unitOut (s : State) : UnitRef → Bool
  | .core n => hasBit ((crewOf s (n / 9)).testing ||| (crewOf s (n / 9)).failed) (n % 9)
  | .crew n => (crewOf s n).sramTesting || (crewOf s n).sramFailed

/-- A unit enters WATCH with a clean count of 0, or TESTING from WATCH (R470). -/
def chargeUnit (u : UnitRef) (s : State) : State :=
  if unitOut s u then s
  else
    let c := crewOf s (unitCrew u)
    match u with
    | .core n =>
      let k := n % 9
      if hasBit c.watch k then setCrew s (n / 9) { c with watch := clearBit c.watch k, testing := setBit c.testing k }
      else setCrew s (n / 9) { c with watch := setBit c.watch k, clean := sset c.clean k 0 }
    | .crew n =>
      if c.sramWatch then setCrew s n { c with sramWatch := false, sramTesting := true }
      else setCrew s n { c with sramWatch := true, clean := sset c.clean 9 0 }

/-! ### The shell restart (R440) -/

/-- The requests in slots, in fetch order. -/
def slotsInOrder (s : State) : List (Nat × Request) := sortBy (fun a b => decide (a.2.fetchSeq < b.2.fetchSeq)) s.srv.slots

/-- Every request ends with a status, in fetch order, and each command that waited completes in its place. -/
def endAll (status : Nat) (s : State) : State :=
  let t := (slotsInOrder s).foldl (fun t x => endRequest x.1 status [] (settleHolds x.2.fetchSeq t.srv.holds.length t)) s
  settleAll t

/-- OPEN and ACTIVE conversations end as LOST; paused ones stay (R320, R440). -/
def loseConvs (s : State) : State :=
  (s.srv.convs.filter (fun c => c.st != .paused)).foldl (endConv .lost) s

/-- T0, T1, the hand-off queues, the selection units and the sync objects of every crew are emptied (R440, R441). -/
def clearEngines (s : State) : State :=
  { s with
    cores := []
    crews := s.crews.map (fun x => (x.1, { x.2 with sram := [], sramPoison := [], syncs := [] }))
    net := { s.net with delivered := [] }
    srv := { s.srv with strokeSince := none, admitted := [] }
    gov := { s.gov with estimateUj := [] } }

/-- The record of a crew that has just been retired (R462, R472). -/
def retiredRecord (s : State) (c : Nat) : ErrRec :=
  { cls := 2, action := 2, code := 0x23, unitKind := 2, unit := c, committed := true, detail0 := s.boot.serviceable, detail1 := s.boot.level }

/-- Step 5: the crews place their cores, health is computed, and each crew that this retires leaves a record. -/
def replaceUnits (s : State) : State :=
  let was := (crewList s).filter (fun c => crewState s c != 2)
  let s1 := computeHealth ((crewList s).foldl (fun t c => setCrew t c (placeCrew (crewOf t c))) s)
  (was.filter (fun c => crewState s1 c == 2)).foldl (fun t c => logRecord (retiredRecord t c) none t) s1

/-- R442: requests end, images are unloaded, paused conversations are released, and the package returns to SOLO. -/
def endShell (s : State) : State :=
  let s1 := loseConvs (endAll 0x60 s)
  let s2 := s1.srv.convs.foldl (endConv .released) s1
  collect { s2 with
    obj := { s2.obj with modelHandle := [] }
    srv := { s2.srv with strokeSince := none, admitted := [] }
    net := { s2.net with
      shell := .solo, shellId := 0, memberCount := 1, myMember := 0, shellPkgs := [], joined := [], readyMembers := [] } }

/-- Steps 2 to 5 of R440 on this package. The ninth restart within one second ends the shell. -/
def runRestart (s : State) : State :=
  let times := (now s :: s.net.restarts).filter (fun t => decide (now s < t + 1000000000))
  let s1 := clearEngines (loseConvs (endAll 0x60 { s with
    net := { s.net with shell := .restarting, restarts := times, readyMembers := [] }
    flt := { s.flt with restarts := saturate 0xFF (s.flt.restarts + 1) } }))
  let s2 := replaceUnits { s1 with boot := { s1.boot with dummy := true } }
  let lead := s2.net.shellPkgs.headD s2.net.pkgNum
  let s3 :=
    if isLead s2 then { s2 with net := { s2.net with readyMembers := [0] } }
    else sendControl lead (.ready s2.net.shellId s2.net.myMember) s2
  drainCheck (if 9 ≤ times.length then endShell { s3 with net := { s3.net with restarts := [] } } else s3)

/-- The shell restarts from this member: a restart frame goes to every other member first (R440 step 1). -/
def restartShell (s : State) : State := runRestart (sendControls s.net.shellPkgs (.restart s.net.shellId) s)

/-- The restart that a record asks for: at once, or at the exit of the power state for a record raised outside ACTIVE (R455, R476),
or once the new firmware has drained the event queue (R513). -/
def actOn (restart : Nat) (s : State) : State :=
  if restart = 0 then s
  else
    match s.gov.st with
    | .active => restartShell s
    | _ => { s with gov := { s.gov with deferredRestart := max s.gov.deferredRestart restart } }

/-- The record of a lost event (R462: hub block 6 is the hardware event queue). -/
def lossRecord : ErrRec := { cls := 3, action := 3, code := 0x32, unitKind := 7, unit := 6, detail0 := 4096 }

/-- A hardware event is detected (R462): its record is written, the unit it is charged to moves (R470), the event is latched for the
firmware (R514), and the restart it causes follows. A second attributed event restarts the shell whatever its own action. An event
that finds the queue full is lost to the firmware, which restarts every shell (R475). -/
def detect (r : ErrRec) (who : Option UnitRef) (s : State) : State :=
  let second := match who with | some u => inWatch s u | none => false
  let first := match who with | some u => !inWatch s u && !unitOut s u | none => false
  let s1 := logRecord (if first && r.verdict == 0 then { r with verdict := 1 } else r) who s
  let s2 := match who with | some u => chargeUnit u s1 | none => s1
  let restart := if r.action = 2 ∨ second = true then 1 else if r.action = 3 then 2 else 0
  let l := latchEvent (.error r.code restart) s2
  if l.1 then actOn 2 (logRecord lossRecord none l.2)
  else if l.2.boot.act = .held then l.2
  else actOn restart l.2

/-- An event that the firmware must take: a lost one restarts every shell (R475, R514). -/
def latch (e : Event) (s : State) : State :=
  let l := latchEvent e s
  if l.1 then actOn 2 (logRecord lossRecord none l.2) else l.2

/-- The firmware takes the events that waited, in arrival order (R512 step 4, R513). Boathouse expiries that fell due are applied. -/
def drainEvents (s : State) : State :=
  let evs := s.boot.evq
  let s1 := { s with boot := { s.boot with evq := [] } }
  applyExpiry (evs.foldl (fun t e =>
    match e with
    | .error _ restart => actOn restart t
    | _ => t) s1)

end Sys2Proof.Machine
end

