-- ==== Sys2Proof/Machine/Calendar.lean ====
section
/-!
DEFINITION. The calendar, the timestamp and the clock inputs (19_clocks_reset_time.md): CAL_COMMIT, the latching reads of R493 and R497, the
crystal's tick and trim (R492, R495), the backup domain (R496), and the loss of a clock (R483, R485).
-/

namespace Sys2Proof.Machine

/-! ### Calendar time -/

/-- Calendar time in units of 2^-16 s, 40 bits of seconds. -/
def calUnits (c : Cal) : Nat := c.sec * 65536 + c.frac

/-- The calendar set to a number of units. -/
def setUnits (c : Cal) (n : Nat) : Cal := { c with sec := n / 65536 % 2 ^ 40, frac := n % 65536 }

/-- A write to CAL_CTL: TRIM takes its bits, BATT_LOST clears on a 1, and COMMIT loads the set registers, sets VALID and restarts the
tick phase (R494). -/
def writeCalCtl (w : RegAccess) (c : Cal) : Cal :=
  let c1 := if covers w 15 8 then { c with trim := signedOf 8 (fieldOf (written w) 15 8) } else c
  let c2 := if wrote w 2 then { c1 with battLost := false } else c1
  if wrote w 0 then { c2 with sec := c.setSec, frac := c.setFrac, valid := true } else c2

/-- The calendar of a state replaced. -/
def withCal (c : Cal) (s : State) : State := { s with cal := c }

/-- Expiries that a change of the calendar brings about are applied, unless the package is in RETAIN, where they wait for its exit
(R328, R329), or an activation holds the firmware (R512). -/
def expireAfter (s : State) : State :=
  if s.gov.st = .retain ∨ s.boot.act = .held then s else applyExpiry s

/-- CAL_COMMIT (R494, R328): a write to CAL_CTL with COMMIT set. -/
def execCalCommit (w : RegAccess) (s : State) : Host.Outcome State Fault Refusal :=
  if wrote w 0 then
    if pfWrite w s && s.cal.powered then finishCal s (writeCalCtl w s.cal) (expireAfter (withCal (writeCalCtl w s.cal) s)) else finish s s
  else .refused .illFormed

/-! ### Reads that latch (R493, R497) -/

def holdingOf (c : Cal) : Reader → Holding
  | .host => c.host
  | .cox => c.cox
  | .bmc => c.bmc

def setHolding (c : Cal) (a : Reader) (h : Holding) : Cal :=
  match a with
  | .host => { c with host := h }
  | .cox => { c with cox := h }
  | .bmc => { c with bmc := h }

/-- The data a read returns. -/
def withRead (v : Nat) (s : State) : State := { s with port := { s.port with readData := BitVec.ofNat 64 v } }

/-- A reader reaches the calendar: the host through its port, the cox cores and board management while the package runs. -/
def canRead (a : Reader) (s : State) : Bool := match a with | .host => hostUp s | _ => clocksRun s

/-- CAL_TIME_READ (R493): an access that includes bits 31:0 latches the upper seconds and the fraction; a read of bits 63:32 alone
returns what was latched. -/
def execCalTimeRead (a : Reader) (h : Half) (s : State) : Host.Outcome State Fault Refusal :=
  if canRead a s then
    match h with
    | .high => finish s (withRead (holdingOf s.cal a).secHi s)
    | .low => finishCal s (setHolding s.cal a ⟨true, s.cal.sec / 2 ^ 32, s.cal.frac⟩) (withRead (s.cal.sec % 2 ^ 32) s)
    | .full => finishCal s (setHolding s.cal a ⟨true, s.cal.sec / 2 ^ 32, s.cal.frac⟩) (withRead s.cal.sec s)
  else finish s s

/-- CAL_SUBSEC_READ (R493): the held fraction with HELD, which clears; else the live fraction. Bits 63:32 are reserved, and a read of
them alone reaches neither field. -/
def execCalSubsecRead (a : Reader) (h : Half) (s : State) : Host.Outcome State Fault Refusal :=
  if canRead a s then
    let x := holdingOf s.cal a
    match h with
    | .high => finish s (withRead 0 s)
    | _ =>
      if x.held then finishCal s (setHolding s.cal a { x with held := false }) (withRead (65536 + x.frac) s)
      else finish s (withRead s.cal.frac s)
  else finish s s

/-- TIMESTAMP_READ (R497): an access that includes bits 31:0 latches bits 63:32 for a following read of the upper half. -/
def execTimestampRead (h : Half) (s : State) : Host.Outcome State Fault Refusal :=
  if hostUp s then
    match h with
    | .high => finish s (withRead s.clk.tsHi s)
    | .low => finish s (withRead (s.clk.ts % 2 ^ 32) { s with clk := { s.clk with tsHi := s.clk.ts / 2 ^ 32 } })
    | .full => finish s (withRead s.clk.ts { s with clk := { s.clk with tsHi := s.clk.ts / 2 ^ 32 } })
  else finish s s

/-! ### The crystal (R492, R495) -/

/-- The timestamp's advance at a calendar tick in RETAIN: 30,517 + 37/64 ns, the fraction carried exactly (R498). -/
def retainAdvance (c : Clocks) : Clocks :=
  let n := c.retainFrac + 37
  { c with ts := (c.ts + 30517 + n / 64) % 2 ^ 64, retainFrac := n % 64 }

/-- CALENDAR_TICK (R492): the fraction advances by 2 and carries into the seconds; a tick ends OSC_FAIL. -/
def execCalendarTick (s : State) : Host.Outcome State Fault Refusal :=
  if s.cal.powered then
    let c := setUnits s.cal (calUnits s.cal + 2)
    finishCal s { c with oscFail := false, windowTicks := min (c.windowTicks + 1) (2 ^ 20) }
      (if s.gov.st = .retain ∧ clocksRun s = true then { s with clk := retainAdvance s.clk } else s)
  else finish s s

/-- The calendar after TRIM ticks are added, or |TRIM| ticks omitted. -/
def trimmed (c : Cal) : Cal := setUnits c ((calUnits c : Int) + 2 * c.trim).toNat

/-- TRIM_WINDOW_END (R495). -/
def execTrimWindowEnd (s : State) : Host.Outcome State Fault Refusal :=
  if s.cal.powered then finishCal s { trimmed s.cal with windowTicks := 0 } s else finish s s

/-- OSC_FAIL (R492). -/
def execOscFail (s : State) : Host.Outcome State Fault Refusal :=
  if s.cal.powered then finishCal s { s.cal with oscFail := true } s else finish s s

/-- BATT_LOW (R492): VBAT below 2.2 V. -/
def execBattLow (s : State) : Host.Outcome State Fault Refusal :=
  if s.cal.powered then finishCal s { s.cal with battLow := true } s else finish s s

/-- BATT_LOW_CLEARED (R492): VBAT back above 2.2 V. -/
def execBattLowCleared (s : State) : Host.Outcome State Fault Refusal :=
  if s.cal.powered then finishCal s { s.cal with battLow := false } s else finish s s

/-- BACKUP_POWER_LOSS (R496): the calendar, TRIM and scratch are lost. -/
def execBackupPowerLoss (s : State) : Host.Outcome State Fault Refusal :=
  finishCal s { setSec := s.cal.setSec, setFrac := s.cal.setFrac, battLost := true, powered := false } s

/-- BACKUP_DOMAIN_POWER_UP (R496): the calendar starts at 0 seconds with BATT_LOST set and VALID clear. -/
def execBackupDomainPowerUp (s : State) : Host.Outcome State Fault Refusal :=
  if s.cal.powered then finish s s
  else finishCal s { setSec := s.cal.setSec, setFrac := s.cal.setFrac, battLost := true } s

/-! ### Clocks -/

/-- REF_LOST (R483): every clock but the calendar's stops. -/
def execRefLost (s : State) : Host.Outcome State Fault Refusal :=
  if s.pins.pwrok then finish s { s with clk := { s.clk with refLost := true, stopped := true } } else finish s s

/-- The unit of a clock domain of R486: UNIT_KIND and UNIT of R461. -/
def domainUnit (d : Nat) : Nat × Nat :=
  if 4 ≤ d ∧ d ≤ 11 then (1, d - 4)
  else if 13 ≤ d ∧ d ≤ 16 then (5, d - 13)
  else if 17 ≤ d ∧ d ≤ 24 then (6, d - 17)
  else if 25 ≤ d ∧ d ≤ 40 then (4, d - 25)
  else (0, 0)

/-- The record of a crossing event (R462, R475): a shell restart when the dropped transfer carried committed work. -/
def crossingRecord (code crossing : Nat) (committed : Bool) (d1 : Nat) : ErrRec :=
  let u := domainUnit (crossing % 256)
  { cls := 2, action := if committed then 2 else 0, code := code, unitKind := u.1, unit := u.2, committed := committed, detail0 := crossing
    detail1 := d1 }

/-- CDC_TIMEOUT (R485, R475): the expiry is a hardware timer's, and is latched like every other (R499). -/
def execCdcTimeout (crossing : Nat) (committed : Bool) (s : State) : Host.Outcome State Fault Refusal :=
  if crossing / 256 ≤ 41 ∧ crossing % 256 ≤ 41 then
    if clocksRun s then finish s (detect (crossingRecord 0x31 crossing committed 0) none (latch (.crossing crossing) s)) else finish s s
  else .refused .illFormed

/-! ### The timestamp's own tick -/

/-- The timestamp takes one CLK_TB cycle (R497, R498, R432): it counts 1, at half rate while a negative correction is absorbed, and one
more or one fewer where the rate adjustment has gathered a whole count. -/
def timeTick (c : Clocks) : Clocks :=
  if c.halfDebt ≠ 0 ∧ c.halfPhase = true then { c with halfDebt := c.halfDebt - 1, halfPhase := false }
  else
    let g := c.rateFrac + c.ratePpm
    let n := if 1000000 ≤ g then 2 else if g ≤ -1000000 then 0 else 1
    let g1 := if 1000000 ≤ g then g - 1000000 else if g ≤ -1000000 then g + 1000000 else g
    { c with ts := (c.ts + n) % 2 ^ 64, rateFrac := g1, halfPhase := c.halfDebt != 0 }

/-- What happens while no command waits: one CLK_TB cycle passes, where that clock runs (R497; in RETAIN the calendar's tick advances the
timestamp instead, R498). -/
def idleTick (s : State) : State :=
  if clocksRun s && s.gov.st != .retain then { s with clk := timeTick s.clk } else s

end Sys2Proof.Machine
end

