-- ==== Sys2Proof/Machine/Rings.lean ====
section
/-!
DEFINITION. The host-ring family of commands: the doorbell sweep (R385 to R387), ring commands (R384), ring allocation (R383) and
interrupt moderation (R402).
-/

namespace Sys2Proof.Machine

/-! ### The sweep (R386) -/

/-- The sweep interval in ns that a ring's class selects (FN_SWEEP). -/
def sweepNs (s : State) (f cls : Nat) : Nat := 500 * fieldOf (fnRegs s f).sweep (10 * cls + 9) (10 * cls)

/-- Bit n of the summary bitmap is set by an atomic OR. -/
def setSummary (f n : Nat) (s : State) : State :=
  let a := (fnRegs s f).summary.toNat + n / 8
  hostWrite s a [BitVec.ofNat 8 (setBit (readByte s.mem.host a).toNat (n % 8))]

/-- The completion record of pair n: a consumer index past CQ_TAIL, or at or above the size, is a doorbell error (R387). -/
def readCqRecord (q : RingRef) (idx seq : Nat) (s : State) : State :=
  let r := ringOf s q
  if r.cqRec = some (idx, seq) then s
  else
    let s1 := setRing s q { r with cqRec := some (idx, seq) }
    let n := r.cqSize
    if n ≤ idx ∨ (r.cqTail + n - r.consumer) % n < (idx + n - r.consumer) % n then doorbellError q seq s1
    else setRing s1 q { ringOf s1 q with consumer := idx }

/-- The submission record of pair n (R386, R387). -/
def readSqRecord (q : RingRef) (idx seq : Nat) (s : State) : State :=
  let r := ringOf s q
  if r.sqRec = some (idx, seq) then s
  else
    let s1 := setRing s q { r with sqRec := some (idx, seq) }
    if r.sqSize ≤ idx then doorbellError q seq s1 else setRing s1 q { ringOf s1 q with producer := idx }

/-- A pair is handled: both records are read and taken. -/
def handlePair (q : RingRef) (s : State) : State :=
  let s1 := setRing s q { ringOf s q with handledAt := some (now s), reread := false }
  let bs := readBytes s.mem.host ((fnRegs s q.fn).doorbell.toNat + 16 * q.ring) 16
  readSqRecord q (leAt bs 0 2) (leAt bs 4 4) (readCqRecord q (leAt bs 8 2) (leAt bs 12 4) s1)

/-- The pair's own interval has elapsed since it was last handled. -/
def pairDue (q : RingRef) (s : State) : Bool :=
  match (ringOf s q).handledAt with
  | none => true
  | some t => decide (t + sweepNs s q.fn (ringOf s q).sweepClass ≤ now s)

/-- A flagged pair, or one that RESUME or RESET has asked to be read. In STANDBY and RETAIN pair 0 of the physical function wakes
the device, any other only under WAKE_ON_DOORBELL; else its bit is written back (R386, R403). -/
def sweepPair (f : Nat) (flags : List Nat) (s : State) (n : Nat) : State :=
  let q : RingRef := ⟨f, n⟩
  let r := ringOf s q
  let flagged := flags.contains n
  if !ringExists s q || r.st == .disabled || !(flagged || r.reread) then s
  else if !pairDue q s then (if flagged then setSummary f n s else s)
  else
    let first := f == 0 && n == 0
    match s.gov.st with
    | .active => handlePair q s
    | .exiting => handlePair q s
    | _ =>
      if first then handlePair q (wakeDevice 1 s)
      else if s.gov.wakeOnDoorbell then handlePair q (wakeDevice 2 s)
      else if flagged then setSummary f n s else s

/-- The pairs whose bits a summary has set. -/
def summaryBits (bs : List Byte) : List Nat := (List.range 1024).filter (fun n => hasBit (bs.getD (n / 8) 0).toNat (n % 8))

/-- One sweep of a function: the summary is read and swapped with 0, word by word, and each flagged pair is handled. -/
def sweepFn (f : Nat) (s : State) : State :=
  let a := (fnRegs s f).summary.toNat
  let bs := readBytes s.mem.host a 128
  let s1 := hostWrite s a (List.replicate 128 0)
  let flags := summaryBits bs
  let asked := ((ringsOf s f).filter (fun x => x.2.reread)).map Prod.fst
  (sortBy (fun a b => decide (a < b)) (flags ++ asked.filter (fun n => !flags.contains n))).foldl (sweepPair f flags) s1

/-- SWEEP (R386): the timer of a function runs while it has an ACTIVE ring. The expiry is latched in the event queue (R499). A
summary that cannot be read flags nothing. -/
def execSweep (f : Nat) (s : State) : Host.Outcome State Fault Refusal :=
  if f < 64 then
    if hostUp s && (ringsOf s f).any (fun x => x.2.st == .active)
        && (firstCovered (s.mem.hostFail ++ s.mem.hostBad) (fnRegs s f).summary.toNat ((fnRegs s f).summary.toNat + 128)).isNone then
      finish s (sweepFn f (latch (.sweep f) s))
    else finish s s
  else .refused .illFormed

/-- DOORBELL_ERROR_COMPLETION (R387): a held doorbell error completion is posted into the first slot that frees and that no fetch
has reserved. -/
def execDoorbellErrorCompletion (q : RingRef) (s : State) : Host.Outcome State Fault Refusal :=
  if q.fn < 64 ∧ q.ring < 1024 then
    let r := ringOf s q
    if r.heldErrors != 0 && cqFree (ringOf s (cqOf s q)) != 0 then
      finish s (postCompletion q { tag := 0xFFFFFFFF, opcode := 0, status := 0x14, froze := true } 0
        (setRing s q { r with heldErrors := r.heldErrors - 1 }))
    else finish s s
  else .refused .illFormed

/-! ### Ring commands (R384) -/

/-- A ring command reaches the pair: the host port is up and the pair exists. -/
def ringCmdOk (q : RingRef) (s : State) : Bool := hostUp s && s.boot.ready && ringExists s q && fnPresent s q.fn

/-- CMD_RESULT of a ring command. -/
def setResult (q : RingRef) (n : Nat) (s : State) : State := setRing s q { ringOf s q with result := n }

/-- What ENABLE finds (R384): the result, 0 when it may proceed. CQ_SEL at or above COUNT is out of range. -/
def enableResult (q : RingRef) (s : State) : Nat :=
  let r := ringOf s q
  if r.st ≠ .disabled then 1
  else if !(within 4 16 r.cqLog2 && within 4 16 r.sqLog2 && decide (r.cqSel < allocOf s q.fn)) then 2
  else if r.cqSel ≠ q.ring ∧ (ringOf s ⟨q.fn, r.cqSel⟩).st ≠ .active then 3
  else 0

/-- The pair after ENABLE: slots of the completion ring that entries in flight have reserved stay reserved (R388), and held error completions stay
held (R387). -/
def enabledPair (r : RingPair) : RingPair :=
  { r with
    st := .active, result := 0, sqHead := 0, cqTail := 0, phase := true, errCount := 0, producer := 0, consumer := 0
    handledAt := none, reread := false, sqRec := none, cqRec := none, modCountNow := 0
    modSince := none }

/-- RING_ENABLE (R384). -/
def execRingEnable (q : RingRef) (s : State) : Host.Outcome State Fault Refusal :=
  if q.fn < 64 ∧ q.ring < 1024 then
    if ringCmdOk q s then
      finish s (if enableResult q s = 0 then setRing s q (enabledPair (ringOf s q)) else setResult q (enableResult q s) s)
    else finish s s
  else .refused .illFormed

/-- What DISABLE finds: CQ_IN_USE when another ACTIVE submission ring posts to completion ring n. -/
def disableResult (q : RingRef) (s : State) : Nat :=
  let r := ringOf s q
  if r.st ≠ .active ∧ r.st ≠ .frozen then 1
  else if (ringsOf s q.fn).any (fun x => x.1 != q.ring && x.2.st == .active && x.2.cqSel == q.ring) then 4
  else 0

/-- RING_DISABLE (R384). -/
def execRingDisable (q : RingRef) (s : State) : Host.Outcome State Fault Refusal :=
  if q.fn < 64 ∧ q.ring < 1024 then
    if ringCmdOk q s then
      finish s (if disableResult q s = 0 then setRing s q { ringOf s q with st := .stopping, result := 0 }
        else setResult q (disableResult q s) s)
    else finish s s
  else .refused .illFormed

/-- RING_RESUME (R384). -/
def execRingResume (q : RingRef) (s : State) : Host.Outcome State Fault Refusal :=
  if q.fn < 64 ∧ q.ring < 1024 then
    if ringCmdOk q s then
      finish s (if (ringOf s q).st = .frozen then setRing s q { ringOf s q with st := .active, result := 0, reread := true }
        else setResult q 1 s)
    else finish s s
  else .refused .illFormed

/-- RING_RESET (R384): SQ_HEAD takes the producer index last read, so entries not fetched are never executed. -/
def execRingReset (q : RingRef) (s : State) : Host.Outcome State Fault Refusal :=
  if q.fn < 64 ∧ q.ring < 1024 then
    if ringCmdOk q s then
      let r := ringOf s q
      finish s (if r.st = .active ∨ r.st = .frozen then
          setRing s q { r with st := .active, result := 0, reread := true, sqHead := r.producer }
        else setResult q 1 s)
    else finish s s
  else .refused .illFormed

/-- Requests of a submission ring that hold a slot (IN_FLIGHT). Those that a reset of the function has ended are the ring's no more (R384, R404). -/
def inFlight (s : State) (q : RingRef) : Nat := s.srv.slots.countP (fun x => x.2.fn == q.fn && x.2.ring == q.ring && !x.2.silent)

/-- RING_STOPPED (R384): a STOPPING pair becomes DISABLED once IN_FLIGHT is 0. -/
def execRingStopped (q : RingRef) (s : State) : Host.Outcome State Fault Refusal :=
  if q.fn < 64 ∧ q.ring < 1024 then
    let r := ringOf s q
    if r.st == .stopping && inFlight s q == 0 then
      finish s (setRing s q { r with st := .disabled })
    else finish s s
  else .refused .illFormed

/-! ### RING_ALLOC (R383) -/

/-- The counts that a write to RING_ALLOC[f] would leave. -/
def newAlloc (f : Nat) (w : RegAccess) (s : State) : Sparse Nat :=
  sset s.port.alloc f (fieldOf (merged (BitVec.ofNat 64 (allocOf s f)) w) 10 0)

/-- The three conditions of R383. -/
def allocAllowed (f : Nat) (w : RegAccess) (s : State) : Bool :=
  !s.port.vfEnable && (ringsOf s 0).all (fun x => x.2.st == .disabled)
    && decide (((newAlloc f w s).map Prod.snd).sum ≤ 1024)

/-- RING_ALLOC_WRITE (R383). -/
def execRingAllocWrite (f : Nat) (w : RegAccess) (s : State) : Host.Outcome State Fault Refusal :=
  if f < 64 then
    if pfWrite w s && covers w 10 0 && allocAllowed f w s then
      finish s { s with port := { s.port with alloc := newAlloc f w s } }
    else finish s s
  else .refused .illFormed

/-- FIRST of a function: the sum of COUNT over the functions before it (R383). -/
def firstRing (s : State) (f : Nat) : Nat := ((List.range f).map (allocOf s)).sum

/-! ### Interrupt moderation (R402) -/

/-- INTERRUPT_MODERATION_TIMEOUT (R402): MOD_TIME has passed since the first entry counted on completion ring q, or since the last
raise of a stream vector of a request that posts to it. -/
def execInterruptModerationTimeout (q : RingRef) (stream : Option Nat) (s : State) : Host.Outcome State Fault Refusal :=
  if q.fn < 64 ∧ q.ring < 1024 then
    match stream with
    | none =>
      let r := ringOf s q
      if r.irqEn && r.modTime != 0 && r.modSince.any (fun t => decide (t + 1000 * r.modTime ≤ now s)) then
        finish s (raiseMsix q.fn r.vector (setRing s q { r with modCountNow := 0, modSince := none }))
      else finish s s
    | some v =>
      let k := 32 * q.fn + v
      if s.port.streamDue.contains k && (slookup s.port.streamAt k).all (fun t => decide (t + 1000 * (ringOf s q).modTime ≤ now s)) then
        finish s (raiseMsix q.fn v { s with port := { s.port with
          streamDue := s.port.streamDue.filter (· != k), streamAt := sset s.port.streamAt k (now s) } })
      else finish s s
  else .refused .illFormed

end Sys2Proof.Machine
end

