-- ==== Sys2Proof/Machine/Resets.lean ====
section
/-!
DEFINITION. The resets of 19_clocks_reset_time.md (R487 to R490) and the function-level reset (R404): FUNCTION_LEVEL_RESET, PERST_N_ASSERT,
PERST_N_RELEASE, WARM_RST_N, PWROK_FALL and PWROK_RISE, each with the state that R488 gives it.
-/

namespace Sys2Proof.Machine

/-! ### The rings and channels of a function -/

/-- A mailbox channel after a function-level reset or PERST_N: both directions flushed, and SENDER_RESET set on the firmware's side
(R410). -/
def flushedChannel : Channel := { fwBits := 2 ^ 31 }

/-- The ring set-up registers, ring pairs, MSI-X set-up and mailbox channel of a function are reset; entries that were not fetched
are dropped, and commands that waited are gone (R404). -/
def resetFnRegs (f : Nat) (s : State) : State :=
  let s1 := setChannel s f flushedChannel
  { s1 with
    port := { s1.port with
      fns := serase s1.port.fns f
      rings := s1.port.rings.filter (fun x => x.1 / 1024 != f)
      msix := s1.port.msix.filter (fun x => x.1 / 32 != f)
      streamAt := s1.port.streamAt.filter (fun x => x.1 / 32 != f)
      streamDue := s1.port.streamDue.filter (fun x => x / 32 != f) }
    srv := { s1.srv with holds := s1.srv.holds.filter (fun h => h.fn != f) } }

/-- The requests of a function end at the next commit point without a completion (R404). -/
def silenceFn (f : Nat) (s : State) : State :=
  { s with srv := { s.srv with
      slots := s.srv.slots.map (fun x => (x.1, if x.2.fn = f then { x.2 with silent := true, aborted := true } else x.2)) } }

/-- The reset of a function (R404): its registers, its requests, and its conversations once those requests have ended (R325). -/
def resetFunction (f : Nat) (s : State) : State :=
  let s1 := latch (.doorbell f 31) (silenceFn f (resetFnRegs f s))
  settleReset f { s1 with srv := { s1.srv with releasing := s1.srv.releasing.filter (· != f) ++ [f] } }

/-- FUNCTION_LEVEL_RESET (R404, R488): a reset of the physical function also returns the housekeeping DMA to IDLE (R417). -/
def execFunctionLevelReset (f : Nat) (s : State) : Host.Outcome State Fault Refusal :=
  if f < 64 then
    let s1 := resetFunction f s
    finish s (if f = 0 then { s1 with dma := [] } else s1)
  else .refused .illFormed

/-! ### PERST_N (R489) -/

/-- Every request is gone, without a completion, and with it its speculative values (R489 step 2). The commit point at which they end is part of the
sequence, which this command runs whole (DESIGN CHOICE, log entry 147). -/
def dropRequests (s : State) : State :=
  { s with srv := { s.srv with slots := [], holds := [], strokeSince := none, admitted := [], releasing := [] } }

/-- Objects placed for the host are removed, with their regions; handles start again at 1 (R198, R488). -/
def dropObjects (s : State) : State := dropRegions { s with obj := { nextOid := s.obj.nextOid } }

/-- Regions whose lower tier is host memory lose their near copy and are DISABLED, with their configuration kept (R341). -/
def dropHostRegions (s : State) : State :=
  { s with mem := { s.mem with
      regions := s.mem.regions.map (fun x => (x.1, if x.2.tier = 2 then { x.2 with st := .disabled, near := [] } else x.2))
      wb := s.mem.wb.filter (fun u => (regionOf s u.region).tier != 2) } }

/-- The package leaves its shell and is solo (R442, R488). -/
def leaveShell (s : State) : State :=
  { s with net := { s.net with
      shell := .solo, shellId := 0, memberCount := 1, myMember := 0, shellPkgs := [], joined := [], readyMembers := [] } }

/-- The host port and every function after PERST_N (R404, R410, R417). -/
def resetHostPort (s : State) : State :=
  { s with
    port := { s.port with
      fns := [], rings := [], alloc := [(0, 1024)], msix := [], streamAt := [], streamDue := [], vfEnable := false, numVfs := 0
      trained := false }
    mbox := (List.range 64).foldl (fun m f => sset m f flushedChannel) s.mbox
    dma := [] }

/-- The SENDER_RESET bit of every channel has been set again: its edges enter the hardware event queue (R409, R410). -/
def ringSenderReset (s : State) : State := (List.range 64).foldl (fun t f => latch (.doorbell f 31) t) s

/-- The sequence of R489 for PERST_N. -/
def perstSequence (s : State) : State :=
  let s1 := drainAll (ringSenderReset (resetHostPort (dropRequests s)))
  let s2 := s1.srv.convs.foldl (endConv .released) s1
  let s3 := wakeDevice 3 (dropObjects (leaveShell (dropHostRegions s2)))
  { s3 with
    boot := { s3.boot with
      act := .idle, activating := false, ready := false, stage := if 7 ≤ s3.boot.stage then 7 else s3.boot.stage }
    gov := { s3.gov with draining := false }
    clk := { s3.clk with persts := saturate 0xFFFF (s3.clk.persts + 1), cause := 2 } }

/-- PERST_N_ASSERT (R489). While the clocks are stopped only the land changes. -/
def execPerstNAssert (s : State) : Host.Outcome State Fault Refusal :=
  if s.pins.perstN then
    let s1 := { s with pins := { s.pins with perstN := false } }
    finish s (if s.pins.pwrok && !s.clk.stopped then perstSequence s1 else s1)
  else finish s s

/-- PERST_N_RELEASE (R489 step 8, R504): in recovery mode the host port trains at once, otherwise at stage HOST. -/
def execPerstNRelease (s : State) : Host.Outcome State Fault Refusal :=
  finish s { s with
    pins := { s.pins with perstN := true }
    port := { s.port with trained := s.port.trained || s.boot.recovery } }

/-! ### Reset values that depend on the part -/

/-- corr[d] at its start: 1.25 when T_d is above 80 °C (R447). -/
def dieTemp (s : State) (d : Nat) : Int :=
  let t := tempOf s d
  max t.dieC (max t.stack0C t.stack1C)

def startCorr (s : State) : Sparse Rat :=
  ((List.range (Config.dies s.part)).filter (fun d => decide (80 < dieTemp s d))).map (fun d => (d, (5 : Rat) / 4))

/-- GOV_CTL at reset (17_power_scheduling.md). -/
def govReset (p : Part) : Gov := { peakW := Config.peakW p, sustainedW := Config.sustainedW p }

/-- Crews with their FAILED units kept, the spare of each chosen afresh, and no unit in WATCH or TESTING (R474). -/
def startCrews (s : State) : Sparse Crew :=
  s.crews.map (fun x => (x.1, freshCrew { failed := x.2.failed, sramFailed := x.2.sramFailed }))

/-! ### WARM_RST_N (R488, R489) -/

/-- The set registers of the calendar are reset; the calendar itself is kept (R488). -/
def calReset (c : Cal) : Cal := { c with setSec := 0, setFrac := 0 }

/-- The state after the sequence of R489 for WARM_RST_N: boot stands at ARRAY_TEST, with the resident image. -/
def warmState (s0 : State) : State :=
  let s := drainAll s0
  { part := s.part
    pins := { s.pins with thermtripN := s.pins.thermtripN, gpio3 := false, pmbHold := s.pins.pmbHold, i3cAddr := none, bmcOut := [], ibis := 0 }
    boot := { s.boot with
      stage := 5, ready := false, activating := false, error := 0, detail := 0, published := false, recovery := false, act := .idle
      actSlot := 0, actSince := 0, evq := [], highWater := 0, losses := 0, dummy := true }
    clk := { s.clk with
      spreadNow := s.clk.spread, stopped := s.pins.pmbHold || !s.pins.thermtripN, cause := 1, tsHi := 0, ratePpm := 0, rateFrac := 0, halfDebt := 0
      halfPhase := false, retainFrac := 0, retainFrom := 0 }
    cal := calReset s.cal
    gov := { govReset s.part with
      energyUj := s.gov.energyUj, temps := s.gov.temps, lastWake := s.gov.lastWake, lastExitUs := s.gov.lastExitUs, corr := startCorr s
      retrains := s.gov.retrains }
    mem := {
      nearTrained := s.mem.nearTrained, mapValid := s.mem.mapValid, fallback := s.mem.fallback, mapPorts := s.mem.mapPorts
      mapInterleaved := s.mem.mapInterleaved
      ports := s.mem.ports.map (fun x => (x.1, { x.2 with maxRate := 0, enable := true }))
      far := s.mem.far, farPoison := s.mem.farPoison, host := s.mem.host, hostBad := s.mem.hostBad, hostFail := s.mem.hostFail }
    port := { alloc := s.port.alloc, readData := s.port.readData }
    mbox := [], dma := [], net := {}
    flt := {
      newest := s.flt.newest, startups := s.flt.startups, history := s.flt.history, ceNear := s.flt.ceNear, ceSram := s.flt.ceSram, ue := s.flt.ue
      mismatches := s.flt.mismatches, restarts := s.flt.restarts, checksRun := s.flt.checksRun, trip := s.flt.trip }
    trace := {
      draftsProposed := s.trace.draftsProposed, draftsAccepted := s.trace.draftsAccepted, prefetchIssued := s.trace.prefetchIssued
      prefetchUsed := s.trace.prefetchUsed }
    obj := { nextOid := s.obj.nextOid }, srv := {}, cores := [], crews := startCrews s, freeCtr := s.freeCtr, pending := s.pending }

/-- Near memory is in use again after a warm start, with the regions that every package has (R336, R489). -/
def warmRegions (s : State) : State := if s.mem.nearTrained then baseRegions s else s

/-- WARM_RST_N (R489): the land is driven low and returns. -/
def execWarmRstN (s : State) : Host.Outcome State Fault Refusal :=
  if s.pins.pwrok then finishCal s (calReset s.cal) (warmRegions (warmState s)) else finish s s

/-! ### PWROK (R487, R488, R502) -/

/-- The boot configuration record in use: the valid copy of the higher GENERATION, copy 0 when equal (R501). -/
def bootCfg (s : State) : BootCfg :=
  let a := s.boot.cfg0
  let b := s.boot.cfg1
  if a.valid ∧ (b.valid = false ∨ b.generation ≤ a.generation) then a else if b.valid then b else {}

/-- The package with PWROK low: what the backup domain, the non-volatile store, the boot flash, the host and the outside world
keep. -/
def offState (s : State) : State :=
  { part := s.part
    pins := { perstN := s.pins.perstN, warmRstN := s.pins.warmRstN }
    boot := { slots := s.boot.slots, cfg0 := s.boot.cfg0, cfg1 := s.boot.cfg1, serial := s.boot.serial }
    cal := calReset s.cal
    gov := govReset s.part
    mem := { host := s.mem.host, hostBad := s.mem.hostBad, hostFail := s.mem.hostFail }
    port := { readData := s.port.readData }
    flt := { startups := s.flt.startups, history := s.flt.history, trip := s.flt.trip }
    obj := { nextOid := s.obj.nextOid }
    crews := startCrews s, freeCtr := s.freeCtr, pending := s.pending }

/-- PWROK_FALL (R455, R488): the package goes OFF. -/
def execPwrokFall (s : State) : Host.Outcome State Fault Refusal :=
  if s.pins.pwrok then finishCal s (calReset s.cal) (offState s) else finish s s

/-- PWROK_RISE (R502): boot starts at stage CLOCKS. The SLEW straps are sampled (R530), CLKGEN_CTL.SPREAD takes the record's value
(R501), and CAUSE tells a start after THERMTRIP_N. -/
def execPwrokRise (slew : BitVec 6) (s : State) : Host.Outcome State Fault Refusal :=
  if s.pins.pwrok then finish s s
  else
    finish s { s with
      pins := { s.pins with pwrok := true, slew := slew }
      boot := { s.boot with stage := 1 }
      clk := { spread := (bootCfg s).spread, cause := if s.flt.trip.isSome then 3 else 0 } }

end Sys2Proof.Machine
end

