-- ==== Sys2Proof/Machine/Boot.lean ====
section
/-!
DEFINITION. Start-up (20_startup_capabilities.md): the boot stages of R502 with the errors of R503, and a far-memory port entering
service (R345, R346).
-/

namespace Sys2Proof.Machine

/-- The package is at a boot stage and goes on: power, clocks and no error. -/
def atStage (n : Nat) (s : State) : Bool := clocksRun s && s.boot.stage == n && s.boot.error == 0

/-- Boot stops with an error of R503; the host port trains in recovery mode when recover says so. -/
def bootError (err detail : Nat) (recover : Bool) (s : State) : State :=
  { s with
    boot := { s.boot with error := err, detail := detail, recovery := recover }
    port := { s.port with trained := recover && s.pins.perstN } }

/-- The lowest bit set below n, 0 when there is none. -/
def lowestBit (mask n : Nat) : Nat := ((List.range n).find? (hasBit mask)).getD 0

/-- CLOCKS_DONE: every rail is confirmed and both PLLs lock, or boot stops. -/
def execClocksDone (failedRails unlockedPlls : Nat) (s : State) : Host.Outcome State Fault Refusal :=
  if failedRails < 2 ^ 16 ∧ unlockedPlls < 4 then
    if atStage 1 s then
      finish s (
        if failedRails ≠ 0 then bootError 0x01 (lowestBit failedRails 16) false s
        else if unlockedPlls ≠ 0 then bootError 0x02 (lowestBit unlockedPlls 2) false s
        else { s with
          clk := { s.clk with rootLock := true, tbLock := true, spreadNow := s.clk.spread }
          boot := { s.boot with stage := 2 } })
    else finish s s
  else .refused .illFormed

/-- A firmware slot that the security block accepts: it is not refused and holds an image. -/
def slotGood (s : State) (refused slot : Nat) : Bool :=
  !hasBit refused slot && (slookup s.boot.slots slot).elim false (fun f => f.present && f.signatureOk && f.rollbackOk)

/-- The firmware of a slot runs: REV shows it. -/
def runFirmware (slot : Nat) (s : State) : State :=
  match slookup s.boot.slots slot with
  | some f => { s with boot := { s.boot with fwMajor := f.major, fwMinor := f.minor, fwPatch := f.patch, activeSlot := slot } }
  | none => s

/-- AUTH_DONE: PREF_SLOT's image is verified and loaded, or the other slot's; with neither, recovery mode (R502 to R504). -/
def execAuthDone (refused : Nat) (s : State) : Host.Outcome State Fault Refusal :=
  if refused < 4 then
    if atStage 2 s then
      let first := (bootCfg s).prefSlot
      let other := 1 - first
      finish s (
        if slotGood s refused first then (let t := runFirmware first s; { t with boot := { t.boot with stage := 3 } })
        else if slotGood s refused other then (let t := runFirmware other s; { t with boot := { t.boot with stage := 3 } })
        else bootError 0x10 3 true s)
    else finish s s
  else .refused .illFormed

/-- The record of a trip that the last power cycle left (R454, R462). -/
def tripRecord (sensor temp : Nat) : ErrRec :=
  { cls := 3, action := 5, code := 0x60, unitKind := if sensor / 8 < 8 then 1 else 0, unit := if sensor / 8 < 8 then sensor / 8 else 0
    detail0 := sensor, detail1 := temp }

/-- HUB_DONE: the cox cores start and read the non-volatile store; STARTUPS is raised, and a pending trip record is logged. -/
def execHubDone (s : State) : Host.Outcome State Fault Refusal :=
  if atStage 3 s then
    let s1 := { s with
      boot := { s.boot with stage := 4 }
      flt := { s.flt with startups := saturate 0xFFFF (s.flt.startups + 1), trip := none }
      crews := startCrews s }
    finish s (match s.flt.trip with | some t => logRecord (tripRecord t.1 t.2) none s1 | none => s1)
  else finish s s

/-- TRAIN_C of every die takes its T_d (TEMP[d]). -/
def markTrained (s : State) : State :=
  { s with gov := { s.gov with temps := s.gov.temps.map (fun x => (x.1, { x.2 with trainC := dieTemp s x.1 })) } }

/-- NEAR_TRAIN_DONE: every stack is trained and dummy mode begins (R142), or the stage fails and HEALTH.LEVEL is 2 (R503). -/
def execNearTrainDone (failedStacks : Nat) (s : State) : Host.Outcome State Fault Refusal :=
  if failedStacks < 2 ^ Config.stackCount s.part then
    if atStage 4 s then
      finish s (
        if failedStacks ≠ 0 then bootError 0x20 failedStacks true (computeHealth { s with boot := { s.boot with stackFailed := true } })
        else
          let s1 := markTrained s
          { s1 with
            mem := { (baseRegions s1).mem with nearTrained := true }
            clk := { s1.clk with hbmLock := 2 ^ Config.stackCount s.part - 1 }
            gov := { s1.gov with corr := startCorr s1 }
            boot := { s1.boot with stage := 5, dummy := true } })
    else finish s s
  else .refused .illFormed

/-- A core fails for good: it leaves placement at the next choice of cores (R472). -/
def failCore (s : State) (n : Nat) : State :=
  let c := crewOf s (n / 9)
  setCrew s (n / 9) { c with failed := setBit c.failed (n % 9), watch := clearBit c.watch (n % 9), testing := clearBit c.testing (n % 9) }

/-- The record of a core that start-up tests found failing (R462). -/
def coreRecord (s : State) (n action : Nat) : ErrRec :=
  let c := crewOf s (n / 9)
  { cls := 2, action := action, code := 0x22, unitKind := 3, unit := n, verdict := 3, detail0 := if c.spare = 15 then 15 else c.spare
    detail1 := activeCores s (n / 9) }

/-- ARRAY_TEST_DONE: failing units become FAILED, each crew chooses its spare afresh, and health is computed. -/
def execArrayTestDone (failedCores failedSram : List Nat) (s : State) : Host.Outcome State Fault Refusal :=
  if failedCores.all (fun n => decide (n < 9 * Config.crews s.part)) && failedSram.all (fun c => decide (c < Config.crews s.part)) then
    if atStage 5 s then
      let s1 := failedCores.foldl failCore s
      let s2 := failedSram.foldl (fun t c => setCrew t c { crewOf t c with sramFailed := true }) s1
      let was := (crewList s).filter (fun c => crewState s c != 2)
      let s3 := computeHealth ((crewList s2).foldl (fun t c => setCrew t c (freshCrew (crewOf t c))) s2)
      let s4 := failedCores.foldl (fun t n => logRecord (coreRecord t n 0) none t) s3
      let s5 := (was.filter (fun c => crewState s4 c == 2)).foldl (fun t c => logRecord { retiredRecord t c with action := 0, committed := false } none t) s4
      -- after WARM_RST_N no near-memory training has begun the start-up period: dummy mode ends with the test (R142)
      let s6 := if s.clk.cause = 1 then endDummy s5 else s5
      finish s { s6 with boot := { s6.boot with stage := 6 } }
    else finish s s
  else .refused .illFormed

/-- An expander that handles poison and keeps its contents as R345 asks. -/
def keepsData (x : Expander) : Bool := x.poison && x.retains

/-- REJECT of an expander that fails a requirement of R345; 0 for one that serves. No value of the field names the requirements on poison and on
retention: for those it is a free value (log entry 149). -/
def rejectCode (x : Expander) : Nat :=
  if !x.type3 then 1
  else if !(decide (64 ≤ x.capacityGib) && decide (x.capacityGib ≤ 4096)) then 2
  else if !(x.wideEnough && x.fastEnough) then 3
  else if x.multiLogical then 4
  else if !x.volatileRange then 5
  else if !keepsData x then (Config.rejectOther x.serial).toNat
  else 0

/-- A port has trained to an expander: FMP_STATUS shows it, and it serves unless the expander is rejected. MAX_RATE 1 holds the link to
32 GT/s. -/
def portFound (p : Nat) (x : Expander) (s : State) : State :=
  let fp := farPortOf s p
  if !fp.enable then s
  else
    setFarPort s p { fp with
      capacityGib := x.capacityGib, reject := rejectCode x, width := if x.widthX16 then 2 else 1
      rate := if x.rate64 && fp.maxRate == 0 then 2 else 1, serving := rejectCode x == 0 && keepsData x, linkUp := true, serial := x.serial
      retraining := false, timeouts := 0 }

/-- FAR_MEMORY_DONE: the ports train, the expanders are checked (R345), the map is built (R346), and the capability list is
published. -/
def execFarMemoryDone (xs : List (Nat × Expander)) (s : State) : Host.Outcome State Fault Refusal :=
  if xs.all (fun x => decide (x.1 < Config.farPorts s.part)) then
    if atStage 6 s then
      let s1 := xs.foldl (fun t x => portFound x.1 x.2 t) { s with mem := { s.mem with
        ports := s.mem.ports.map (fun x => (x.1, { maxRate := x.2.maxRate, enable := x.2.enable })) } }
      let s2 := buildMap s1
      finish s { s2 with boot := { s2.boot with stage := 7, published := true } }
    else finish s s
  else .refused .illFormed

/-- FMP_PORT_IN_SERVICE (R346): a port that did not serve trains, and its expander enters the map; the map changes only while nothing
uses far memory. -/
def execFmpPortInService (port : Nat) (x : Expander) (s : State) : Host.Outcome State Fault Refusal :=
  if port < Config.farPorts s.part then
    let p := farPortOf s port
    if clocksRun s && s.mem.mapValid && p.enable && !p.serving && !farInUse s then finish s (buildMap (portFound port x s))
    else finish s s
  else .refused .illFormed

/-- READY: PERST_N is released and the host port has trained after the capability list was published. -/
def execReady (s : State) : Host.Outcome State Fault Refusal :=
  if atStage 7 s && s.boot.published && s.pins.perstN then
    finish s { s with
      boot := { s.boot with stage := 0x0F, ready := true }
      port := { s.port with trained := true } }
  else finish s s

end Sys2Proof.Machine
end

