-- ==== Sys2Proof/Machine/Firmware.lean ====
section
/-!
DEFINITION. Firmware activation (R512, R513): the hold at a stroke boundary, the takeover, and the ways it fails.
-/

namespace Sys2Proof.Machine

/-- The slot of the FIRMWARE_ACTIVATE in progress. -/
def activateSlot (s : State) : Option Nat :=
  (s.srv.slots.find? (fun x => match x.2.work with | .activate _ => true | _ => false)).map Prod.fst

/-- 0x31 FIRMWARE_REJECTED with REASON in byte 16 of the completion. -/
def firmwareError (reason : Nat) : CmdErr := { status := 0x31, result := leBytes 4 0 ++ leBytes 1 reason }

/-- The command's completion: the running image's version and slot, and the hold time in µs (R513). -/
def activateResult (s : State) (slot : Nat) : List Byte :=
  let f := slookup s.boot.slots slot
  leBytes 1 (f.elim 0 FwImage.major) ++ leBytes 1 (f.elim 0 FwImage.minor) ++ leBytes 1 (f.elim 0 FwImage.patch) ++ leBytes 1 slot
    ++ leBytes 4 0 ++ leBytes 4 (min (ceilDiv (now s - s.boot.actSince) 1000) 0xFFFFFFFF)

/-- An ENTER_POWER_STATE fetched during the activation is handled after it (R513): its drain begins. -/
def startHeldPower (s : State) : State :=
  match powerSlots s with
  | [] => s
  | (n, _) :: _ => drainCheck (beginDrain ((slotOf s n).elim 0 Request.entry) s)

/-- ACTIVATION_HOLD (R512 step 3): at a stroke boundary with fewer than 2,048 events queued, composition is held. -/
def execActivationHold (s : State) : Host.Outcome State Fault Refusal :=
  if clocksRun s && s.boot.act == .loaded && s.srv.strokeSince.isNone && s.gov.st == .active && decide (s.boot.evq.length < 2048) then
    finish s { s with boot := { s.boot with act := .held, activating := true, actSince := now s } }
  else finish s s

/-- ACTIVATION_RESUME (R512 steps 4 and 5): the new firmware posts the completion, and acts on the events that waited. -/
def execActivationResume (s : State) : Host.Outcome State Fault Refusal :=
  if clocksRun s && s.boot.act == .held then
    let old := revReg s
    let s1 := runFirmware s.boot.actSlot { s with boot := { s.boot with act := .idle, activating := false } }
    let s2 := traceWrite (traceOf s1 6 0xFFFFFFFF old (revReg s1)) s1
    let s3 := match activateSlot s2 with
      | some n => endRequest n 0 (activateResult s2 s.boot.actSlot) s2
      | none => s2
    finish s (startHeldPower (settleAll (drainEvents s3)))
  else finish s s

/-- The activation ends with a REASON of R513. -/
def failActivation (reason : Nat) (s : State) : State :=
  let s1 := { s with boot := { s.boot with act := .idle, activating := false } }
  match activateSlot s1 with
  | some n => failRequest n (firmwareError reason) s1
  | none => s1

/-- ACTIVATION_BUSY_TIMEOUT (R513): the event queue stayed at 2,048 entries or more for 100 ms. -/
def execActivationBusyTimeout (s : State) : Host.Outcome State Fault Refusal :=
  if clocksRun s && s.boot.act == .loaded && decide (2048 ≤ s.boot.evq.length) then
    finish s (startHeldPower (settleAll (failActivation 6 s)))
  else finish s s

/-- START_FAILED (R513): 100 ms have passed without composition; the watchdog fires, the previous image restarts from its slot, and
every shell restarts. -/
def execStartFailed (s : State) : Host.Outcome State Fault Refusal :=
  if clocksRun s && s.boot.act == .held && decide (s.boot.actSince + 100000000 ≤ now s) then
    let s1 := detect { cls := 3, action := 3, code := 0x61, unitKind := 7, unit := 1 } none (failActivation 5 s)
    finish s (startHeldPower (settleAll (drainEvents s1)))
  else finish s s

end Sys2Proof.Machine
end

