-- ==== Sys2Proof/Machine/Memory.lean ====
section
/-!
DEFINITION. The memory-tier commands (12_memory_tiers.md): region set-up and region commands (R336 to R342), far-memory ports (R344 to
R347), patrol scrub and corrected-event rates (R349, R350, R354, R469), and the drain of the write buffer (R356).
-/

namespace Sys2Proof.Machine

/-! ### Region configuration (R341) -/

/-- A value of TIER, or of MODE, that is not reserved. -/
def tierVal (v : Nat) : Bool := v != 3
def modeVal (v : Nat) : Bool := decide (v < 2)

/-- REGION_CONFIG_WRITE (R336, R342): a write to a device region is ignored, and one to a region that is not DISABLED is ignored with
CFG_IGNORED. -/
def writeRegion (n : Nat) (which : RegionReg) (w : RegAccess) (s : State) : State :=
  let r := regionOf s n
  if n < 64 then s
  else if r.st ≠ .disabled then { s with mem := { s.mem with cfgIgnored := true } }
  else
    match which with
    | .base => setRegion s n { r with base := rwField r.base w 63 62 tierVal (rwField r.base w 57 12 anyVal r.base) }
    | .size => setRegion s n { r with size := rwField r.size w 47 12 anyVal r.size }
    | .cfg =>
      let mode := rwField r.cfg w 1 0 modeVal r.cfg
      setRegion s n { r with cfg := [(47, 16), (15, 12), (11, 10)].foldl (fun x f => rwField r.cfg w f.1 f.2 anyVal x) mode }

/-- REGION_CONFIG_WRITE. -/
def execRegionConfigWrite (n : Nat) (which : RegionReg) (w : RegAccess) (s : State) : Host.Outcome State Fault Refusal :=
  if n < 256 then finish s (if pfWrite w s then writeRegion n which w s else s) else .refused .illFormed

/-! ### Region commands (R342) -/

/-- Every field of a region's configuration is in range (R340, R342). -/
def regionValid (s : State) (r : Region) : Bool :=
  r.tier != 3 && r.bytes != 0 && decide (fieldOf r.cfg 1 0 < 2)
    && (r.partn == 0 || (slookup s.srv.partitions r.partn).isSome)
    && (if r.tier = 0 then r.lower == 0 && r.nearMib == ceilDiv r.bytes (2 ^ 20) else decide (64 ≤ r.nearMib))

/-- The lower-tier range overlaps that of another region in use, or of the device, or lies beyond FM_TOTAL_GIB. -/
def regionOverlaps (s : State) (n : Nat) (r : Region) : Bool :=
  r.tier != 0
    && (s.mem.regions.any (fun x => x.1 != n && x.2.st != .disabled && x.2.tier == r.tier && rangesMeet r.lower r.bytes x.2.lower x.2.bytes)
      || (r.tier == 1 && decide (farTotalGib s * 2 ^ 30 < r.lower + r.bytes)))

/-- RESULT of ENABLE for a region's configuration: 0 DONE, 1 INVALID, 3 OVERLAP, 4 NO_NEAR_SPACE, 7 PORT_DOWN. -/
def enableCheck (s : State) (n : Nat) : Nat :=
  let r := regionOf s n
  if !regionValid s r then 1
  else if regionOverlaps s n r then 3
  else if nearFree s r.partn < r.nearMib * 2 ^ 20 then 4
  else if (regionPorts s r).any (fun p => !((farPortOf s p).serving && (farPortOf s p).linkUp)) then 7
  else 0

/-- An object is bound to the region: a passage store, a request's binding of one, or the boathouse. -/
def regionBound (s : State) (n : Nat) : Bool :=
  s.obj.passages.any (fun x => x.2.region == n) || s.srv.bhRegion == n
    || s.srv.slots.any (fun x => match x.2.work with
      | .pipe p => p.passage.any (fun b => b.region == n)
      | .install (.passage _ (some b)) => b.region == n
      | .install (.boathouse r _ _ _) => r == n
      | _ => false)

/-- Every dirty tile of a region is written back. -/
def writeBackAll (n : Nat) (s : State) : State := (regionOf s n).near.foldl (fun t x => writeBackTile t n x.1) s

/-- A command fails: RESULT shows it at once, and nothing else changes. -/
def cmdResult (n result : Nat) (s : State) : State := { s with mem := { s.mem with lastRegion := n, result := result } }

/-- A command is accepted and is in progress. -/
def cmdStart (op n : Nat) (s : State) : State :=
  { s with mem := { s.mem with lastRegion := n, busy := true, cmd := some (op, n) } }

/-- A write of REGION_CMD. -/
def regionCmd (op n : Nat) (s : State) : State :=
  let r := regionOf s n
  if s.mem.busy then { s with mem := { s.mem with cmdIgnored := true } }
  else if n < 64 then cmdResult n 2 s
  else
    match op with
    | 1 => if r.st = .disabled then cmdStart 1 n s else cmdResult n 6 s
    | 2 =>
      if r.st ≠ .active then cmdResult n 6 s
      else if regionBound s n then cmdResult n 5 s
      else
        let s1 := drainAll s
        cmdStart 2 n (setRegion s1 n { regionOf s1 n with st := .disabling })
    | 3 =>
      if r.st ≠ .active then cmdResult n 6 s
      else
        let s1 := writeBackAll n s
        cmdStart 3 n (setRegion s1 n { regionOf s1 n with st := .flushing })
    | _ => if r.st = .active then cmdStart 4 n s else cmdResult n 6 s

/-- REGION_ENABLE (R342). -/
def execRegionEnable (fn n : Nat) (s : State) : Host.Outcome State Fault Refusal :=
  if fn < 64 ∧ n < 256 then finish s (if hostUp s && fn == 0 then regionCmd 1 n s else s) else .refused .illFormed

/-- REGION_DISABLE (R342). -/
def execRegionDisable (fn n : Nat) (s : State) : Host.Outcome State Fault Refusal :=
  if fn < 64 ∧ n < 256 then finish s (if hostUp s && fn == 0 then regionCmd 2 n s else s) else .refused .illFormed

/-- REGION_FLUSH (R342). -/
def execRegionFlush (fn n : Nat) (s : State) : Host.Outcome State Fault Refusal :=
  if fn < 64 ∧ n < 256 then finish s (if hostUp s && fn == 0 then regionCmd 3 n s else s) else .refused .illFormed

/-- REGION_INVALIDATE (R342). -/
def execRegionInvalidate (fn n : Nat) (s : State) : Host.Outcome State Fault Refusal :=
  if fn < 64 ∧ n < 256 then finish s (if hostUp s && fn == 0 then regionCmd 4 n s else s) else .refused .illFormed

/-- The end of the command in progress. ENABLE has checked the configuration by now. -/
def finishCmd (op n : Nat) (s : State) : State :=
  let done := fun (t : State) (result : Nat) => { t with mem := { t.mem with busy := false, cmd := none, result := result } }
  match op with
  | 1 =>
    let x := enableCheck s n
    if x = 0 then done (setRegion s n { regionOf s n with st := .active, near := [] }) 0 else done s x
  | 2 =>
    let s1 := writeBackAll n s
    done (setRegion s1 n { regionOf s1 n with st := .disabled, near := [] }) 0
  | 3 => done (if (regionOf s n).st = .flushing then setRegion s n { regionOf s n with st := .active } else s) 0
  | _ =>
    let s1 := writeBackAll n s
    done (setRegion s1 n { regionOf s1 n with near := [] }) 0

/-- REGION_CMD_COMPLETE (R342). -/
def execRegionCmdComplete (s : State) : Host.Outcome State Fault Refusal :=
  match s.mem.cmd with
  | some c => finish s (if clocksRun s then finishCmd c.1 c.2 s else s)
  | none => finish s s

/-! ### MEM_CTL and far-memory ports -/

/-- A write to MEM_CTL: FM_INTERLEAVE changes only while nothing uses far memory, and a change rebuilds the map (R346). -/
def writeMemCtl (w : RegAccess) (s : State) : State :=
  let c := s.mem.ctl
  let r := rwField c w 15 8 anyVal (rwField c w 1 1 anyVal c)
  let r1 := if farInUse s then r else rwField c w 0 0 anyVal r
  let s1 := { s with mem := { s.mem with ctl := r1 } }
  if bitOf r1 0 != bitOf c 0 && s.mem.mapValid then buildMap s1 else s1

/-- MEM_CTL_WRITE (R346). -/
def execMemCtlWrite (w : RegAccess) (s : State) : Host.Outcome State Fault Refusal :=
  finish s (if pfWrite w s then writeMemCtl w s else s)

/-- A region in use, of software or of the device, has bytes on a port. -/
def portInUse (s : State) (p : Nat) : Bool :=
  s.mem.regions.any (fun x => x.2.st != .disabled && (regionPorts s x.2).contains p)

/-- The map follows the ports that serve, where no region uses far memory (R346). -/
def remap (s : State) : State := if farInUse s || !s.mem.mapValid then s else buildMap s

/-- A write to FMP_CTL: ENABLE 0 holds the link down unless a region uses the port; the map follows while nothing uses far memory
(R346). RETRAIN retrains under MAX_RATE without stopping traffic. -/
def writeFmpCtl (p : Nat) (w : RegAccess) (s : State) : State :=
  let f := farPortOf s p
  let old : Reg := BitVec.ofNat 64 (bit f.enable + 16 * f.maxRate)
  let rate := fieldOf (rwField old w 5 4 (fun v => decide (v < 2)) old) 5 4
  let on := bitOf (rwField old w 0 0 anyVal old) 0
  let f1 := { f with maxRate := rate, rate := if wrote w 1 && rate == 1 then min f.rate 1 else f.rate }
  if !on && f.enable && !portInUse s p then
    let s1 := setFarPort s p { f1 with enable := false, linkUp := false, serving := false, width := 0, rate := 0, retraining := false }
    if farInUse s then s1 else remap s1
  else setFarPort s p { f1 with enable := f.enable || on }

/-- FMP_RETRAIN (R346). -/
def execFmpRetrain (p : Nat) (w : RegAccess) (s : State) : Host.Outcome State Fault Refusal :=
  if p < Config.farPorts s.part ∧ wrote w 1 = true then finish s (if pfWrite w s then writeFmpCtl p w s else s)
  else .refused .illFormed

/-- FMP_LINK_LOSS (R347): the device retrains the port, and reads of it wait. WIDTH and RATE keep the figures that the link returns
with. -/
def execFmpLinkLoss (p : Nat) (s : State) : Host.Outcome State Fault Refusal :=
  if p < Config.farPorts s.part then
    let f := farPortOf s p
    finish s (if clocksRun s && f.serving && f.linkUp then setFarPort s p { f with linkUp := false, retraining := true } else s)
  else .refused .illFormed

/-- The regions in use with a tile on a port. -/
def portRegions (s : State) (p : Nat) : List Nat :=
  (s.mem.regions.filter (fun x => x.2.st != .disabled && x.2.st != .failed && (regionPorts s x.2).contains p)).map Prod.fst

/-- A region enters FAILED: its dirty tiles are lost, and its reads return poison. -/
def failRegion (s : State) (n : Nat) : State :=
  let r := regionOf s n
  setRegion s n { r with st := .failed, near := [] }

/-- A far-memory port is lost for good (R347): its regions enter FAILED, paused conversations in the boathouse there end LOST, and the
record restarts the shell when a dirty tile was lost. -/
def losePort (p : Nat) (s : State) : State :=
  let f := farPortOf s p
  let ns := portRegions s p
  let dirty := ns.any (fun n => (regionOf s n).near.any (fun x => x.2.dirty) || s.mem.wb.any (fun u => u.region == n))
  let s1 := ns.foldl failRegion (setFarPort s p { f with serving := false, retraining := false, width := 0, rate := 0 })
  let s2 : State := remap { s1 with mem := { s1.mem with wb := s1.mem.wb.filter (fun u => !ns.contains u.region) } }
  let gone : List Conv := if ns.contains s.srv.bhRegion then s.srv.convs.filter (fun c => c.st == .paused && c.tier == 0) else []
  detect { cls := 2, action := if dirty then 2 else 0, code := 0x40, unitKind := 5, unit := p, committed := dirty, detail0 := f.serial
           detail1 := ns.length } none (gone.foldl (endConv .lost) s2)

/-- FMP_RETRAIN_END (R347). -/
def execFmpRetrainEnd (p : Nat) (same : Bool) (s : State) : Host.Outcome State Fault Refusal :=
  if p < Config.farPorts s.part then
    let f := farPortOf s p
    finish s (
      if clocksRun s && f.retraining then
        (if same then setFarPort s p { f with linkUp := true, retraining := false } else losePort p s)
      else s)
  else .refused .illFormed

/-- The region that a far address belongs to. -/
def regionAt (s : State) (a : Nat) : Option Nat :=
  (s.mem.regions.find? (fun x => usesFar x.2 && decide (x.2.lower ≤ a) && decide (a < x.2.lower + x.2.bytes))).map Prod.fst

/-- The 64-byte line at a far address comes back poisoned into the near copy of its region. -/
def poisonLine (n a : Nat) (s : State) : State :=
  let s1 := fillTile s n ((a - (regionOf s n).lower) / (regionOf s n).tileBytes)
  let r := regionOf s1 n
  let o := (a - r.lower) / 64 * 64
  let t := o / r.tileBytes
  let x := sgetD r.near t {}
  let w := o % r.tileBytes / 32
  setRegion s1 n { r with near := sset r.near t { x with poison := (x.poison ++ [w, w + 1]).dedup } }

/-- A running unit uses the region: its model's FAR tensors lie there, or a table that its request has bound. -/
def unitUses (s : State) (p : Pipe) (u : UnitCtx) (n : Nat) : Bool :=
  (modelByOid s u.model).farRegion == n || p.boundTables.any (fun x => (tableOf s x.2).region == n)

/-- The units that a stroke is running read poison from a region of the device that they use. -/
def poisonReaders (n a : Nat) (s : State) : State :=
  { s with srv := { s.srv with
      slots := s.srv.slots.map (fun x =>
        match x.2.work with
        | .pipe p =>
          (x.1, { x.2 with work := .pipe { p with
            unit := p.unit.map (fun u =>
              if x.2.st == .running && unitUses s p u n then
                { u with runs := u.runs.map (fun c => { c with poisoned := c.poisoned ++ [(0, 2, a)] }) }
              else u) } })
        | _ => x) } }

/-- An expander that has failed the completion time of R345 leaves service once no region uses far memory, which is when service may change
(R346). -/
def leaveService (p : Nat) (s : State) : State :=
  let f := farPortOf s p
  if f.reject = 6 ∧ farInUse s = false then remap (setFarPort s p { f with serving := false }) else s

/-- FMP_READ_TIMEOUT (R347): a read that exceeds 50 µs counts as poison; the third on a port sets REJECT 6. -/
def execFmpReadTimeout (p a latencyNs : Nat) (s : State) : Host.Outcome State Fault Refusal :=
  if p < Config.farPorts s.part ∧ 50000 < latencyNs then
    let f := farPortOf s p
    if clocksRun s && f.serving then
      let n := f.timeouts + 1
      let s1 := setFarPort s p { f with timeouts := n, reject := if 3 ≤ n then 6 else f.reject }
      let s2 := match regionAt s a with
        | some r => if r < 64 ∨ 256 ≤ r then poisonReaders r a (poisonLine r a s1) else poisonLine r a s1
        | none => leaveService p s1
      finish s (detect { cls := 2, action := 0, code := 0x41, unitKind := 5, unit := p, space := 2, addr := a, detail0 := latencyNs
                         detail1 := n } none s2)
    else finish s s
  else .refused .illFormed

/-! ### Patrol scrub and error rates (R349, R350, R354, R469) -/

/-- A tile of a model's near tensors that holds REPLICATE weights alone: another die's copy is a source of repair (R350). -/
def replicaTile (s : State) (n t : Nat) : Bool :=
  let tb := (regionOf s n).tileBytes
  match s.obj.models.find? (fun m => m.nearRegion == n) with
  | none => false
  | some m =>
    let held := (List.range m.descs.length).filter (fun i =>
      match descPlace m i with
      | some x => x.1 == n && rangesMeet (t * tb) tb x.2 (descBytes (descOf m i))
      | none => false)
    decide (1 < Config.dies s.part) && !held.isEmpty && held.all (fun i => (descOf m i).cls == 0 && (descOf m i).placement == 0)

/-- A tile is repaired from the lower tier when it is clean and its source holds no poison, or from another die's copy of REPLICATE weights
(R350); the repair counts as a corrected event. -/
def repairTile (n t : Nat) (rec : ErrRec) (s : State) : State :=
  let r := regionOf s n
  match slookup r.near t with
  | some x =>
    let low := lowerRead s r (t * r.tileBytes) r.tileBytes
    if !x.dirty && r.tier != 0 && low.2.isEmpty && r.st != .failed then
      countCeNear 1 (detect { rec with cls := 1, code := 0x12, detail0 := 1, detail1 := 0 } none
        (setRegion s n { r with near := sset r.near t { x with data := low.1, poison := [] } }))
    else if replicaTile s n t then
      countCeNear 1 (detect { rec with cls := 1, code := 0x12, detail0 := 2, detail1 := 0 } none
        (setRegion s n { r with near := sset r.near t { x with poison := [] } }))
    else s
  | none => s

/-- Patrol scrub finds an uncorrectable error at a word of a near copy: the poison marker is written, a record follows, and repair is
tried. The stack and the near address of the word are the placement's, which the manual does not give (log entry 17). -/
def scrubPoison (n o syndrome : Nat) (s : State) : State :=
  let r := regionOf s n
  let t := o / r.tileBytes
  let x := sgetD r.near t {}
  let w := o % r.tileBytes / 32
  let f1 := takeFree (setRegion s n { r with near := sset r.near t { x with poison := if x.poison.contains w then x.poison else x.poison ++ [w] } })
  let f2 := takeFree f1.2
  let rec0 : ErrRec :=
    { cls := 2, action := 0, code := 0x11, unitKind := 4, unit := (Config.freeValue f1.1).toNat % Config.stackCount s.part, space := 1
      addr := (Config.freeValue f2.1).toNat, detail0 := syndrome }
  repairTile n t rec0 (countUe 1 (detect rec0 none f2.2))

/-- PATROL_SCRUB (R354): one word is read; a correctable error is corrected and counted. Scrub pauses in RETAIN, and SCRUB_HOURS 0 stops
it. -/
def execPatrolScrub (v : ScrubVisit) (s : State) : Host.Outcome State Fault Refusal :=
  if v.region < 256 ∧ v.offset % 32 = 0 then
    let r := regionOf s v.region
    let held := (r.tier == 0 && r.st != .disabled && decide (v.offset < r.bytes)) || (slookup r.near (v.offset / r.tileBytes)).isSome
    finish s (
      if clocksRun s && fieldOf s.mem.ctl 15 8 != 0 && s.gov.st != .retain && held then
        match v.find with
        | .clean => s
        | .correctable => countCeNear 1 s
        | .uncorrectable syn => scrubPoison v.region v.offset syn s
      else s)
  else .refused .illFormed

/-- A unit of the part. -/
def unitPresent (s : State) : UnitRef → Bool
  | .core n => decide (n < 9 * Config.crews s.part)
  | .crew n => decide (n < Config.crews s.part)

/-- UNIT_KIND and UNIT of a record about a unit. -/
def unitKindOf : UnitRef → Nat
  | .core _ => 3
  | .crew _ => 2
def unitNumber : UnitRef → Nat
  | .core n => n
  | .crew n => n

/-- CE_RATE (R469): corrected events on a unit reach CE_LIMIT within an hour. They are counted as corrected SRAM words. -/
def execCeRate (u : UnitRef) (events : Nat) (s : State) : Host.Outcome State Fault Refusal :=
  if unitPresent s u = true ∧ fieldOf s.flt.ctl 15 8 ≤ events then
    if clocksRun s && decide (4 ≤ s.boot.stage) then
      let s1 := { s with flt := { s.flt with ceSram := saturate 0xFFFF (s.flt.ceSram + events) } }
      finish s (detect { cls := 1, action := 0, code := 0x10, unitKind := unitKindOf u, unit := unitNumber u, count := fieldOf s.flt.ctl 15 8
                         detail0 := events } (some u) s1)
    else finish s s
  else .refused .illFormed

/-- WRITE_BUFFER_DRAIN (R356): the oldest published unit drains to its region. -/
def execWriteBufferDrain (s : State) : Host.Outcome State Fault Refusal :=
  match s.mem.wb with
  | [] => finish s s
  | u :: rest => finish s (if clocksRun s then drainUnit u { s with mem := { s.mem with wb := rest } } else s)

end Sys2Proof.Machine
end

