-- ==== Sys2Proof/Machine/Net.lean ====
section
/-!
DEFINITION. Novmund ports, frames and the regatta (R419 to R433): port training, DATA, ACK, CONTROL and TIME frames, forwarding and
retransmission, joins, leaves and epochs, and time alignment.
-/

namespace Sys2Proof.Machine

/-! ### Ports (R421) -/

/-- A write to NL_CTL[p]: ENABLE starts training or takes the port down, RETRAIN trains it again, CLR_CNT clears its counters. -/
def writeNlCtl (p : Nat) (w : RegAccess) (s : State) : State :=
  let x := nlPortOf s p
  let old : Reg := BitVec.ofNat 64 (bit x.enable + 8 * bit x.width4 + 16 * x.medium)
  let r := rwField old w 0 0 anyVal (rwField old w 3 3 anyVal (rwField old w 5 4 (fun v => decide (v < 3)) old))
  let on := bitOf r 0
  let x1 := { x with medium := fieldOf r 5 4, width4 := bitOf r 3, enable := on }
  let x2 :=
    if !on then { x1 with training := false, linkUp := false, width := 0, degraded := false, peer := none }
    else if !x.enable ∨ wrote w 6 = true then { x1 with training := true } else x1
  setNlPort s p (if wrote w 7 then { x2 with fecCorrected := 0, fecUncorrected := 0, retransmits := 0 } else x2)

/-- A write to NL_CTL of a port the part lacks is ignored (R419). -/
def nlWrite (p : Nat) (w : RegAccess) (s : State) : State := if pfWrite w s && isPort s p then writeNlCtl p w s else s

/-- NL_ENABLE (R421). -/
def execNlEnable (p : Nat) (w : RegAccess) (s : State) : Host.Outcome State Fault Refusal :=
  if p < 8 ∧ wrote w 0 = true then finish s (nlWrite p w s) else .refused .illFormed

/-- NL_RETRAIN (R421). -/
def execNlRetrain (p : Nat) (w : RegAccess) (s : State) : Host.Outcome State Fault Refusal :=
  if p < 8 ∧ wrote w 6 = true then finish s (nlWrite p w s) else .refused .illFormed

/-- CLR_CNT (R428). -/
def execClrCnt (p : Nat) (w : RegAccess) (s : State) : Host.Outcome State Fault Refusal :=
  if p < 8 ∧ wrote w 7 = true then finish s (nlWrite p w s) else .refused .illFormed

/-- NL_PORT_TRAINED (R421): width 8, width 4, or down. WIDTH4 holds the port to four lanes without DEGRADED. -/
def execNlPortTrained (p : Nat) (t : TrainResult) (s : State) : Host.Outcome State Fault Refusal :=
  if isPort s p = true ∧ (t.lanes = 0 ∨ t.lanes = 4 ∨ t.lanes = 8) then
    let x := nlPortOf s p
    if clocksRun s && x.training then
      let n := if x.width4 then min 4 t.lanes else t.lanes
      finish s (setNlPort s p { x with
        training := false, linkUp := n != 0, width := n, degraded := n == 4 && !x.width4, peer := if n = 0 then none else t.peer })
    else finish s s
  else .refused .illFormed

/-- NL_LINK_LOST (R431). -/
def execNlLinkLost (p : Nat) (s : State) : Host.Outcome State Fault Refusal :=
  if isPort s p then
    let x := nlPortOf s p
    finish s (if clocksRun s && x.linkUp then
      setNlPort s p { x with linkUp := false, width := 0, degraded := false, peer := none } else s)
  else .refused .illFormed

/-! ### Membership (R429 to R431) -/

/-- The least of a list of package numbers. -/
def leastPkg : List Nat → Option Nat
  | [] => none
  | x :: xs => some (xs.foldl min x)

/-- The time master of a membership: the lowest package with TIME_MASTER, else the leader (R432). -/
def masterOf (members masters : List Nat) : Option Nat := (leastPkg (masters.filter members.contains)).or (leastPkg members)

/-- The package is no member any more. -/
def goAlone (s : State) : State :=
  { s with net := { s.net with
      st := .alone, epoch := 0, members := [], masters := [], leader := 0, changes := [], nextEpoch := none, master := false, locked := false
      goodExchanges := 0, stepped := false, joinAt := none } }

/-- An epoch is adopted with its members. -/
def enterEpoch (epoch : Nat) (members masters : List Nat) (s : State) : State :=
  { s with net := { s.net with
      st := .member, epoch := epoch, members := members, masters := masters, leader := (leastPkg members).getD 0
      master := masterOf members masters == some s.net.pkgNum, nextEpoch := none, joinAt := none } }

/-- The shell ends at the next commit point, or now when no stroke is in progress (R442). -/
def endShellSoon (s : State) : State :=
  if s.net.shell = .solo then s
  else if s.srv.strokeSince.isSome then { s with net := { s.net with shell := .ending } }
  else endShell s

/-- A new epoch is adopted at a stroke boundary: a package it does not name has left, and a shell that lost a member ends (R429,
R431). -/
def adoptEpoch (s : State) : State :=
  match s.net.nextEpoch with
  | none => s
  | some (e, members, masters) =>
    let out := !members.contains s.net.pkgNum
    let broken := s.net.shellPkgs.any (fun p => !members.contains p)
    let s1 := if out then goAlone s else enterEpoch e members masters s
    if out || broken then endShellSoon s1 else s1

/-- A write to REGATTA_CTL: PKG_NUM and REGATTA_ID only while ALONE, then JOIN and LEAVE (R430, R431). -/
def writeRegattaCtl (w : RegAccess) (s : State) : State :=
  let n := s.net
  let old : Reg := BitVec.ofNat 64 (n.pkgNum + 2 ^ 15 * bit n.timeMaster + 2 ^ 32 * n.regattaId)
  let r0 := rwField old w 15 15 anyVal old
  let r := if n.st = .alone then rwField old w 63 32 anyVal (rwField old w 10 0 anyVal r0) else r0
  let s1 := { s with net := { n with regattaId := fieldOf r 63 32, timeMaster := bitOf r 15, pkgNum := fieldOf r 10 0 } }
  let s2 :=
    if wrote w 11 && s1.net.st == .alone then
      sendControls ((s1.net.route.filter (fun x => hasBit x.2 8)).map Prod.fst)
        (.joinRequest s1.net.pkgNum s1.net.regattaId s1.net.timeMaster)
        { s1 with net := { s1.net with st := .joining, joinAt := some (now s), joinResult := 0 } }
    else s1
  if wrote w 12 && s2.net.st == .member then
    let s3 : State := { s2 with net := { s2.net with st := .leaving } }
    if s3.net.leader = s3.net.pkgNum then { s3 with net := { s3.net with changes := s3.net.changes ++ [(s3.net.pkgNum, false, false)] } }
    else sendControl s3.net.leader (.leaveRequest s3.net.pkgNum) s3
  else s2

/-- JOIN (R430). -/
def execJoin (w : RegAccess) (s : State) : Host.Outcome State Fault Refusal :=
  if wrote w 11 then finish s (if pfWrite w s then writeRegattaCtl w s else s) else .refused .illFormed

/-- LEAVE (R431). -/
def execLeave (w : RegAccess) (s : State) : Host.Outcome State Fault Refusal :=
  if wrote w 12 then finish s (if pfWrite w s then writeRegattaCtl w s else s) else .refused .illFormed

/-- Some port of the part has its link up. -/
def anyPortUp (s : State) : Bool := (List.range 8).any (fun p => isPort s p && (nlPortOf s p).linkUp)

/-- JOIN_NO_PORT (R430): no port came up within 100 ms of JOIN. -/
def execJoinNoPort (s : State) : Host.Outcome State Fault Refusal :=
  let due := s.net.joinAt.any (fun t => decide (t + 100000000 ≤ now s))
  if clocksRun s && s.net.st == .joining && !anyPortUp s && due then
    finish s { s with net := { s.net with st := .alone, joinResult := 3, joinAt := none } }
  else finish s s

/-- REGATTA_FORM_ALONE (R430): links are up, and no member was heard within 10 ms of JOIN. -/
def execRegattaFormAlone (s : State) : Host.Outcome State Fault Refusal :=
  let due := s.net.joinAt.any (fun t => decide (t + 10000000 ≤ now s))
  if clocksRun s && s.net.st == .joining && anyPortUp s && due then
    let s1 := enterEpoch 1 [s.net.pkgNum] (if s.net.timeMaster then [s.net.pkgNum] else []) s
    finish s { s1 with net := { s1.net with joinResult := 1 } }
  else finish s s

/-- A member list after a change. -/
def applyChange (ms : List Nat) (c : Nat × Bool × Bool) : List Nat :=
  if c.2.1 then (if ms.contains c.1 then ms else insertBy (fun a b => decide (a < b)) c.1 ms) else ms.filter (· != c.1)

/-- EPOCH_START (R429): the leader carries the full member list of a new epoch to every package that it concerns. -/
def execEpochStart (s : State) : Host.Outcome State Fault Refusal :=
  let n := s.net
  if clocksRun s && (n.st == .member || n.st == .leaving) && n.leader == n.pkgNum && !n.changes.isEmpty then
    let base := n.nextEpoch.getD (n.epoch, n.members, n.masters)
    let ms := n.changes.foldl applyChange base.2.1
    let joined := (n.changes.filter (fun c => c.2.1 && c.2.2)).map Prod.fst
    let masters := (base.2.2 ++ joined).dedup.filter ms.contains
    let e := (base.1 + 1) % 2 ^ 32
    let s1 := { s with net := { n with changes := [], nextEpoch := some (e, ms, masters) } }
    finish s (sendControls (base.2.1 ++ ms).dedup (.epoch n.regattaId e ((leastPkg ms).getD 0) ms masters) s1)
  else finish s s

/-! ### Receiving frames (R422, R425, R426) -/

/-- CONTROL frames of a join, which a package takes from one that is no member. -/
def isJoinControl : Control → Bool
  | .joinRequest _ _ _ => true
  | .joinRefused _ => true
  | .epoch _ _ _ _ _ => true
  | .regattaSeen _ _ => true
  | _ => false

/-- A codeword that FEC cannot correct drops the frame and is counted (R422). -/
def countFec (p : Nat) (s : State) : State :=
  let x := nlPortOf s p
  setNlPort s p { x with fecUncorrected := saturate 0xFFFF (x.fecUncorrected + 1) }

/-- The frame is accepted from a port: the link is up, it is a Novmund frame of version 1, and its source is a member of the current
epoch or asks to join. -/
def frameGood (p : Nat) (f : Frame) (s : State) : Bool :=
  clocksRun s && (nlPortOf s p).linkUp && f.version == 1 && (s.net.members.contains f.src || (f.kind == 2 && isJoinControl f.control))

/-- A frame arrives: dropped, or taken by the handler when it is for this package. -/
def receive (p : Nat) (f : Frame) (body : State → State) (s : State) : State :=
  if !f.fecOk then (if clocksRun s && (nlPortOf s p).linkUp then countFec p s else s)
  else if frameGood p f s && f.dst == s.net.pkgNum then body s
  else s

/-- The frame's fields fit their widths (R424). -/
def frameOk (s : State) (p : Nat) (f : Frame) : Bool :=
  isPort s p && decide (f.version < 16) && decide (f.hops < 16) && decide (f.src < 2048) && decide (f.dst < 2048) && decide (f.shell < 2 ^ 32)
    && decide (f.seq < 2 ^ 32) && decide (f.payload.length ≤ 4096)

/-- A DATA frame is delivered to the engines and acknowledged. -/
def deliver (f : Frame) (s : State) : State :=
  transmit (newFrame s 1 f.src f.shell f.seq [] .none)
    { s with net := { s.net with
        delivered := s.net.delivered ++ [f], rxSeq := sset s.net.rxSeq f.src ((f.seq + 1) % 2 ^ 32)
        early := s.net.early.filter (fun g => !(g.src == f.src && g.seq == f.seq)) } }

/-- Frames that arrived early are delivered while they are next in order. -/
def deliverEarly (src : Nat) : Nat → State → State
  | 0, s => s
  | n + 1, s =>
    match s.net.early.find? (fun g => g.src == src && g.seq == sgetD s.net.rxSeq src 0) with
    | some g => deliverEarly src n (deliver g s)
    | none => s

/-- A DATA frame for this package: next in order, ahead of its turn, or a repeat that is acknowledged again. -/
def takeData (f : Frame) (s : State) : State :=
  let want := sgetD s.net.rxSeq f.src 0
  if f.seq = want then deliverEarly f.src s.net.early.length (deliver f s)
  else if (f.seq + 2 ^ 32 - want) % 2 ^ 32 < 2 ^ 31 then
    (if s.net.early.any (fun g => g.src == f.src && g.seq == f.seq) then s
     else { s with net := { s.net with early := s.net.early ++ [f] } })
  else transmit (newFrame s 1 f.src f.shell f.seq [] .none) s

/-- DATA_FRAME (R426). -/
def execDataFrame (p : Nat) (f : Frame) (s : State) : Host.Outcome State Fault Refusal :=
  if frameOk s p f = true ∧ f.kind = 0 then finish s (receive p f (takeData f) s) else .refused .illFormed

/-- ACK_FRAME (R426): the acknowledged frame is held no longer. -/
def execAckFrame (p : Nat) (f : Frame) (s : State) : Host.Outcome State Fault Refusal :=
  if frameOk s p f = true ∧ f.kind = 1 then
    finish s (receive p f (fun t => { t with net := { t.net with
      unacked := t.net.unacked.filter (fun x => !(x.frame.dst == f.src && x.frame.seq == f.seq)) } }) s)
  else .refused .illFormed

/-- TIME_FRAME (R432): the receipt stamp is kept for the path delay. -/
def execTimeFrame (p : Nat) (f : Frame) (rxStamp : Nat) (s : State) : Host.Outcome State Fault Refusal :=
  if frameOk s p f = true ∧ f.kind = 3 then
    finish s (receive p f (fun t => { t with net := { t.net with timeStamps := sset t.net.timeStamps f.src rxStamp } }) s)
  else .refused .illFormed

/-- FRAME_FORWARD (R425): a frame for another package leaves by a port of the route table with HOPS lowered, or is dropped. -/
def execFrameForward (p : Nat) (f : Frame) (s : State) : Host.Outcome State Fault Refusal :=
  if frameOk s p f = true ∧ f.kind < 4 then
    finish s (
      if !f.fecOk then (if clocksRun s && (nlPortOf s p).linkUp then countFec p s else s)
      else if frameGood p f s && f.dst != s.net.pkgNum && f.hops != 0 then transmit { f with hops := f.hops - 1 } s
      else s)
  else .refused .illFormed

/-- RETRANSMIT (R426): 20 µs after its last transmission a frame goes out again; after 8 transmissions it is a path fault. -/
def execRetransmit (dst seq : Nat) (s : State) : Host.Outcome State Fault Refusal :=
  match s.net.unacked.find? (fun x => x.frame.dst == dst && x.frame.seq == seq) with
  | none => finish s s
  | some x =>
    if clocksRun s && decide (x.lastTx + 20000 ≤ now s) then
      if 8 ≤ x.count then
        let s1 := { s with net := { s.net with unacked := s.net.unacked.filter (fun y => !(y.frame.dst == dst && y.frame.seq == seq)) } }
        finish s (detect { cls := 2, action := if s.net.shellPkgs.contains dst then 2 else 0, code := 0x50, unitKind := 6, unit := x.port
                           committed := true, detail0 := dst, detail1 := x.count } none s1)
      else
        let p := (pickPort s dst).getD x.port
        let y := nlPortOf s p
        let s1 := transmit x.frame (setNlPort s p { y with retransmits := saturate 0xFFFF (y.retransmits + 1) })
        finish s { s1 with net := { s1.net with
          unacked := s1.net.unacked.map (fun z =>
            if z.frame.dst == dst && z.frame.seq == seq then { z with port := p, lastTx := now s, count := z.count + 1 } else z) } }
    else finish s s

/-! ### Time alignment (R432) -/

/-- The timestamp's rate for a measured offset: it makes the offset good over the 1 ms to the next exchange, by at most 200 ppm. -/
def rateFor (offset : Int) : Int := max (-200) (min 200 (-offset))

/-- The packages that this one exchanges TIME frames with: its direct peers and its time source. -/
def timePeers (s : State) : List Nat :=
  let direct := (List.range 8).filterMap (fun p => if isPort s p && (nlPortOf s p).linkUp then (nlPortOf s p).peer.map Prod.fst else none)
  ((direct ++ (masterOf s.net.members s.net.masters).toList).dedup).filter (· != s.net.pkgNum)

/-- A TIME frame goes to each of them (R424: KIND 3, regatta traffic). -/
def sendTimes (s : State) : State := (timePeers s).foldl (fun t d => transmit (newFrame t 3 d 0 0 [] .none) t) s

/-- TIME_EXCHANGE (R432): TIME frames go out, and the offset that they gave is applied. offset is this package's time less the master's,
in ns. The first exchange after the join steps the timestamp forward; every other one changes its rate alone. -/
def execTimeExchange (offset : Int) (s : State) : Host.Outcome State Fault Refusal :=
  if -(2 ^ 31) ≤ offset ∧ offset < 2 ^ 31 then
    if clocksRun s && (s.net.st == .member || s.net.st == .leaving) then
      let s1 := sendTimes s
      let n := s1.net
      let good := decide (-40 ≤ offset ∧ offset ≤ 40)
      let k := if good then n.goodExchanges + 1 else 0
      let step := !n.stepped && !n.master && decide (offset < 0)
      finish s { s1 with
        net := { n with
          offsetNs := offset, goodExchanges := k, stepped := true
          locked := decide (3 ≤ k) || (n.locked && decide (-50 ≤ offset ∧ offset ≤ 50)) }
        clk := { s.clk with
          ts := if step then (s.clk.ts + offset.natAbs) % 2 ^ 64 else s.clk.ts
          ratePpm := if n.master ∨ step = true then 0 else rateFor offset } }
    else finish s s
  else .refused .illFormed

end Sys2Proof.Machine
end

