-- ==== Sys2Proof/Machine/Shell.lean ====
section
/-!
DEFINITION. Shells (R431, R434 to R442): what CONTROL frames ask, heartbeats and losses, forming and ending a shell, and the shell
restart.
-/

namespace Sys2Proof.Machine

/-! ### Joining a shell (R435, R436) -/

/-- The slots of SHELL_JOIN commands. -/
def joinSlots (s : State) : List Nat := (s.srv.slots.filter (fun x => x.2.work == .shellJoin)).map Prod.fst

/-- 0x1F SHELL_STATE_INVALID with its reason in byte 16 of the completion. -/
def shellError (reason : Nat) : CmdErr := { status := 0x1F, result := leBytes 4 0 ++ leBytes 1 reason }

/-- The package is solo again. -/
def goSolo (s : State) : State :=
  { s with net := { s.net with
      shell := .solo, shellId := 0, memberCount := 1, myMember := 0, shellPkgs := [], joined := [], readyMembers := [] } }

/-- A join fails (R436): the package returns to SOLO, and its SHELL_JOIN completes with the reason. -/
def joinFails (reason : Nat) (s : State) : State :=
  settle ((joinSlots s).foldl (fun t n => failRequest n (shellError reason) t) (goSolo s))

/-- The shell forms (R435): each SHELL_JOIN completes with the regatta epoch. -/
def formShell (s : State) : State :=
  let s1 := { s with net := { s.net with shell := .formed, joined := [] } }
  let s2 := (joinSlots s1).foldl (fun t n => endRequest n 0 (leBytes 4 t.net.epoch) t) s1
  settle (if isLead s2 then sendControls s2.net.shellPkgs (.shellFormed s2.net.shellId) s2 else s2)

/-- Every member has joined. -/
def allJoined (s : State) : Bool := (List.range s.net.memberCount).all s.net.joined.contains

/-- SHELL_FORMED (R435). -/
def execShellFormed (s : State) : Host.Outcome State Fault Refusal :=
  if clocksRun s && s.net.shell == .joining && allJoined s then finish s (formShell s) else finish s s

/-- SHELL_JOIN_TIMEOUT (R436). -/
def execShellJoinTimeout (s : State) : Host.Outcome State Fault Refusal :=
  if clocksRun s && s.net.shell == .joining && !allJoined s && decide (s.net.joinLimit ≤ now s) then finish s (joinFails 5 s)
  else finish s s

/-- A SHELL_JOIN of a listed package: it agrees with ours, or the join fails. The first one heard from a member is answered, so that
it learns of ours. -/
def hearJoin (shell pkg member : Nat) (members : List Nat) (s : State) : State :=
  if s.net.shell ≠ .joining ∨ s.net.shellPkgs.contains pkg = false then s
  else if shell ≠ s.net.shellId ∨ members ≠ s.net.shellPkgs ∨ s.net.shellPkgs.getD member 2048 ≠ pkg then joinFails 4 s
  else if s.net.joined.contains member then s
  else sendControl pkg (.shellJoin s.net.shellId s.net.pkgNum s.net.myMember s.net.shellPkgs)
    { s with net := { s.net with joined := s.net.joined ++ [member] } }

/-! ### Restart frames (R440) -/

/-- A restart frame of this package's shell. -/
def hearRestart (shell : Nat) (s : State) : State :=
  if shell ≠ 0 ∧ shell = s.net.shellId ∧ (s.net.shell = .formed ∨ s.net.shell = .restarting) then runRestart s else s

/-- A member's ready report reaches the lead. -/
def hearReady (member : Nat) (s : State) : State :=
  if s.net.shell = .restarting ∧ isLead s = true ∧ member < s.net.memberCount ∧ s.net.readyMembers.contains member = false then
    { s with net := { s.net with readyMembers := s.net.readyMembers ++ [member] } }
  else s

/-- SHELL_RESTART (R440): a fault of this member. A die reset is counted, and the hub logs its peer's reset (R475). -/
def execShellRestart (f : FaultReport) (s : State) : Host.Outcome State Fault Refusal :=
  if f.unitKind ≤ 8 ∧ f.unit < 2 ^ 16 ∧ [0x20, 0x21, 0x22, 0x23, 0x24, 0x30, 0x31, 0x40, 0x50].contains f.code = true
      ∧ f.dieReset.all (fun d => decide (d < Config.dies s.part)) = true then
    if clocksRun s && decide (4 ≤ s.boot.stage) then
      let s1 := match f.dieReset with
        | none => s
        | some d =>
          let t := takeFree { s with clk := { s.clk with dieResets := saturate 0xFFFF (s.clk.dieResets + 1) } }
          logRecord { cls := 2, action := 0, code := 0x30, unitKind := 1, unit := d, detail0 := 256 + 4 + d
                      detail1 := (Config.freeValue t.1).toNat } none t.2
      let who := if f.code = 0x24 ∧ f.unitKind = 2 then some (UnitRef.crew f.unit) else none
      finish s (detect { cls := codeClass f.code, action := 2, code := f.code, unitKind := f.unitKind, unit := f.unit
                         committed := f.committed, detail0 := f.detail0, detail1 := f.detail1 } who s1)
    else finish s s
  else .refused .illFormed

/-- RESTART_FRAME (R440). -/
def execRestartFrame (p : Nat) (f : Frame) (s : State) : Host.Outcome State Fault Refusal :=
  match f.control with
  | .restart shell =>
    if frameOk s p f = true ∧ f.kind = 2 then finish s (receive p f (hearRestart shell) s) else .refused .illFormed
  | _ => .refused .illFormed

/-- MEMBER_READY (R440). -/
def execMemberReady (member : Nat) (s : State) : Host.Outcome State Fault Refusal :=
  finish s (if clocksRun s then hearReady member s else s)

/-! ### Loss (R431) -/

/-- A package is lost: its record, the leader's change, and the end of the shell that it belongs to. The next lowest member leads once the
leader is lost. -/
def losePackage (pkg : Nat) (s : State) : State :=
  let peer := s.net.shellPkgs.contains pkg
  let s1 := detect { cls := 2, action := if peer then 4 else 0, code := 0x51, unitKind := 0, unit := 0, detail0 := pkg
                     detail1 := s.net.epoch } none s
  let n := s1.net
  let leader := if n.leader = pkg then (leastPkg (n.members.filter (· != pkg))).getD n.pkgNum else n.leader
  let changes := if leader = n.pkgNum ∧ n.members.contains pkg = true then n.changes ++ [(pkg, false, false)] else n.changes
  let s2 := { s1 with net := { n with leader := leader, changes := changes } }
  if peer then endShellSoon s2 else s2

/-- MEMBER_LOST (R431): a member's heartbeats have been missed for 1 ms. -/
def execMemberLost (pkg : Nat) (s : State) : Host.Outcome State Fault Refusal :=
  if pkg < 2048 then
    let n := s.net
    finish s (
      if clocksRun s && pkg != n.pkgNum && (n.members.contains pkg || n.shellPkgs.contains pkg)
          && decide (sgetD n.heard pkg 0 + 1000000 ≤ now s) then losePackage pkg s
      else s)
  else .refused .illFormed

/-- RESTART_READY_TIMEOUT (R440): a member that is not ready 100 ms after the restart began is lost. -/
def execRestartReadyTimeout (s : State) : Host.Outcome State Fault Refusal :=
  let n := s.net
  let late := (List.range n.memberCount).filter (fun m => !n.readyMembers.contains m)
  if clocksRun s && n.shell == .restarting && isLead s && decide (n.restarts.headD 0 + 100000000 ≤ now s) then
    finish s ((late.filterMap (fun m => n.shellPkgs[m]?)).foldl (fun t p => losePackage p t) s)
  else finish s s

/-- HEARTBEAT (R431): to each package of the shell, and to the leader. -/
def execHeartbeat (s : State) : Host.Outcome State Fault Refusal :=
  if clocksRun s && (s.net.st == .member || s.net.st == .leaving) then
    finish s (sendControls (s.net.shellPkgs ++ [s.net.leader]).dedup (.heartbeat s.net.pkgNum) s)
  else finish s s

/-! ### CONTROL frames (R429, R430) -/

/-- A request to join reaches a member: the leader gathers it or refuses a number in use; another member passes it on. -/
def hearJoinRequest (pkg regatta : Nat) (tm : Bool) (s : State) : State :=
  let n := s.net
  if n.st ≠ .member ∨ regatta ≠ n.regattaId then s
  else if n.leader ≠ n.pkgNum then sendControl n.leader (.joinRequest pkg regatta tm) s
  else if n.members.contains pkg then sendControl pkg (.joinRefused 2) s
  else { s with net := { n with changes := n.changes ++ [(pkg, true, tm)] } }

/-- Two regattas of one REGATTA_ID meet: the one whose leader has the higher number joins the other at its next epoch (R430). -/
def meetRegatta (regatta leader : Nat) (s : State) : State :=
  let n := s.net
  if n.st = .member ∧ n.leader = n.pkgNum ∧ regatta = n.regattaId ∧ leader < n.pkgNum then
    n.members.foldl (fun t m => sendControl leader (.joinRequest m regatta (n.masters.contains m)) t) s
  else s

/-- A new epoch reaches a package: one that is joining enters it at once, a member at its next stroke boundary. -/
def hearEpoch (src regatta epoch leader : Nat) (members masters : List Nat) (s : State) : State :=
  let n := s.net
  if regatta ≠ n.regattaId then s
  else if n.st = .joining ∧ members.contains n.pkgNum = true then
    let t := enterEpoch epoch members masters s
    { t with net := { t.net with joinResult := 1 } }
  else if n.st = .member ∨ n.st = .leaving then
    (if n.members.contains src = false ∧ members.contains n.pkgNum = false then meetRegatta regatta leader s
     else { s with net := { n with nextEpoch := some (epoch, members, masters) } })
  else s

/-- What a CONTROL frame asks. -/
def takeControl (f : Frame) (s0 : State) : State :=
  let s := { s0 with net := { s0.net with learned := sset s0.net.learned f.src f.srcAddr } }
  match f.control with
  | .none => s
  | .joinRequest pkg regatta tm => hearJoinRequest pkg regatta tm s
  | .joinRefused reason => if s.net.st = .joining then { s with net := { s.net with st := .alone, joinResult := reason % 8, joinAt := none } } else s
  | .epoch regatta e leader members masters => hearEpoch f.src regatta e leader members masters s
  | .leaveRequest pkg =>
    if s.net.leader = s.net.pkgNum then { s with net := { s.net with changes := s.net.changes ++ [(pkg, false, false)] } } else s
  | .heartbeat pkg => { s with net := { s.net with heard := sset s.net.heard pkg (now s) } }
  | .shellJoin shell pkg member members => hearJoin shell pkg member members s
  | .shellFormed shell => if s.net.shell = .joining ∧ shell = s.net.shellId then formShell s else s
  | .shellEnd shell => if shell ≠ 0 ∧ shell = s.net.shellId then endShellSoon s else s
  | .restart shell => hearRestart shell s
  | .ready shell member => if shell = s.net.shellId then hearReady member s else s
  | .regattaSeen regatta leader => meetRegatta regatta leader s

/-- CONTROL_FRAME (R429). -/
def execControlFrame (p : Nat) (f : Frame) (s : State) : Host.Outcome State Fault Refusal :=
  if frameOk s p f = true ∧ f.kind = 2 then finish s (receive p f (takeControl f) s) else .refused .illFormed

end Sys2Proof.Machine
end

