-- ==== Sys2Proof/Machine/Admin.lean ====
section
/-!
DEFINITION. The admin commands (R391): loading and unloading objects, ABORT, power states, logs, features, shells, firmware activation and
embedding tables. Each body gives what a fetched entry does once the header checks of R394 have passed: its host reads, then its
fields, then the checks of its own chapter.
-/

namespace Sys2Proof.Machine

/-! ### Gather lists (R412) -/

/-- The address and length of entry i of a gather list. -/
def gatherEntry (l : List Byte) (i : Nat) : Nat × Nat := (leAt l (16 * i) 8, leAt l (16 * i + 8) 4)

/-- SPACE of entry i of a gather list. -/
def gatherSpace (l : List Byte) (i : Nat) : Bool := hasBit (leAt l (16 * i + 12) 1) 0

/-- The bytes of the extents of n entries that lie in host memory, or the host read that fails. -/
def gatherData (s : State) (l : List Byte) : Nat → Nat → Except CmdErr (List Byte)
  | 0, _ => .ok []
  | n + 1, i => do
    let x := gatherEntry l i
    let bs ← if gatherSpace l i then .ok [] else needRead s x.1 x.2
    let rest ← gatherData s l n (i + 1)
    .ok (bs ++ rest)

/-- The fields of entry i: SPACE 0, reserved bits 0 and a length of at least 1. LAST is ignored. -/
def gatherField (l : List Byte) (i : Nat) : Option CmdErr :=
  let f := leAt l (16 * i + 12) 4
  if (gatherEntry l i).2 = 0 then some (badField 5 (16 * i + 8))
  else if f % 2 = 1 ∨ f / 4 % 64 ≠ 0 then some (badField 5 (16 * i + 12))
  else if f / 65536 ≠ 0 then some (badField 5 (16 * i + 14))
  else none

/-- The first field of the list that is out of range. -/
def gatherFields (l : List Byte) (n : Nat) : Except CmdErr Unit :=
  match (List.range n).findSome? (gatherField l) with
  | some x => .error x
  | none => .ok ()

/-- The list of a command and the bytes it gathers. -/
def gatherRead (s : State) (a n : Nat) : Except CmdErr (List Byte × List Byte) := do
  let l ← needRead s a (16 * n)
  let bs ← gatherData s l n 0
  .ok (l, bs)

/-! ### Models (R196 to R199) -/

/-- 0x30 IMAGE_INCOMPATIBLE with the first check that failed. -/
def badImage (check : Nat) : CmdErr := { status := 0x30, check := check, block := 4 }

/-- 0x1C OBJECT_SPACE_FULL. -/
def spaceFull (block : Nat) : CmdErr := { status := 0x1C, block := block }

/-- 0x1B OBJECT_NOT_LOADED at a field. -/
def notLoaded (block off : Nat) : CmdErr := { status := 0x1B, block := block, off := off }

/-- The check of an image. -/
def imageOk (c : Option Nat) : Except CmdErr Unit :=
  match c with
  | some n => .error (badImage n)
  | none => .ok ()

/-- A region of far memory for bytes of an object, or 0x1C (R343). -/
def needFar (bytes elem mode block : Nat) (s : State) : Except CmdErr (Nat × State) :=
  match addFar bytes elem mode s with
  | some t => .ok t
  | none => .error (spaceFull block)

/-- The content of a model's FAR tensors, in the order in which they lie (log entry 134). -/
def modelFarData (m : Model) : List Byte :=
  (m.descs.filter Desc.isFar).flatMap (fun d => readBytes m.tensors d.dataOff (descBytes d))

/-- The bytes of a model's near tensors, without the copies of further dies. -/
def modelNearSize (m : Model) : Nat := ((m.descs.filter Desc.isNear).map descBytes).sum

/-- The die that the device chooses for the HOME tensors or rows of an object (R197, R367): one after the other, by object number (DESIGN CHOICE, log
entry 150). -/
def homeFor (s : State) (oid : Nat) : Nat := oid % Config.dies s.part

/-- A model's tensors are placed (R197): its near and its far regions, both READ_ONLY_BELOW, and the die of its HOME tensors. -/
def placeModel (m : Model) (s : State) : Except CmdErr (Model × State) := do
  let f ← needFar (modelFarBytes m) 0 0 4 s
  let n := addRegion 0 0 (modelNearSize m) 0 0 f.2
  .ok ({ m with farRegion := f.1, nearRegion := n.1, homeDie := homeFor s m.oid }, initRegion f.1 0 (modelFarData m) n.2)

def loadModelBody (_ : RingRef) (e : Entry) (s : State) : Except CmdErr Taken := do
  let n := entryAt e 16 4
  let g ← gatherRead s (entryAt e 8 8) n
  entryZero e [(8, 12)]
  must (entryAt e 8 8 % 16 == 0) (badField 0 8)
  must (within 1 65536 n) (badField 0 16)
  gatherFields g.1 n
  must (decide (modelCount s < 64)) (spaceFull 0)
  imageOk (modelCheck g.2)
  let t := takeOid s
  let m := { parseModel g.2 with oid := t.1 }
  let u ← placeModel m t.2
  must (decide (placedNear u.2 [u.1] [] [] ≤ nearRoom s)) (spaceFull 4)
  .ok (.slot (.install (.model u.1)) u.2)

def execLoadModel (q : RingRef) (e : Entry) (s : State) : Host.Outcome State Fault Refusal :=
  fetchEntry (isRow q 0x02 e) loadModelBody q e s

/-- The handle is unusable from here on; the image stays while a request is bound to it (R199). -/
def unloadModelBody (_ : RingRef) (e : Entry) (s : State) : Except CmdErr Taken := do
  entryZero e [(8, 2)]
  must (modelIn s (entryAt e 8 2)).isSome (notLoaded 0 8)
  .ok (.done 0 [] (collect { s with obj := { s.obj with modelHandle := serase s.obj.modelHandle (entryAt e 8 2) } }))

def execUnloadModel (q : RingRef) (e : Entry) (s : State) : Host.Outcome State Fault Refusal :=
  fetchEntry (isRow q 0x03 e) unloadModelBody q e s

/-! ### Text objects (R81, R105, R264) -/

def loadVocabBody (_ : RingRef) (e : Entry) (s : State) : Except CmdErr Taken := do
  let bs ← needRead s (entryAt e 16 8) (entryAt e 24 4)
  entryZero e [(8, 1), (16, 12)]
  must (decide (entryAt e 8 1 < 16)) (badField 0 8)
  if bs.isEmpty then .ok (.slot (.install (.vocab (entryAt e 8 1) none)) s)
  else do
    must (textFits bs.length s) (spaceFull 4)
    imageOk (vocabCheck bs)
    .ok (.slot (.install (.vocab (entryAt e 8 1) (some (parseVocab bs)))) s)

def execLoadVocab (q : RingRef) (e : Entry) (s : State) : Host.Outcome State Fault Refusal :=
  fetchEntry (isRow q 0x04 e) loadVocabBody q e s

def loadGrammarBody (_ : RingRef) (e : Entry) (s : State) : Except CmdErr Taken := do
  let bs ← needRead s (entryAt e 16 8) (entryAt e 24 4)
  entryZero e [(8, 1), (16, 12)]
  if bs.isEmpty then .ok (.slot (.install (.grammar (entryAt e 8 1) none)) s)
  else do
    must (textFits bs.length s) (spaceFull 4)
    imageOk (grammarCheck bs)
    .ok (.slot (.install (.grammar (entryAt e 8 1) (some (parseGrammar bs)))) s)

def execLoadGrammar (q : RingRef) (e : Entry) (s : State) : Host.Outcome State Fault Refusal :=
  fetchEntry (isRow q 0x05 e) loadGrammarBody q e s

/-! ### Indexes (R204, R229) -/

/-- ELEM of the regions that hold an index's vectors: 4 KiB tiles for INT8, 8 KiB tiles for BF16 (R210). -/
def fullElem (ix : Index) : Nat := if ix.fullFormat = 7 then 0 else 2

/-- FULL and the side list's vectors, in READ_ONLY_BELOW and WRITE_BACK mode: in far memory where it has room for both, else in near memory
(R210). -/
def placeFull (ix : Index) (s : State) : (Nat × Nat) × State :=
  let e := fullElem ix
  let far := (addFar (fullSize ix) e 0 s).bind (fun a => (addFar (sideSize ix) e 1 a.2).map (fun b => ((a.1, b.1), b.2)))
  far.getD (
    let a := addRegion 0 0 (fullSize ix) e 0 s
    let b := addRegion 0 0 (sideSize ix) e 1 a.2
    ((a.1, b.1), b.2))

/-- An index image is placed (R210): FULL and the side list's vectors, and the near sections with the side list's codes and the deletion
state. -/
def placeIndex (bs : List Byte) (ix : Index) (s : State) : Index × State :=
  let f := placeFull ix s
  let n := addRegion 0 0 (deletionAt ix + ceilDiv ix.idCap 8) 0 0 f.2
  let full := ix.sections.getD 4 (0, 0)
  ({ ix with fullRegion := f.1.1, sideRegion := f.1.2, nearRegion := n.1 }, initRegion f.1.1 0 (slice bs full.1 full.2) n.2)

def indexCreateBody (_ : RingRef) (e : Entry) (s : State) : Except CmdErr Taken := do
  let n := entryAt e 24 4
  let g ← gatherRead s (entryAt e 16 8) n
  entryZero e [(8, 1), (16, 12)]
  must (decide (entryAt e 8 1 < 64)) (badField 0 8)
  must (entryAt e 16 8 % 16 == 0 || n == 0) (badField 0 16)
  must (decide (n ≤ 65536)) (badField 0 24)
  gatherFields g.1 n
  if n = 0 then .ok (.slot (.install (.index (entryAt e 8 1) none)) s)
  else do
    imageOk (indexCheck g.2)
    let t := takeOid s
    let ix := { parseIndex g.2 with oid := t.1 }
    let u := placeIndex g.2 ix t.2
    must (decide (placedNear u.2 [] [u.1] [] ≤ nearRoom s)) (spaceFull 4)
    .ok (.slot (.install (.index (entryAt e 8 1) (some u.1))) u.2)

def execIndexCreate (q : RingRef) (e : Entry) (s : State) : Host.Outcome State Fault Refusal :=
  fetchEntry (isRow q 0x06 e) indexCreateBody q e s

/-- UP_TO of 0 means the side list's length at this fetch; a greater one than that names entries that do not exist. -/
def indexMergeBody (_ : RingRef) (e : Entry) (s : State) : Except CmdErr Taken := do
  entryZero e [(8, 1), (16, 8)]
  must (decide (entryAt e 8 1 < 64)) (badField 0 8)
  match indexIn s (entryAt e 8 1) with
  | none => .error (notLoaded 0 8)
  | some ix => do
    must (decide (entryAt e 16 8 ≤ ix.side.length)) (badField 0 16)
    .ok (.slot (.merge ix.oid (if entryAt e 16 8 = 0 then ix.side.length else entryAt e 16 8)) s)

def execIndexMerge (q : RingRef) (e : Entry) (s : State) : Host.Outcome State Fault Refusal :=
  fetchEntry (isRow q 0x07 e) indexMergeBody q e s

/-! ### ABORT (R401) -/

/-- The request that holds a tag from a ring; one that a reset of its function has ended holds it no more. -/
def taggedSlot (s : State) (f ring tag : Nat) : Option (Nat × Request) :=
  s.srv.slots.find? (fun x => x.2.fn == f && x.2.ring == ring && x.2.tag == tag && !x.2.silent)

/-- ABORT: a request in a stroke stays RUNNING to the commit point, which ends it (R302). -/
def abortBody (q : RingRef) (e : Entry) (s : State) : Except CmdErr Taken := do
  entryZero e [(8, 6)]
  must (decide (entryAt e 12 2 < allocOf s q.fn)) (badField 0 12)
  match taggedSlot s q.fn (entryAt e 12 2) (entryAt e 8 4) with
  | none => .ok (.done 0 (leBytes 1 2) s)
  | some (n, r) =>
    if [0x09, 0x0C, 0x0D, 0x0F].contains r.opcode || r.st == .ending || r.aborted then .ok (.hold 1 r.fetchSeq s)
    else .ok (.hold 0 r.fetchSeq (setSlot s n { r with aborted := true, st := if r.st = .running then .running else .ending }))

def execAbort (q : RingRef) (e : Entry) (s : State) : Host.Outcome State Fault Refusal :=
  fetchEntry (isRow q 0x08 e) abortBody q e s

/-! ### ENTER_POWER_STATE (R403, R455) -/

/-- The fields of the entry; a reserved STATE is out of range (R397). -/
def powerFields (e : Entry) : Except CmdErr Unit := do
  entryZero e [(8, 2), (12, 4)]
  must (decide (entryAt e 8 1 ≤ 2)) (badField 0 8)
  must (decide (entryAt e 9 1 < 4)) (badField 0 9)
  must (decide (entryAt e 12 4 ≤ 60000)) (badField 0 12)

/-- Another ENTER_POWER_STATE is in progress, or the package is not in a solo shell: 0x17. During a firmware activation the command
waits for the activation to end (R513). -/
def powerBody (_ : RingRef) (e : Entry) (s : State) : Except CmdErr Taken := do
  powerFields e
  must (powerSlots s).isEmpty { status := 0x17 }
  if entryAt e 8 1 = 0 then .ok (.done 0 [] (wakeDevice 1 s))
  else do
    must (s.net.shell == .solo) { status := 0x17 }
    .ok (.slot (.power (entryAt e 8 1)) (if s.boot.act = .idle then beginDrain e s else s))

/-- Outside ACTIVE an entry that asks for another state waits until the device is ACTIVE. -/
def powerRow (state : Nat) (q : RingRef) (e : Entry) (s : State) : Host.Outcome State Fault Refusal :=
  if isRow q 0x09 e && entryAt e 8 1 == state then
    if s.gov.st = .active then fetchEntry true powerBody q e s else finish s s
  else .refused .illFormed

def execEnterPowerStateStandby (q : RingRef) (e : Entry) (s : State) : Host.Outcome State Fault Refusal := powerRow 1 q e s
def execEnterPowerStateRetain (q : RingRef) (e : Entry) (s : State) : Host.Outcome State Fault Refusal := powerRow 2 q e s

/-- The row of STATE 0; an entry with a reserved STATE is one of it too. -/
def execEnterPowerStateActive (q : RingRef) (e : Entry) (s : State) : Host.Outcome State Fault Refusal :=
  fetchEntry (isRow q 0x09 e && entryAt e 8 1 != 1 && entryAt e 8 1 != 2) powerBody q e s

/-! ### GET_LOG (R399, R463) -/

/-- The 64 bytes of the record numbered seq as function f reads it. -/
def logRecordBytes (s : State) (f seq : Nat) : List Byte :=
  match s.flt.live.find? (fun r => r.seq == seq) with
  | some r => if f = 0 ∨ r.fn = f then recordBytes r else List.replicate 64 0
  | none => List.replicate 64 0

/-- n bytes of the error record stream from an offset, as far as the newest record. -/
def logStream (s : State) (f off n : Nat) : List Byte :=
  let stop := min (off + n) (64 * s.flt.newest)
  let first := off / 64
  let bytes := (List.range (ceilDiv stop 64 - first)).flatMap (fun i => logRecordBytes s f (first + i + 1))
  (bytes.drop (off - 64 * first)).take (stop - off)

/-- The bytes that GET_LOG returns. -/
def logBytes (s : State) (q : RingRef) (e : Entry) : List Byte :=
  let off := entryAt e 12 4
  let n := entryAt e 24 4
  if entryAt e 8 1 = 1 then ((pageBytes (ringOf s ⟨q.fn, entryAt e 10 2⟩)).drop off).take n else logStream s q.fn off n

def getLogBody (q : RingRef) (e : Entry) (s : State) : Except CmdErr Taken := do
  entryZero e [(8, 1), (10, 6), (16, 12)]
  must (within 1 2 (entryAt e 8 1)) (badField 0 8)
  must (entryAt e 8 1 != 1 || decide (entryAt e 10 2 < allocOf s q.fn)) (badField 0 10)
  let bs := logBytes s q e
  .ok (.done 0 (leBytes 4 bs.length) (hostWrite s (entryAt e 16 8) bs))

/-- The row of LOG_ID 0x01; an entry with a reserved LOG_ID is one of it too. -/
def execGetLogErrorPage (q : RingRef) (e : Entry) (s : State) : Host.Outcome State Fault Refusal :=
  fetchEntry (isRow q 0x0A e && entryAt e 8 1 != 2) getLogBody q e s

def execGetLogErrorRecords (q : RingRef) (e : Entry) (s : State) : Host.Outcome State Fault Refusal :=
  fetchEntry (isRow q 0x0A e && entryAt e 8 1 == 2) getLogBody q e s

/-! ### SET_FEATURE (R391) -/

/-- The feature identifiers of R391. -/
def features : List Nat := [0x10, 0x21, 0x22, 0x23, 0x31, 0x32]

/-- The entry's own fields. -/
def featureFields (e : Entry) : Except CmdErr Unit := do
  entryZero e [(8, 2), (16, 8)]
  must (features.contains (entryAt e 8 1)) (badField 0 8)
  must (decide (entryAt e 9 1 < 2)) (badField 0 9)

/-- The value block of an entry that sets a feature. -/
def valueBlock (e : Entry) (s : State) : Except CmdErr (List Byte) := needRead s (entryAt e 16 8) 32

/-- 0x19 at the first offset of a value block whose condition does not hold. -/
def blockFields (cs : List (Nat × Bool)) : Except CmdErr Unit :=
  match cs.find? (fun c => !c.2) with
  | some c => .error (badField 3 c.1)
  | none => .ok ()

/-- ARBITRATION (ch. 14): ARB_WEIGHT in bytes 0 to 7, ARB_AGE in bytes 8 to 15. -/
def arbitrationBody (_ : RingRef) (e : Entry) (s : State) : Except CmdErr Taken := do
  let b ← valueBlock e s
  featureFields e
  reservedZero 3 b [(0, 3), (8, 6)]
  blockFields ([0, 1, 2].map (fun o => (o, leAt b o 1 != 0)) ++ [8, 10, 12].map (fun o => (o, leAt b o 2 != 0)))
  .ok (.slot (.install (.arbitration (BitVec.ofNat 64 (leAt b 0 8)) (BitVec.ofNat 64 (leAt b 8 8)))) s)

/-- The row sets the feature with identifier f. -/
def isFeature (q : RingRef) (f : Nat) (e : Entry) : Bool := isRow q 0x0B e && entryAt e 9 1 % 2 == 0 && entryAt e 8 1 == f

/-- The row of feature 0x10; an entry that sets a reserved feature is one of it too. -/
def execSetFeatureArbitration (q : RingRef) (e : Entry) (s : State) : Host.Outcome State Fault Refusal :=
  fetchEntry (isFeature q 0x10 e || (isRow q 0x0B e && entryAt e 9 1 % 2 == 0 && !features.contains (entryAt e 8 1))) arbitrationBody q e s

/-- SERVING (R313). -/
def servingBody (_ : RingRef) (e : Entry) (s : State) : Except CmdErr Taken := do
  let b ← valueBlock e s
  featureFields e
  reservedZero 3 b [(0, 4)]
  blockFields [(0, within 500 8000 (leAt b 0 2)), (2, within 1 4096 (leAt b 2 2))]
  .ok (.slot (.install (.serving (leAt b 0 2) (leAt b 2 2))) s)

def execSetFeatureServing (q : RingRef) (e : Entry) (s : State) : Host.Outcome State Fault Refusal :=
  fetchEntry (isFeature q 0x21 e) servingBody q e s

/-! ### PARTITION (R314, R315) -/

/-- Other partitions than n, with those that a command in a slot will set up. -/
def otherPartitions (s : State) (n : Nat) : List Partition :=
  let pending := (pendingInstalls s).filterMap (fun i => match i with | .partition k f pc w q => some (k, (⟨f, pc, w, q⟩ : Partition)) | _ => none)
  let now_ := s.srv.partitions.filter (fun x => !pending.any (fun y => y.1 == x.1))
  ((now_ ++ pending).filter (fun x => x.1 != n && x.2.quotaMib != 0)).map Prod.snd

/-- The masks overlap. -/
def masksMeet (a b : Nat) : Bool := (a &&& b) != 0

/-- The conditions of R315 that give 0x19, by block offset. -/
def partitionFields (s : State) (n : Nat) (p : Partition) : List (Nat × Bool) :=
  let others := otherPartitions s n
  let claimed := popCount p.pcMask 64 + (others.map (fun x => popCount x.pcMask 64)).sum
  let ways := popCount p.wayMask 16 + (others.map (fun x => popCount x.wayMask 16)).sum
  [(8, !others.any (fun x => masksMeet x.functions p.functions)),
   (16, !others.any (fun x => masksMeet x.pcMask p.pcMask) && decide (claimed + 8 ≤ 64)),
   (24, !others.any (fun x => masksMeet x.wayMask p.wayMask) && decide (ways + 2 ≤ 16)),
   (28, decide (p.quotaMib + (others.map Partition.quotaMib).sum ≤ s.srv.kvPoolMib))]

/-- A function of a mask has a request in flight or an open conversation. -/
def fnsBusy (s : State) (mask : Nat) (own : Nat) : Bool :=
  s.srv.slots.any (fun x => hasBit mask x.2.fn && x.2.fetchSeq != own)
    || s.srv.convs.any (fun c => hasBit mask c.fn && c.st != .paused)

def partitionBody (_ : RingRef) (e : Entry) (s : State) : Except CmdErr Taken := do
  let b ← valueBlock e s
  featureFields e
  reservedZero 3 b [(0, 1), (8, 18), (28, 4)]
  let n := leAt b 0 1
  blockFields [(0, within 1 15 n)]
  let p : Partition := ⟨leAt b 8 8, leAt b 16 8, leAt b 24 2, leAt b 28 4⟩
  blockFields (partitionFields s n p)
  let old := sgetD s.srv.partitions n {}
  let same := old.functions == p.functions && old.pcMask == p.pcMask && old.wayMask == p.wayMask
  must (same || !fnsBusy s (old.functions ||| p.functions) s.srv.fetchSeq) { status := 0x1D, block := 3 }
  .ok (.slot (.install (.partition n p.functions p.pcMask p.wayMask p.quotaMib)) s)

def execSetFeaturePartition (q : RingRef) (e : Entry) (s : State) : Host.Outcome State Fault Refusal :=
  fetchEntry (isFeature q 0x22 e) partitionBody q e s

/-! ### BOATHOUSE (R326) -/

def boathouseBody (_ : RingRef) (e : Entry) (s : State) : Except CmdErr Taken := do
  let b ← valueBlock e s
  featureFields e
  reservedZero 3 b [(0, 2), (4, 16)]
  let g := leAt b 0 2
  let size := leAt b 8 8
  let slots := leAt b 16 4
  blockFields
    [(0, within 64 255 g && (regionOf s g).st == .active && (regionOf s g).writeBack),
     (4, within 1 604800 (leAt b 4 4)),
     (8, size % 4096 == 0 && decide (size ≤ 2 ^ 41) && decide (size ≤ (regionOf s g).bytes)),
     (16, within 1 1048576 slots)]
  must (!boathouseBusy s g size slots) { status := 0x1D, block := 3 }
  .ok (.slot (.install (.boathouse g (leAt b 4 4) size slots)) s)

def execSetFeatureBoathouse (q : RingRef) (e : Entry) (s : State) : Host.Outcome State Fault Refusal :=
  fetchEntry (isFeature q 0x23 e) boathouseBody q e s

/-! ### PACK_TEMPLATE (R264) and PASSAGE_STORE (R254) -/

def packTemplateBody (_ : RingRef) (e : Entry) (s : State) : Except CmdErr Taken := do
  let b ← valueBlock e s
  let bs ← needRead s (leAt b 8 8) (leAt b 16 4)
  featureFields e
  reservedZero 3 b [(0, 1), (8, 12)]
  if bs.isEmpty then .ok (.slot (.install (.template (leAt b 0 1) none)) s)
  else do
    must (textFits bs.length s) (spaceFull 4)
    imageOk (templateCheck bs)
    .ok (.slot (.install (.template (leAt b 0 1) (some (parseTemplate bs)))) s)

def execSetFeaturePackTemplate (q : RingRef) (e : Entry) (s : State) : Host.Outcome State Fault Refusal :=
  fetchEntry (isFeature q 0x31 e) packTemplateBody q e s

/-- POISON_CONSUMED about a command (R353, R462): consumer 1 engine, 2 selection, 3 text engine, 4 copy. The unit named is the package. -/
def poisonRecord (f tag ring space addr consumer : Nat) (s : State) : State :=
  logRecord { cls := 2, action := 1, code := 0x13, unitKind := 0, unit := 0, committed := true, fn := f, tag := tag, ring := ring
              space := space, addr := addr, detail0 := consumer } none s

def passageStoreBody (q : RingRef) (e : Entry) (s : State) : Except CmdErr Taken := do
  let b ← valueBlock e s
  featureFields e
  reservedZero 3 b [(0, 4), (8, 8)]
  must (decide (leAt b 0 1 < 64)) (badField 3 0)
  must (decide (leAt b 1 1 < 2)) (badField 3 1)
  if leAt b 1 1 = 1 then .ok (.slot (.install (.passage (leAt b 0 1) none)) s)
  else do
    let g := leAt b 2 2
    let off := leAt b 8 8
    must (within 64 255 g && (regionOf s g).st == .active) (badField 3 2)
    must (off % 4096 == 0 && decide (off + 64 ≤ (regionOf s g).bytes)) (badImage 0)
    let r := regionRead s g off 64
    match r.1.2 with
    | some x =>
      let pl := placeOf r.2 g x
      .ok (.done 0x61 [] (poisonRecord q.fn (entTag e) q.ring pl.1 pl.2 1 r.2))
    | none => do
      must (passageHeaderOk r.1.1 off (regionOf s g).bytes) (badImage 0)
      .ok (.slot (.install (.passage (leAt b 0 1) (some (parsePassage r.1.1 g off)))) r.2)

def execSetFeaturePassageStore (q : RingRef) (e : Entry) (s : State) : Host.Outcome State Fault Refusal :=
  fetchEntry (isFeature q 0x32 e) passageStoreBody q e s

/-! ### GET of a feature (R391) -/

/-- The current value block of a feature; b is the block that says which slot is meant. -/
def currentBlock (s : State) (f : Nat) (b : List Byte) : List Byte :=
  let slot := leAt b 0 1
  slice (match f with
    | 0x10 => leBytes 8 s.port.arbWeight.toNat ++ leBytes 8 s.port.arbAge.toNat
    | 0x21 => leBytes 2 s.srv.strokeTargetUs ++ leBytes 2 s.srv.pageWait
    | 0x22 =>
      let p := sgetD s.srv.partitions slot {}
      leBytes 8 slot ++ leBytes 8 p.functions ++ leBytes 8 p.pcMask ++ leBytes 4 p.wayMask ++ leBytes 4 p.quotaMib
    | 0x23 =>
      leBytes 4 s.srv.bhRegion ++ leBytes 4 s.srv.bhTtl ++ leBytes 8 s.srv.bhSize ++ leBytes 4 s.srv.bhMaxSlots
    | 0x31 => leBytes 8 slot ++ leBytes 8 0 ++ leBytes 4 ((templateIn s slot).elim 0 Template.len)
    | _ =>
      match slookup s.obj.passages slot with
      | some p => leBytes 1 slot ++ leBytes 1 0 ++ leBytes 2 p.region ++ leBytes 4 0 ++ leBytes 8 p.offset
      | none => leBytes 1 0 ++ leBytes 1 1) 0 32

/-- The slot that the block names is in range. -/
def slotNamed (f : Nat) (b : List Byte) : Bool :=
  if f = 0x22 then within 1 15 (leAt b 0 1) else if f = 0x32 then decide (leAt b 0 1 < 64) else true

def featureGetBody (_ : RingRef) (e : Entry) (s : State) : Except CmdErr Taken := do
  let f := entryAt e 8 1
  let b ← if f = 0x22 ∨ f = 0x31 ∨ f = 0x32 then valueBlock e s else .ok []
  featureFields e
  must (slotNamed f b) (badField 3 0)
  .ok (.done 0 [] (hostWrite s (entryAt e 16 8) (currentBlock s f b)))

def execSetFeatureGet (q : RingRef) (e : Entry) (s : State) : Host.Outcome State Fault Refusal :=
  fetchEntry (isRow q 0x0B e && entryAt e 9 1 % 2 == 1) featureGetBody q e s

/-! ### Shells (R435, R436, R442) -/

/-- The package numbers of a shell block's member list. -/
def memberList (l : List Byte) (n : Nat) : List Nat := (List.range n).map (fun i => leAt l (2 * i) 2)

/-- The reason of R436 for which a SHELL_JOIN fails at once. -/
def joinReason (s : State) (pkgs : List Nat) (mine : Nat) : Option Nat :=
  firstFail
    [(1, s.net.shell == .solo),
     (2, s.srv.slots.isEmpty && s.obj.modelHandle.isEmpty && !s.srv.convs.any (fun c => c.st == .open || c.st == .paused)),
     (3, s.net.st == .member && pkgs.all s.net.members.contains),
     (4, pkgs[mine]? == some s.net.pkgNum && decide pkgs.Nodup)]

/-- This package asks its shell's members to join. -/
def startJoin (shell mine ms : Nat) (pkgs : List Nat) (s : State) : State :=
  let s1 := { s with net := { s.net with
    shell := .joining, shellId := shell, memberCount := pkgs.length, myMember := mine, shellPkgs := pkgs, joined := [mine], readyMembers := []
    joinLimit := now s + 1000000 * (if ms = 0 then 10000 else ms) } }
  sendControls pkgs (.shellJoin shell s.net.pkgNum mine pkgs) s1

def shellJoinBody (_ : RingRef) (e : Entry) (s : State) : Except CmdErr Taken := do
  let b ← needRead s (entryAt e 8 8) 64
  let n := leAt b 4 2
  let l ← needRead s (leAt b 16 8) (2 * n)
  entryZero e [(8, 8)]
  must (entryAt e 8 8 % 64 == 0) (badField 0 8)
  reservedZero 3 b [(0, 12), (16, 8)]
  blockFields [(0, within 1 0xFFFFFFFE (leAt b 0 4)), (4, within 2 2048 n), (8, decide (leAt b 8 4 ≤ 60000))]
  match joinReason s (memberList l n) (leAt b 6 2) with
  | some k => .error (shellError k)
  | none => .ok (.slot .shellJoin (startJoin (leAt b 0 4) (leAt b 6 2) (leAt b 8 4) (memberList l n) s))

def execShellJoin (q : RingRef) (e : Entry) (s : State) : Host.Outcome State Fault Refusal :=
  fetchEntry (isRow q 0x0C e) shellJoinBody q e s

/-- SHELL_END (R442): the shell ends at the next commit point. -/
def shellEndBody (_ : RingRef) (e : Entry) (s : State) : Except CmdErr Taken := do
  entryZero e [(8, 4)]
  must (entryAt e 8 4 != 0 && entryAt e 8 4 == s.net.shellId && s.net.shell != .joining) { status := 0x1F }
  .ok (.slot .shellEnd (sendControls s.net.shellPkgs (.shellEnd s.net.shellId) { s with net := { s.net with shell := .ending } }))

def execShellEnd (q : RingRef) (e : Entry) (s : State) : Host.Outcome State Fault Refusal :=
  fetchEntry (isRow q 0x0F e) shellEndBody q e s

/-! ### FIRMWARE_ACTIVATE (R512, R513) -/

/-- The REASON of R513 for which an activation fails at its fetch. -/
def activateReason (s : State) (slot : Nat) : Option Nat :=
  let f := slookup s.boot.slots slot
  let has := fun p : FwImage → Bool => f.elim false p
  firstFail
    [(6, s.boot.act == .idle && (powerSlots s).isEmpty && s.gov.st == .active),
     (7, has FwImage.present),
     (1, has FwImage.signatureOk),
     (2, has FwImage.rollbackOk),
     (3, has (fun x => x.contractMajor == 1)),
     (4, has FwImage.handoverOk)]

def firmwareActivateBody (_ : RingRef) (e : Entry) (s : State) : Except CmdErr Taken := do
  entryZero e [(8, 1)]
  must (decide (entryAt e 8 1 < 2)) (badField 0 8)
  match activateReason s (entryAt e 8 1) with
  | some k => .error (firmwareError k)
  | none => .ok (.slot (.activate (entryAt e 8 1)) { s with boot := { s.boot with act := .loaded, actSlot := entryAt e 8 1 } })

def execFirmwareActivate (q : RingRef) (e : Entry) (s : State) : Host.Outcome State Fault Refusal :=
  fetchEntry (isRow q 0x0D e) firmwareActivateBody q e s

/-! ### Embedding tables (R361 to R365) -/

/-- The table that a table block describes. -/
def parseTable (b : List Byte) (owner : Nat) : Table :=
  { owner := owner, kind := leAt b 3 1, fmt := leAt b 4 1, placement := leAt b 5 1, hashKind := leAt b 6 1, combine := leAt b 7 1
    rows := leAt b 8 8, rowBytes := leAt b 16 2, compA := leAt b 18 2, compB := leAt b 20 2, shardCount := leAt b 22 2
    shardIndex := leAt b 24 2, seed := leAt b 32 8 }

/-- The format codes of R362. -/
def tableFormats : List Nat := [0, 1, 2, 3, 7, 8, 9]

/-- Bytes of the table's row as a lookup returns it: A's and B's together for CONCAT. -/
def composedBytes (a b : Table) (combine : Nat) : Nat := if combine = 2 then a.rowBytes + b.rowBytes else a.rowBytes

/-- The fields of a STORED table's block, by offset (R363); the gather list of INIT_ADDR is 16-byte aligned (R412). -/
def storedFields (b : List Byte) : List (Nat × Bool) :=
  let t := parseTable b 0
  [(4, tableFormats.contains t.fmt), (5, decide (t.placement ≤ 3)), (6, decide (t.hashKind ≤ 2)), (7, t.combine == 0),
   (8, within 1 (2 ^ 32) t.rows), (16, within 4 8192 t.rowBytes && t.rowBytes % 4 == 0), (18, t.compA == 0), (20, t.compB == 0),
   (22, within 1 2048 t.shardCount), (24, decide (t.shardIndex < t.shardCount)), (32, t.hashKind == 1 || t.seed == 0), (40, leAt b 40 8 % 16 == 0)]

/-- The fields of a COMPOSED table's block, by offset (R363, R364). -/
def composedFields (s : State) (b : List Byte) : List (Nat × Bool) :=
  let t := parseTable b 0
  let stored := fun n : Nat => (tableIn s n).filter (fun x => x.kind == 0)
  let x := (stored t.compA).getD {}
  let y := (stored t.compB).getD {}
  [(4, tableFormats.contains t.fmt), (5, t.placement == 0), (6, decide (t.hashKind ≤ 1)), (7, decide (t.combine ≤ 2)), (8, t.rows == 0),
   (16, t.rowBytes == 0), (18, (stored t.compA).isSome && x.fmt == t.fmt), (20, (stored t.compB).isSome && y.fmt == t.fmt),
   (7, t.combine == 2 || x.rowBytes == y.rowBytes), (7, t.combine != 2 || decide (x.rowBytes + y.rowBytes ≤ 8192)),
   (6, t.hashKind != 0 || (x.hashKind == 0 && y.hashKind == 0)),
   (22, within 1 2048 t.shardCount), (24, decide (t.shardIndex < t.shardCount)), (32, t.seed == 0), (40, leAt b 40 8 == 0)]

/-- The gather list of INIT_ADDR: entries until they cover the held rows, at most 65,536 (R412 lets the command fix the length). The answer
is the list and how many entries it has. -/
def initList (s : State) (a need : Nat) : Nat → Nat → Nat → Except CmdErr (List Byte × Nat)
  | 0, _, _ => .ok ([], 0)
  | f + 1, i, got =>
    if need ≤ got then .ok ([], 0)
    else do
      let x ← needRead s (a + 16 * i) 16
      let r ← initList s a need f (i + 1) (got + max 1 (leAt x 8 4))
      .ok (x ++ r.1, r.2 + 1)

/-- The bytes that INIT_ADDR gathers, with its list. -/
def initRead (s : State) (b : List Byte) : Except CmdErr (List Byte × Nat × List Byte) :=
  if leAt b 40 8 = 0 ∨ leAt b 3 1 ≠ 0 then .ok ([], 0, [])
  else do
    let l ← initList s (leAt b 40 8) (parseTable b 0).bytes 65536 0 0
    let d ← gatherData s l.1 l.2 0
    .ok (l.1, l.2, d)

/-- A STORED table is placed (R367): a FAR one in a WRITE_BACK region of far memory, another in a region of near memory alone. The k-th row
that it holds is row SHARD_INDEX + k × SHARD_COUNT, and its rows lie in that order (R366); bs is their content, or empty. -/
def placeTable (t : Table) (bs : List Byte) (s : State) : Except CmdErr (Table × State) := do
  let n := if t.kind = 0 then t.bytes else 0
  let a ← if t.placement = 3 then needFar n 0 1 3 s else .ok (addRegion 0 0 n 0 1 s)
  .ok ({ t with region := a.1, homeDie := homeFor s t.oid }, initRegion a.1 0 (bs.take n) a.2)

/-- The number is taken by a table, or by one that a command in a slot will install. -/
def tableTaken (s : State) (n : Nat) : Bool :=
  (tableIn s n).isSome || (pendingInstalls s).any (fun i => match i with | .table k _ => k == n | _ => false)

def tableCreateBody (q : RingRef) (e : Entry) (s : State) : Except CmdErr Taken := do
  let b ← needRead s (entryAt e 8 8) 64
  let x ← initRead s b
  entryZero e [(8, 8)]
  must (entryAt e 8 8 % 64 == 0) (badField 0 8)
  blockFields ([(0, decide (leAt b 0 2 < 1024)), (2, leAt b 2 1 == 0), (3, decide (leAt b 3 1 ≤ 1))]
    ++ (if leAt b 3 1 = 0 then storedFields b else composedFields s b))
  reservedZero 3 b [(0, 26), (32, 16)]
  gatherFields x.1 x.2.1
  let t0 := parseTable b q.fn
  must (leAt b 40 8 == 0 || x.2.2.length == t0.bytes) (badField 3 40)
  must (!tableTaken s (leAt b 0 2)) { status := 0x1E, block := 3, off := 0 }
  let o := takeOid s
  let u ← placeTable { t0 with oid := o.1 } x.2.2 o.2
  must (decide (placedNear u.2 [] [] [u.1] ≤ nearRoom s)) (spaceFull 3)
  .ok (.slot (.install (.table (leAt b 0 2) u.1)) u.2)

/-- OP of the table block that an entry names. -/
def tableOp (e : Entry) (s : State) : Nat := (readByte s.mem.host (entryAt e 8 8 + 2)).toNat

/-- TABLE_CREATE with OP CREATE; an entry with a reserved OP is one of this row too. -/
def execTableCreate (q : RingRef) (e : Entry) (s : State) : Host.Outcome State Fault Refusal :=
  fetchEntry (isRow q 0x0E e && tableOp e s != 1) tableCreateBody q e s

/-- 0x2C BUFFER_NOT_OWNED about a table of another function, logged (R323, R376). -/
def tableForeign (n owner block off : Nat) : CmdErr := { status := 0x2C, block := block, off := off, log := some (0x01, n, owner) }

/-- A COMPOSED table, or one that a command will install, names the table. -/
def tableNamed (s : State) (n : Nat) : Bool :=
  let names := fun t : Table => t.kind == 1 && (t.compA == n || t.compB == n)
  s.obj.tableSlot.any (fun x => s.obj.tables.any (fun t => t.oid == x.2 && names t))
    || (pendingInstalls s).any (fun i => match i with | .table _ t => names t | _ => false)

def tableDeleteBody (q : RingRef) (e : Entry) (s : State) : Except CmdErr Taken := do
  let b ← needRead s (entryAt e 8 8) 64
  entryZero e [(8, 8)]
  must (entryAt e 8 8 % 64 == 0) (badField 0 8)
  let n := leAt b 0 2
  blockFields [(0, decide (n < 1024)), (2, leAt b 2 1 == 1)]
  match tableIn s n with
  | none => .error (notLoaded 3 0)
  | some t => do
    must (q.fn == 0 || q.fn == t.owner) (tableForeign n t.owner 3 0)
    must (!tableNamed s n) { status := 0x1E, block := 3, off := 0 }
    .ok (.slot (.install (.tableDelete n)) s)

def execTableDelete (q : RingRef) (e : Entry) (s : State) : Host.Outcome State Fault Refusal :=
  fetchEntry (isRow q 0x0E e && tableOp e s == 1) tableDeleteBody q e s

end Sys2Proof.Machine
end

