-- ==== Sys2Proof/Machine/Mailbox.lean ====
section
/-!
DEFINITION. Mailboxes (R405 to R410): the registers of a function's channel, the doorbell bits, and the firmware at the far end of a
channel.
-/

namespace Sys2Proof.Machine

/-- A write to a register of a function's own window takes effect (R379): the host port is up and the function is present. -/
def fnWrite (w : RegAccess) (s : State) : Bool := hostUp s && decide (w.fn < 64) && fnPresent s w.fn

/-- Firmware-side doorbell bits of a channel are set; each bit that rises enters the hardware event queue (R409, R514). -/
def setFwBits (f bits : Nat) (s : State) : State :=
  let c := channelOf s f
  let rise := (List.range 32).filter (fun b => hasBit bits b && !hasBit c.fwBits b)
  rise.foldl (fun t b => latch (.doorbell f b) t) (setChannel s f { c with fwBits := c.fwBits ||| bits })

/-- A write of H2D_PROD (R407): it posts, or is ignored with H2D_OVERRUN. -/
def writeH2dProd (f v : Nat) (s : State) : State :=
  let c := channelOf s f
  if 16 < (v + 32 - c.h2dCons) % 32 then setChannel s f { c with overrun := true }
  else if v = c.h2dProd then s
  else setFwBits f 1 (setChannel s f { c with h2dProd := v })

/-- A write of D2H_CONS: one that would pass D2H_PROD is ignored. -/
def writeD2hCons (f v : Nat) (s : State) : State :=
  let c := channelOf s f
  if (c.d2hProd + 32 - c.d2hCons) % 32 < (v + 32 - c.d2hCons) % 32 then s else setChannel s f { c with d2hCons := v }

/-- A write to MB_IDX. -/
def writeMbIdx (w : RegAccess) (s : State) : State :=
  let s1 := if covers w 4 0 then writeH2dProd w.fn (fieldOf (written w) 4 0) s else s
  if covers w 28 24 then writeD2hCons w.fn (fieldOf (written w) 28 24) s1 else s1

/-- A write to MB_DB: RING sets firmware-side bits 1 to 30, and PENDING is RW1C. -/
def writeMbDb (w : RegAccess) (s : State) : State :=
  let c := channelOf s w.fn
  let s1 := setChannel s w.fn { c with hostBits := c.hostBits &&& (0xFFFFFFFF - fieldOf (written w) 63 32) }
  setFwBits w.fn (2 * fieldOf (written w) 30 1) s1

/-- A write to MB_CFG: a pending bit that is unmasked while IRQ_EN is 1 raises VECTOR (R409). -/
def writeMbCfg (w : RegAccess) (s : State) : State :=
  let c := channelOf s w.fn
  let r0 := rwField c.cfg w 40 40 anyVal (rwField c.cfg w 36 32 anyVal (rwField c.cfg w 31 0 anyVal c.cfg))
  let open0 := c.hostBits &&& (0xFFFFFFFF - fieldOf c.cfg 31 0)
  let open1 := c.hostBits &&& (0xFFFFFFFF - fieldOf r0 31 0)
  let s1 := setChannel s w.fn { c with cfg := r0 }
  if bitOf r0 40 && open1 != 0 && !(bitOf c.cfg 40 && open0 == open1) then raiseMsix w.fn (fieldOf r0 36 32) s1 else s1

/-- A write to MB_STATUS: H2D_OVERRUN is RW1C. -/
def writeMbStatus (w : RegAccess) (s : State) : State :=
  let c := channelOf s w.fn
  setChannel s w.fn { c with overrun := c.overrun && !wrote w 0 }

/-- Bytes of an RW word replaced by an access. -/
def mergeBytes (w : RegAccess) : List Byte :=
  match w.half with
  | .full => leBytes 8 w.data.toNat
  | _ => leBytes 4 (w.data.toNat % 2 ^ 32)

/-- A write to a word of MB_H2D_SLOT, at byte offset o of the sixteen slots. -/
def writeH2dSlot (o : Nat) (w : RegAccess) (s : State) : State :=
  let c := channelOf s w.fn
  setChannel s w.fn { c with h2d := writeBytes c.h2d (o + (if w.half = .high then 4 else 0)) (mergeBytes w) }

/-- MB_H2D_POST (R407). -/
def execMbH2dPost (w : RegAccess) (s : State) : Host.Outcome State Fault Refusal :=
  if covers w 4 0 then finish s (if fnWrite w s then writeMbIdx w s else s) else .refused .illFormed

/-- MB_D2H_CONSUME (R409). -/
def execMbD2hConsume (w : RegAccess) (s : State) : Host.Outcome State Fault Refusal :=
  if covers w 28 24 then finish s (if fnWrite w s then writeMbIdx w s else s) else .refused .illFormed

/-- MB_DB_RING (R409). -/
def execMbDbRing (w : RegAccess) (s : State) : Host.Outcome State Fault Refusal :=
  if covers w 30 0 then finish s (if fnWrite w s then writeMbDb w s else s) else .refused .illFormed

/-- The response to an H2D message (R408). A type that is no request's is answered as a reserved one. -/
def mailAnswer (s : State) (msg : List Byte) : List Byte :=
  let cookie := leAt msg 4 4
  match leAt msg 0 2 with
  | 1 => mailMessage 1 1 (leAt msg 3 1) cookie (slice msg 8 56)
  | 2 => mailMessage 2 1 16 cookie (leBytes 8 (healthReg s) ++ leBytes 8 (bootReg s))
  | _ => mailMessage 0 1 0 cookie []

/-- MAILBOX_RESPONSE (R408): the firmware consumes the oldest H2D message of a non-secure channel and answers it. Its MESSAGE bit
clears when none is left. -/
def execMailboxResponse (ch : Nat) (s : State) : Host.Outcome State Fault Refusal :=
  if ch < 64 then
    let c := channelOf s ch
    if fwRunning s && c.h2dCons != c.h2dProd then
      let msg := readBytes c.h2d (64 * (c.h2dCons % 16)) 64
      let cons := (c.h2dCons + 1) % 32
      let s1 := setChannel s ch { c with
        h2dCons := cons, fwBits := if cons = c.h2dProd then clearBit c.fwBits 0 else c.fwBits }
      finish s (d2hPost ch (mailAnswer s1 msg) s1)
    else finish s s
  else .refused .illFormed

/-- MB_D2H_POST (R407): a held message is posted once its direction has space and the firmware runs. -/
def execMbD2hPost (ch : Nat) (s : State) : Host.Outcome State Fault Refusal :=
  if ch < 64 then
    let c := channelOf s ch
    match c.held with
    | [] => finish s s
    | msg :: rest =>
      if d2hRoom c && fwRunning s then finish s (d2hPut ch msg (setChannel s ch { c with held := rest })) else finish s s
  else .refused .illFormed

end Sys2Proof.Machine
end

