-- ==== Sys2Proof/Machine/Dma.lean ====
section
/-!
DEFINITION. Housekeeping DMA (R411 to R417): the registers of a channel, its control actions, gather lists, the move of one unit, and the
completion record.
-/

namespace Sys2Proof.Machine

/-! ### Completion record (R415) -/

/-- The 32 bytes of the completion record. -/
def dmaRecord (d : Dma) (ending : Nat) : List Byte :=
  leBytes 8 d.bytesDone ++ leBytes 4 d.seq ++ leBytes 1 ending ++ leBytes 1 d.error ++ leBytes 1 (bit d.poisonAt.isSome) ++ leBytes 1 0
    ++ leBytes 8 (d.poisonAt.getD (2 ^ 64 - 1)) ++ leBytes 4 (min d.poisonWords 0xFFFFFFFF) ++ leBytes 4 0

/-- A channel stops: its record is written, then its state shows the stop, then VECTOR is raised. -/
def dmaStop (ch : Nat) (d : Dma) (ending : Nat) (st : DmaState) (s : State) : State :=
  let s1 := hostWrite s d.cpl.toNat (dmaRecord d ending)
  let s2 := setDma s1 ch { d with st := st, aborting := false }
  if bitOf d.ctl 8 then raiseMsix 0 (fieldOf d.ctl 36 32) s2 else s2

/-- A channel stops with an error of R416. -/
def dmaFail (ch : Nat) (d : Dma) (code : Nat) (s : State) : State := dmaStop ch { d with error := code } 3 .error s

/-! ### Sides (R411, R412, R416) -/

/-- A stretch of a side: host memory or a region, the address or offset, its bytes, and whether it begins here. -/
structure DmaSeg where
  region : Option Nat
  addr : Nat
  len : Nat
  start : Bool
  deriving DecidableEq, Repr

/-- A range of a side is one the channel may use: a region is 64 to 255, serves (a FAILED one may be read), and holds the range. -/
def sideOk (s : State) (writes : Bool) (region : Option Nat) (addr len : Nat) : Bool :=
  match region with
  | none => true
  | some n =>
    let r := regionOf s n
    decide (64 ≤ n) && decide (n < 256) && (r.serves || (!writes && r.st == .failed)) && decide (addr + len ≤ r.bytes)

/-- The stretch of a gather list that holds transfer offset o, or the error found on reaching it. cum is the offset at which the entry
at address a begins. -/
def listSeg (s : State) (writes : Bool) (count o : Nat) : Nat → Nat → Nat → Except Nat DmaSeg
  | 0, _, _ => .error 3
  | f + 1, a, cum =>
    match hostRead s a 16 with
    | .error _ => .error 1
    | .ok bs =>
      let len := leAt bs 8 4
      let flags := leAt bs 12 4
      let last := hasBit flags 1
      if len = 0 ∨ flags / 4 % 64 ≠ 0 ∨ flags / 2 ^ 16 ≠ 0 ∨ count < cum + len ∨ last ≠ decide (cum + len = count) then .error 3
      else if cum + len ≤ o then listSeg s writes count o f (a + 16) (cum + len)
      else
        let region := if hasBit flags 0 then some (flags / 256 % 256) else none
        if sideOk s writes region (leAt bs 0 8) len then .ok ⟨region, leAt bs 0 8 + (o - cum), len - (o - cum), o == cum⟩ else .error 2

/-- The stretch of a contiguous side. -/
def plainSeg (s : State) (writes space : Bool) (region addr count o : Nat) : Except Nat DmaSeg :=
  let r := if space then some region else none
  if sideOk s writes r addr count then .ok ⟨r, addr + o, count - o, o == 0⟩ else .error 2

def srcSeg (s : State) (d : Dma) (o : Nat) : Except Nat DmaSeg :=
  if bitOf d.ctl 40 then listSeg s false d.count.toNat o 65536 d.src.toNat 0
  else plainSeg s false (bitOf d.ctl 42) (fieldOf d.ctl 55 48) d.src.toNat d.count.toNat o

def dstSeg (s : State) (d : Dma) (o : Nat) : Except Nat DmaSeg :=
  if bitOf d.ctl 41 then listSeg s true d.count.toNat o 65536 d.dst.toNat 0
  else plainSeg s true (bitOf d.ctl 43) (fieldOf d.ctl 63 56) d.dst.toNat d.count.toNat o

/-! ### Moving a unit (R413, R414) -/

/-- A byte read from a side with its poison, or the failure of a host read. -/
def sideByte (s : State) (region : Option Nat) (a : Nat) : Option (Byte × Bool) :=
  match region with
  | none =>
    if (firstCovered s.mem.hostFail a (a + 1)).isSome then none
    else some (readByte s.mem.host a, (firstCovered s.mem.hostBad a (a + 1)).isSome)
  | some n =>
    if (regionOf s n).st = .failed then some (0, true) else some (regionByte s n a, regionPoison s n (a / 32))

/-- Bytes of a stretch, up to the first host read that fails. The third part of each says that a word begins with it. -/
def segBytes (s : State) (g : DmaSeg) : Nat → Nat → List (Byte × Bool × Bool)
  | 0, _ => []
  | n + 1, i =>
    match sideByte s g.region (g.addr + i) with
    | none => []
    | some b => (b.1, b.2, (g.addr + i) % 32 == 0 || (i == 0 && g.start)) :: segBytes s g n (i + 1)

/-- Reads of a stretch wait: they need far memory whose port is being retrained (R347). -/
def segWaits (s : State) (g : DmaSeg) : Bool := g.region.any (portWaits s)

/-- The source's tiles are brought in before a region is read. -/
def touchSeg (s : State) (g : DmaSeg) (n : Nat) : State :=
  match g.region with
  | some r => if (regionOf s r).st = .failed then s else touchRange s r g.addr n
  | none => s

/-- n bytes of the source from transfer offset o, with the error that cut them short, if one did. -/
def gatherBytes (d : Dma) : Nat → Nat → Nat → State → List (Byte × Bool × Bool) × Nat × State
  | 0, _, _, s => ([], 0, s)
  | f + 1, o, n, s =>
    if n = 0 then ([], 0, s)
    else
      match srcSeg s d o with
      | .error e => ([], e, s)
      | .ok g =>
        let k := min n g.len
        let s1 := touchSeg s g k
        let bs := segBytes s1 g k 0
        if bs.length < k then (bs, 1, s1)
        else
          let r := gatherBytes d f (o + k) (n - k) s1
          (bs ++ r.1, r.2)

/-- The 32-byte words, from address a, that hold a poisoned byte. -/
def poisonedWords (a : Nat) (bs : List (Byte × Bool × Bool)) : List Nat :=
  ((bs.zipIdx.filter (fun x => x.1.2.1)).map (fun x => (a + x.2) / 32)).dedup

/-- Bytes land at the destination: in host memory, or in the write buffer as part of the region's unit (R356). -/
def landBytes (g : DmaSeg) (bs : List (Byte × Bool × Bool)) (s : State) : State :=
  let pois := poisonedWords g.addr bs
  match g.region with
  | none =>
    let s1 := hostWrite s g.addr (bs.map Prod.fst)
    { s1 with mem := { s1.mem with hostBad := s1.mem.hostBad ++ pois.map (fun w => (32 * w, 32)) } }
  | some n =>
    if bs.isEmpty then s
    else
      publishUnit ⟨n, g.addr / 4096, bs.zipIdx.map (fun x => ((g.addr + x.2) % 4096, x.1.1)), pois.flatMap (fun w => (List.range 4).map (fun i => w % 128 * 4 + i))⟩ s

/-- The write buffer, of 16,384 units, takes a unit of a region: it has space, or holds the unit already. -/
def bufferRoom (g : DmaSeg) (s : State) : Bool :=
  match g.region with
  | none => true
  | some n => decide (s.mem.wb.length < 16384) || s.mem.wb.any (fun u => u.region == n && u.unit == g.addr / 4096)

/-- The next unit waits: the write buffer has no space for its destination, or its source cannot be read now. -/
def unitWaits (s : State) (d : Dma) (g : DmaSeg) : Bool :=
  !bufferRoom g s || (match srcSeg s d d.bytesDone with | .ok x => segWaits s x | .error _ => false)

/-- A channel that is RUNNING or PAUSING moves one unit: up to the next boundary, the last byte or the failing point, and there stops
as R413 and R416 give. A unit for which the write buffer has no space waits, and so does one whose source lies
behind a far-memory port that is being retrained (R347). -/
def moveUnit (ch : Nat) (s : State) : State :=
  let d := dmaOf s ch
  if d.count = 0#64 then dmaStop ch d 0 .done s
  else
    match dstSeg s d d.bytesDone with
    | .error e => dmaFail ch d e s
    | .ok g =>
      if unitWaits s d g then s
      else
        let n := min g.len (4096 - g.addr % 4096)
        let r := gatherBytes d n d.bytesDone n s
        let bs := r.1
        let first := ((bs.zipIdx.filter (fun x => x.1.2.1)).map (fun x => d.bytesDone + x.2)).head?
        let d1 := { d with
          bytesDone := d.bytesDone + bs.length
          poisonAt := d.poisonAt.or first
          poisonWords := d.poisonWords + (bs.filter (fun x => x.2.1 && x.2.2)).length }
        let s1 := landBytes g bs r.2.2
        if r.2.1 ≠ 0 then dmaFail ch d1 r.2.1 s1
        else if d1.bytesDone = d.count.toNat then
          dmaStop ch { d1 with pauseLate := d1.pauseLate || d1.st == .pausing } 0 .done s1
        else if d1.aborting then dmaStop ch d1 2 .aborted s1
        else if d1.st = .pausing then dmaStop ch d1 1 .paused s1
        else setDma s1 ch d1

/-- DMA_UNIT_MOVED (R414). -/
def execDmaUnitMoved (ch : Nat) (s : State) : Host.Outcome State Fault Refusal :=
  if ch < 16 then
    let d := dmaOf s ch
    finish s (if clocksRun s && (d.st == .running || d.st == .pausing) then moveUnit ch s else s)
  else .refused .illFormed

/-! ### Registers and actions -/

/-- States in which the RW fields and registers accept writes, and START acts. -/
def dmaIdle (d : Dma) : Bool := d.st == .idle || d.st == .done || d.st == .aborted || d.st == .error

/-- START: the checks of contiguous sides run before any byte moves (R416). -/
def dmaStart (ch : Nat) (s : State) : State :=
  let d := dmaOf s ch
  if dmaIdle d then
    let d1 := { d with
      st := .running, bytesDone := 0, error := 0, seq := (d.seq + 1) % 2 ^ 32, aborting := false, poisonWords := 0, poisonAt := none }
    let bad := fun (list space writes : Bool) (region addr : Nat) =>
      !list && !sideOk s writes (if space then some region else none) addr d.count.toNat
    if bad (bitOf d.ctl 40) (bitOf d.ctl 42) false (fieldOf d.ctl 55 48) d.src.toNat
        || bad (bitOf d.ctl 41) (bitOf d.ctl 43) true (fieldOf d.ctl 63 56) d.dst.toNat then
      dmaFail ch d1 2 s
    else setDma s ch d1
  else s

def dmaPause (ch : Nat) (s : State) : State :=
  let d := dmaOf s ch
  if d.st = .running then setDma s ch { d with st := .pausing } else s

def dmaResume (ch : Nat) (s : State) : State :=
  let d := dmaOf s ch
  if d.st = .paused then setDma s ch { d with st := .running } else s

/-- ABORT: at the next boundary, or at once when PAUSED. -/
def dmaAbort (ch : Nat) (s : State) : State :=
  let d := dmaOf s ch
  if d.st = .paused then dmaStop ch d 2 .aborted s
  else if d.st = .running ∨ d.st = .pausing then setDma s ch { d with aborting := true }
  else s

/-- A write to DMA_CTL: its RW fields where they accept writes, then its actions in bit order. -/
def writeDmaCtl (ch : Nat) (w : RegAccess) (s : State) : State :=
  let d := dmaOf s ch
  let c := [(63, 56), (55, 48), (43, 43), (42, 42), (41, 41), (40, 40), (36, 32), (8, 8)].foldl
    (fun r f => rwField d.ctl w f.1 f.2 anyVal r) d.ctl
  let s1 := if dmaIdle d then setDma s ch { d with ctl := c } else s
  let s2 := if wrote w 0 then dmaStart ch s1 else s1
  let s3 := if wrote w 1 then dmaPause ch s2 else s2
  let s4 := if wrote w 2 then dmaResume ch s3 else s3
  if wrote w 3 then dmaAbort ch s4 else s4

/-- A write to DMA_SRC, DMA_DST, DMA_COUNT or DMA_CPL_ADDR. A count of 0 and a record address that is not aligned are out of range. -/
def writeDmaReg (ch which : Nat) (w : RegAccess) (s : State) : State :=
  let d := dmaOf s ch
  if !dmaIdle d then s
  else
    match which with
    | 0 => setDma s ch { d with src := merged d.src w }
    | 1 => setDma s ch { d with dst := merged d.dst w }
    | 2 => setDma s ch { d with count := rwField d.count w 47 0 (within 1 (2 ^ 48 - 1)) d.count }
    | _ => setDma s ch { d with cpl := rwField d.cpl w 63 0 (fun v => v % 32 == 0) d.cpl }

/-- A write to DMA_STATUS: PAUSE_LATE is RW1C. -/
def writeDmaStatus (ch : Nat) (w : RegAccess) (s : State) : State :=
  let d := dmaOf s ch
  setDma s ch { d with pauseLate := d.pauseLate && !wrote w 3 }

/-- DMA_START (R413). -/
def execDmaStart (ch : Nat) (w : RegAccess) (s : State) : Host.Outcome State Fault Refusal :=
  if ch < 16 ∧ wrote w 0 = true then finish s (if pfWrite w s then writeDmaCtl ch w s else s) else .refused .illFormed

/-- DMA_PAUSE (R413). -/
def execDmaPause (ch : Nat) (w : RegAccess) (s : State) : Host.Outcome State Fault Refusal :=
  if ch < 16 ∧ wrote w 1 = true then finish s (if pfWrite w s then writeDmaCtl ch w s else s) else .refused .illFormed

/-- DMA_RESUME (R413). -/
def execDmaResume (ch : Nat) (w : RegAccess) (s : State) : Host.Outcome State Fault Refusal :=
  if ch < 16 ∧ wrote w 2 = true then finish s (if pfWrite w s then writeDmaCtl ch w s else s) else .refused .illFormed

/-- DMA_ABORT (R413). -/
def execDmaAbort (ch : Nat) (w : RegAccess) (s : State) : Host.Outcome State Fault Refusal :=
  if ch < 16 ∧ wrote w 3 = true then finish s (if pfWrite w s then writeDmaCtl ch w s else s) else .refused .illFormed

end Sys2Proof.Machine
end

