-- ==== Sys2Proof/Machine/Power.lean ====
section
/-!
DEFINITION. Power, heat and the clock (17_power_scheduling.md): GOV_CTL (R547), sensor samples and the energy bank (R444, R447, R448, R451), peak
events (R453), THERMTRIP_N (R454), the power states (R455 to R459), and regulator alerts (R538).
-/

namespace Sys2Proof.Machine

/-! ### GOV_CTL (R547) -/

/-- Step 1 of R547 for a field: the access writes it, and its value lies in its own range. -/
def govOwn (w : RegAccess) (hi lo a b : Nat) : Bool := covers w hi lo && within a b (fieldOf (written w) hi lo)

/-- A field of GOV_CTL that stands by itself. -/
def govField (w : RegAccess) (hi lo a b old : Nat) : Nat := if govOwn w hi lo a b then fieldOf (written w) hi lo else old

/-- BANK_MAX in microjoules: 50 ms × (PEAK_W − SUSTAINED_W) (R448). -/
def bankMax (g : Gov) : Int := 50000 * ((g.peakW : Int) - g.sustainedW)

/-- The bank held to ±BANK_MAX. -/
def clampBank (g : Gov) : Gov := { g with bankUj := max (-(bankMax g)) (min (bankMax g) g.bankUj) }

/-- A write to GOV_CTL, judged in the two steps of R547. -/
def writeGovCtl (w : RegAccess) (s : State) : State :=
  let g := s.gov
  let p := fieldOf (written w) 63 48
  let u := fieldOf (written w) 47 32
  let pOwn := govOwn w 63 48 (Config.peakMinW s.part) (Config.peakW s.part)
  let uOwn := govOwn w 47 32 (Config.sustainedMinW s.part) (Config.sustainedW s.part)
  let p1 := if pOwn && decide ((if uOwn then u else g.sustainedW) ≤ p) then p else g.peakW
  let u1 := if uOwn && decide (u ≤ (if pOwn then p else g.peakW)) then u else g.sustainedW
  { s with gov := clampBank { g with
      peakW := p1, sustainedW := u1
      throttleC := govField w 31 24 85 105 g.throttleC
      gTh := govField w 23 16 1 255 g.gTh
      mCap := govField w 12 8 8 16 g.mCap } }

/-- GOV_CTL_WRITE (R547). -/
def execGovCtlWrite (w : RegAccess) (s : State) : Host.Outcome State Fault Refusal :=
  finish s (if pfWrite w s then writeGovCtl w s else s)

/-! ### Sensor samples (R444) -/

/-- The dies that have sensors: the part's compute dies and the hub. -/
def sensedDies (s : State) : List Nat := List.range (Config.dies s.part) ++ [8]

/-- T_d rose through 80 °C: corr[d] is at least 1.25 (R447). -/
def hotCorr (old new : State) (c : Sparse Rat) (d : Nat) : Sparse Rat :=
  if dieTemp old d ≤ 80 ∧ 80 < dieTemp new d ∧ sgetD c d 1 < (5 : Rat) / 4 then sset c d ((5 : Rat) / 4) else c

/-- A link of a die whose T_d has moved 15 °C or more from TRAIN_C retrains in the background (R459). -/
def retrainDie (s : State) (d : Nat) : State :=
  let t := tempOf s d
  let m := dieTemp s d - t.trainC
  if s.mem.nearTrained && t.valid && s.gov.st != .retain && decide (15 ≤ m ∨ m ≤ -15) then
    { s with gov := { s.gov with
        temps := sset s.gov.temps d { t with trainC := dieTemp s d }
        retrains := s.gov.retrains + 1 } }
  else s

/-- The temperatures of a sample. -/
def takeTemps (x : SensorData) (s : State) : State :=
  { s with gov := { s.gov with
      temps := (sensedDies s).foldl (fun m d =>
        let t := sgetD m d {}
        sset m d { t with
          dieC := x.dieC.getD d 0, valid := true
          stack0C := if d = 8 then 0 else x.stack0C.getD d 0
          stack1C := if d = 8 then 0 else x.stack1C.getD d 0 }) s.gov.temps } }

/-- HOT and THROTTLING after a sample (R451). -/
def takeThrottle (s : State) : State :=
  let ts := (sensedDies s).map (dieTemp s)
  let c : Int := s.gov.throttleC
  { s with gov := { s.gov with
      hot := ts.any (fun t => decide (c ≤ t))
      throttling := ts.any (fun t => decide (c + 5 ≤ t)) || (s.gov.throttling && !ts.all (fun t => decide (t < c - 2))) } }

/-- The energy of a sample of 10 µs: the counters, the bank (R448) and the end of a peak episode (R453). -/
def takeEnergy (x : SensorData) (s : State) : State :=
  let es := (sensedDies s).map (fun d => x.energyUj.getD d 0)
  let total := es.sum
  let g := s.gov
  { s with gov := clampBank { g with
      energyUj := g.energyUj + total
      windowUj := g.windowUj + total
      samples := (total :: g.samples).take 100
      dieSamples := ((List.range 9).map (fun d => x.energyUj.getD d 0) :: g.dieSamples).take 100
      bankUj := g.bankUj + 10 * (g.sustainedW : Int) - total
      peakEpisode := g.peakEpisode && decide (10 * g.peakW < total) } }

/-- The sample names every die, and every temperature fits its field. -/
def sampleOk (x : SensorData) : Bool :=
  x.dieC.length == 9 && x.stack0C.length == 9 && x.stack1C.length == 9 && x.energyUj.length == 9
    && (x.dieC ++ x.stack0C ++ x.stack1C).all (fun t => decide (-128 ≤ t ∧ t ≤ 127))

/-- SENSOR_SAMPLE (R444). -/
def execSensorSample (x : SensorData) (s : State) : Host.Outcome State Fault Refusal :=
  if sampleOk x then
    if s.pins.pwrok then
      let s1 := takeEnergy x (takeThrottle (takeTemps x s))
      let s2 := { s1 with gov := { s1.gov with corr := (List.range (Config.dies s.part)).foldl (hotCorr s s1) s1.gov.corr } }
      finish s ((sensedDies s).foldl retrainDie s2)
    else finish s s
  else .refused .illFormed

/-- PEAK_EVENT (R453): measured power over the last 10 µs exceeds PEAK_W; m falls by 2, and the episode counts once. -/
def execPeakEvent (s : State) : Host.Outcome State Fault Refusal :=
  let g := s.gov
  if clocksRun s && decide (10 * g.peakW < g.samples.headD 0) then
    finish s { s with gov := { g with
      mNow := g.mNow - 2, peakEpisode := true
      peakEvents := if g.peakEpisode then g.peakEvents else saturate 0xFFFF (g.peakEvents + 1) } }
  else finish s s

/-- OVER_SUSTAINED_WINDOW (R451): the window that ends is judged from the energy measured in it, in µJ over 100 ms. -/
def execOverSustainedWindow (s : State) : Host.Outcome State Fault Refusal :=
  let g := s.gov
  if s.pins.pwrok then
    finish s { s with gov := { g with
      windowUj := 0
      overSustained := if 100000 * g.sustainedW < g.windowUj then saturate 0xFFFF (g.overSustained + 1) else g.overSustained } }
  else finish s s

/-- A sensor number 8d + s of R454 that the part has. -/
def sensorOk (s : State) (n : Nat) : Bool :=
  (decide (n / 8 < Config.dies s.part) && decide (n % 8 < 6)) || (n / 8 == 8 && decide (n % 8 < 4))

/-- THERMTRIP (R454): every clock of the dies and the hub stops, THERMTRIP_N asserts, and the trip record is committed for the next
start-up. -/
def execThermtrip (sensor temp : Nat) (s : State) : Host.Outcome State Fault Refusal :=
  if sensorOk s sensor = true ∧ 115 ≤ temp then
    if s.pins.pwrok && s.pins.thermtripN then
      finish s { s with
        pins := { s.pins with thermtripN := false }
        clk := { s.clk with stopped := true }
        flt := { s.flt with trip := some (sensor, temp) } }
    else finish s s
  else .refused .illFormed

/-- PMB_ALERT (R538): a regulator that reports a fault makes the controller hold the clocks until PWROK falls. -/
def execPmbAlert (fault : Bool) (s : State) : Host.Outcome State Fault Refusal :=
  if s.pins.pwrok && fault then
    finish s { s with pins := { s.pins with pmbHold := true }, clk := { s.clk with stopped := true } }
  else finish s s

/-! ### Power states (R403, R455 to R458) -/

/-- Every request but the power command ends ABORTED at the next commit point (R403 step 3 with FORCE 1). -/
def forceDrain (s : State) : State :=
  { s with srv := { s.srv with
      slots := s.srv.slots.map (fun x => (x.1, match x.2.work with | .power _ => x.2 | _ => { x.2 with aborted := true })) } }

/-- POWER_DRAIN_TIMEOUT (R403): DRAIN_MS has passed. -/
def execPowerDrainTimeout (s : State) : Host.Outcome State Fault Refusal :=
  if clocksRun s && s.gov.draining then
    finish s (
      if s.gov.force then drainCheck (forceDrain s)
      else
        match powerSlots s with
        | (n, _) :: _ =>
          let s1 := endRequest n 0x4A [] s
          settle { s1 with gov := { s1.gov with draining := false } }
        | [] => { s with gov := { s.gov with draining := false } })
  else finish s s

/-- A RUNNING channel is paused as by PAUSE before RETAIN (R417). -/
def pauseForRetain (s : State) (ch : Nat) : State :=
  let t := dmaPause ch s
  if (dmaOf t ch).st = .pausing then moveUnit ch t else t

/-- A POWER_MARK record of RETAIN. -/
def powerMark (s : State) (exit : Bool) (correction : Int) : TraceRec :=
  { traceOf s 4 0xFFFFFFFF 2 (codeOf 64 correction) with exit := exit, discontinuity := exit }

/-- The entry to RETAIN (R457). -/
def enterRetain (s : State) : State :=
  let s1 := drainAll ((List.range 16).foldl pauseForRetain (drainAll s))
  let s2 := traceWrite (powerMark s1 false 0) s1
  let keep := bitOf s2.mem.ctl 1
  { s2 with
    cores := []
    crews := if keep then s2.crews else s2.crews.map (fun x => (x.1, { x.2 with sram := [], sramPoison := [], syncs := [] }))
    clk := { s2.clk with rootLock := false, retainFrac := 0, retainFrom := s2.clk.ts } }

/-- POWER_STATE_ENTERED (R456, R457): a wake that arrived during ENTERING starts the exit at once (R455). -/
def execPowerStateEntered (s : State) : Host.Outcome State Fault Refusal :=
  if clocksRun s && s.gov.st == .entering then
    let ret := s.gov.target == .retain
    let s1 := if ret then enterRetain s else s
    let g := { s1.gov with st := s.gov.target, wakePending := false }
    finish s { s1 with gov :=
      if s.gov.wakePending then { g with st := .exiting, exitFrom := if ret then 2 else 1, exitSince := now s1 } else g }
  else finish s s

/-- The timestamp is re-locked at the exit from RETAIN: a positive correction steps it, a negative one is absorbed at half rate (R498). -/
def relock (refCountNs : Nat) (s : State) : State :=
  let c : Int := (refCountNs : Int) - ((s.clk.ts : Int) - s.clk.retainFrom)
  let s1 := { s with clk := { s.clk with
    rootLock := true, retainFrac := 0
    ts := if 0 ≤ c then (s.clk.ts + c.toNat) % 2 ^ 64 else s.clk.ts
    halfDebt := if c < 0 then s.clk.halfDebt + c.natAbs else s.clk.halfDebt } }
  traceWrite (powerMark s1 true c) s1

/-- The expiries that fell due in RETAIN are applied in one event of the hardware event queue (R329). -/
def applyDue (s : State) : State :=
  match dueConvs s with
  | [] => s
  | c :: _ => applyExpiry (latch (.boathouse c.fn c.id) s)

/-- The exit from RETAIN but for the bank and the state (R458, R459). -/
def leaveRetain (refCountNs : Nat) (s : State) : State :=
  let s1 := relock refCountNs s
  let s2 := { s1 with gov := { s1.gov with corr := startCorr s1 } }
  applyDue ((sensedDies s2).foldl retrainDie s2)

/-- The restart that a record raised outside ACTIVE asked for (R455, R476). -/
def deferredActs (s : State) : State :=
  actOn s.gov.deferredRestart { s with gov := { s.gov with deferredRestart := 0 } }

/-- POWER_STATE_EXITED (R456, R458). The duration of the exit is in whole µs. -/
def execPowerStateExited (refCountNs : Nat) (s : State) : Host.Outcome State Fault Refusal :=
  if clocksRun s && s.gov.st == .exiting then
    let s1 := if s.gov.exitFrom = 2 then leaveRetain refCountNs s else s
    finish s (deferredActs { s1 with gov := { s1.gov with
      st := .active, bankUj := 0, lastExitUs := min (ceilDiv (now s1 - s.gov.exitSince) 1000) 0xFFFFFFFF, wakeOnDoorbell := false } })
  else finish s s

/-! ### Boathouse expiry (R327) -/

/-- BOATHOUSE_EXPIRY (R327, R329): the calendar has reached the instant. In RETAIN the expiry waits for the exit, and while activation
holds the firmware it waits in the event queue. -/
def execBoathouseExpiry (fn conv : Nat) (s : State) : Host.Outcome State Fault Refusal :=
  if fn < 64 then
    match convOf s fn conv with
    | none => finish s s
    | some c =>
      if clocksRun s && expires c && calReached s c.expirySec c.expiryFrac && s.gov.st != .retain then
        let s1 := latch (.boathouse fn conv) s
        finish s (if s1.boot.act = .held then s1
          else match convOf s1 fn conv with
            | some x => endConv .expired s1 x
            | none => s1)
      else finish s s
  else .refused .illFormed

end Sys2Proof.Machine
end

