-- ==== Sys2Proof/Machine/OpRecords.lean ====
section
/-!
DEFINITION. The operation records of a running unit (R183 to R191, R285, R370, R439): which record may start, what each does to the run
of its request, and how it completes. A row of the command table names the request slot, the run, the core and the record. A
record that may not start now leaves the package as it is.
-/

namespace Sys2Proof.Machine

/-! ### A record and its run -/

/-- A record with the request, unit and run it belongs to. -/
structure RecCtx where
  req : Request
  unit : UnitCtx
  run : RunCtx
  model : Model
  word : BitVec 256

/-- The record's wait, if it has one, is satisfied (R171, R189). -/
def recWaitMet (w : BitVec 256) (r : RunCtx) : Bool :=
  !recWaitEn w
    || decide (0 ≤ (BitVec.ofNat 32 (sgetD r.sync (recWaitSync w) 0) - BitVec.ofNat 32 (recWaitTarget w)).toInt)

/-- A core runs a launch of the record (R190: a launch runs whole on one core). -/
def recLaunched (s : State) (r : RecRef) : Bool :=
  s.cores.any (fun c =>
    match c.2.launch with
    | some l => l.slot == r.slot && l.run == r.run && l.recIdx == r.index
    | none => false)

/-- The pass whose tile a core's queue gives next: that of its oldest slot, or of the tile that the array offers first (R165). -/
def nextOwner (c : Core) : Option (Nat × Nat × Nat) :=
  match (sgetD c.queue c.readAt {}).tile with
  | some t => t.owner
  | none => c.outTiles.head?.bind OutTile.owner


/-- Every earlier record that a record depends on has been started, and every record that its own wait is for has completed (R189). Counts go on
over the strokes of a stage, so that a wait alone does not say so. -/
def recOrdered (s : State) (r : RecRef) (c : RecCtx) : Bool :=
  let m := c.model
  let recs := listRecords m c.unit.bind.list
  let own := if recWaitEn c.word then [(recWaitSync c.word, some (recWaitTarget c.word))] else []
  recs.all (fun x =>
    c.run.done.contains x
      || (!waitsOn m recs own r.index x && (decide (r.index ≤ x) || recLaunched s { r with index := x } || !waitsFor m recs r.index x)))

/-- The record may start: its request is in the stroke, the list of the unit holds it, it has not run, every record it depends on has, its wait is
satisfied, and the pass that a VECTOR_Q drains has run on the same core (R165, R167, R189). -/
def recReady (s : State) (r : RecRef) (c : RecCtx) : Bool :=
  c.req.st == .running && (listRecords c.model c.unit.bind.list).contains r.index && !c.run.done.contains r.index
    && recOrdered s r c && recWaitMet c.word c.run && !recLaunched s r
    && (recOp c.word != 0x21 || nextOwner (coreOf s r.core) == some (r.slot, r.run, boundRecord c.model r.index))

/-- The record that a reference names, where it has operation op and may start. -/
def recCtx (s : State) (r : RecRef) (op : Nat) : Option RecCtx :=
  match slotOf s r.slot with
  | none => none
  | some q =>
    match unitRun q r.run with
    | none => none
    | some u =>
      let m := modelByOid s u.1.model
      let c : RecCtx := ⟨q, u.1, u.2, m, recOf m r.index⟩
      if recOp c.word = op ∧ recReady s r c = true then some c else none

/-- The run in the slot, replaced, and the sync objects that stand for its numbers with it. -/
def putRun (r : RecRef) (run : RunCtx) (s : State) : State :=
  match slotOf s r.slot with
  | some q =>
    mirrorSyncs r.slot r.run run.sync (setSlot s r.slot (setUnitRun q r.run run))
  | none => s

/-- The count of a sync number goes up (R189, modulo 2^32). -/
def signalRun (w : BitVec 256) (r : RunCtx) : RunCtx :=
  if recSignalEn w then { r with sync := sset r.sync (recSignalSync w) ((sgetD r.sync (recSignalSync w) 0 + 1) % 2 ^ 32) } else r

/-- The first output word of a record that has written descriptors (R515). -/
def firstOutput (c : RecCtx) (run : RunCtx) : Nat :=
  match recWrites c.word with
  | [] => 0
  | n :: _ => elemCode c.model run n [0, 0, 0, 0, 0, 0] % 2 ^ 32

/-- The row that ROUTE's element for a row names, as descriptor field at byte at_ gives ROUTE (R186, R188). -/
def routeAt (m : Model) (r : RunCtx) (w : BitVec 256) (at_ row : Nat) : Int :=
  let n := recAt w at_ 2
  let ix := if (descOf m n).rank = 1 then [row, 0, 0, 0, 0, 0] else [0, row, 0, 0, 0, 0]
  elemInt 9 (elemCode m r n ix)

/-- The expert that ROUTE names for a row (R186). -/
def routeOf (m : Model) (r : RunCtx) (w : BitVec 256) (row : Nat) : Int := routeAt m r w 16 row

/-- The rows that a ROUTE descriptor has. -/
def routeRows (m : Model) (n : Nat) : Nat := if (descOf m n).rank = 1 then (descOf m n).e 0 else (descOf m n).e 1

/-- The WEIGHT and PARAM tensors whose content a record uses, each with the row that uses it, 0 where every row does. -/
def weightReads (c : RecCtx) : List (Nat × Nat) :=
  let w := c.word
  let ns :=
    if recOp w = 0x32 then []
    else if recOp w = 0x12 then
      (List.range (routeRows c.model (recAt w 16 2))).filterMap (fun i =>
        let x := routeOf c.model c.run w i
        if 0 ≤ x ∧ x < recAt w 18 2 then some (if 1 ≤ i ∧ i ≤ c.run.k then i else 0, recAt w 10 2 + x.toNat) else none)
    else (recReads w).map (fun n => (0, n))
  (ns.filter (fun x => decide ((descOf c.model x.2).cls ≤ 1))).dedup

/-- Poison in the content of a tensor, by its space and address. -/
def descPoison (s : State) (m : Model) (n : Nat) : Option (Nat × Nat) :=
  match descPlace m n, m.descs[n]? with
  | some x, some d => (rangePoison s x.1 x.2 (descBytes d)).map (placeOf s x.1)
  | _, _ => none

/-- The tiles of a FAR tensor, and of the scale tensor that goes with an MX one, come up into the near copy of its region (R188, R335). -/
def touchDesc (m : Model) (s : State) (n : Nat) : State :=
  match descPlace m n, m.descs[n]? with
  | some x, some d => if d.isFar then (regionRead s x.1 x.2 (descBytes d)).2 else s
  | _, _ => s

/-- A record of speculative work: one of a draft run, or one over rows of which some are drafts (R62, R67, R544). -/
def specRecord (c : RecCtx) : Bool := c.unit.spec || decide (0 < c.run.k)

/-- A record completes: the FAR tensors it used are in near memory, poison in what it used stays with its row (R353), it signals, and it
leaves an OPERATION trace record, with no operand values when it is speculative (R67, R515). -/
def completeRecord (r : RecRef) (c : RecCtx) (run0 : RunCtx) (s : State) : State :=
  let reads := weightReads c
  let bad := reads.filterMap (fun x => (descPoison s c.model x.2).map (fun a => (x.1, a)))
  let run := signalRun c.word { run0 with
    done := run0.done ++ [r.index], ran := run0.ran ++ [(r.index, r.core)], poisoned := run0.poisoned ++ bad }
  let s1 := reads.foldl (fun t x => touchDesc c.model t x.2) s
  let spec := specRecord c
  let t := traceOf s1 2 c.req.tag (r.index + c.model.handle * 2 ^ 32) (if spec then 0 else firstOutput c run)
  traceWrite { t with spec := spec, unit := r.core } (putRun r run s1)

/-- The meaning of a record's row. -/
def recordRun (op : Nat) (body : RecRef → RecCtx → State → State) (r : RecRef) (s : State) : Host.Outcome State Fault Refusal :=
  if isCore s r.core then
    match recCtx s r op with
    | some c => finish s (body r c s)
    | none => finish s s
  else .refused .illFormed

/-- A record whose whole effect is on its run. -/
def runBody (f : RecCtx → RunCtx) (r : RecRef) (c : RecCtx) (s : State) : State := completeRecord r c (f c) s

/-! ### Rows of tensors -/

/-- An element as an output value: integers and token ids exact, other formats widened to FP32 (R542). -/
def elemOut (m : Model) (r : RunCtx) (n : Nat) (ix : List Nat) : OutVal × Nat :=
  let d := descOf m n
  if isIntFormat d.fmt || d.fmt == 12 then (.int (elemInt d.fmt (elemCode m r n ix)), 0)
  else
    let x := elemFp32 m r n ix
    (.real x.1, x.2)

/-- A row along dimension 0 as output values, with the flags of widening it. -/
def rowOut (m : Model) (r : RunCtx) (n : Nat) (ix : List Nat) : List OutVal × Nat :=
  let xs := (List.range ((descOf m n).e 0)).map (fun i => elemOut m r n (ix.set 0 i))
  (xs.map Prod.fst, flagsOf (xs.map Prod.snd))

/-- The flags of widening an MX tensor that is read whole, row by row (R542). -/
def raiseWiden (m : Model) (r : RunCtx) (fault : Bool) (n : Nat) : RunCtx :=
  let d := descOf m n
  if isMx d.fmt then (outerIndices d).foldl (fun r ix => raiseRow r fault (tokenRow m r n (ixAt ix 1)) (rowOut m r n ix).2) r else r

/-- The rows of a tensor that are streamed: of a re-rank pair only the groups of 64 with a position below its VALID_LEN (R260). -/
def streamedRows (m : Model) (r : RunCtx) (n : Nat) : Nat :=
  let e := (descOf m n).e 1
  if r.seqLen ≠ 0 ∧ e = r.seqLen then min e r.streamed else e

/-- A row of one tensor as codes for a row of another: the codes themselves where both have one format that is not MX, else converted. -/
def copyRow (m : Model) (r : RunCtx) (src : Nat) (six : List Nat) (dst : Nat) (dix : List Nat) : List (Nat × List Nat × Nat) × Nat :=
  let fmt := (descOf m src).fmt
  if fmt = (descOf m dst).fmt ∧ isMx fmt = false then
    ((List.range (min ((descOf m src).e 0) ((descOf m dst).e 0))).map (fun i => (dst, dix.set 0 i, elemCode m r src (six.set 0 i))), 0)
  else
    let v := rowOut m r src six
    let w := rowCodes m dst dix v.1
    (w.1, flagOr v.2 w.2)

/-! ### MATMUL and EXPERT_MATMUL (R185, R186) -/

/-- The codes of n reduction elements of a tensor, padded with zero elements, and the scales of their blocks; a block wholly in the padding
takes 127 (R130). place gives the index of a reduction element. -/
def reduction (m : Model) (r : RunCtx) (n len padded : Nat) (place : Nat → List Nat) : List Nat × List Nat :=
  ((List.range padded).map (fun i => if i < len then elemCode m r n (place i) else 0),
   (List.range (padded / 32)).map (fun b => if 32 * b < len then scaleAt m r n (place (32 * b)) else 127))

/-- The accumulator that a row and column start from (R185). -/
def seedAt (m : Model) (r : RunCtx) (w : BitVec 256) (row j : Nat) : Int :=
  match recDesc w 14 with
  | none => 0
  | some n =>
    let code := elemCode m r n [j, row, 0, 0, 0, 0]
    if (descOf m n).fmt = 10 then elemInt 10 code else (code : Nat)

/-- One row of ROW times the weights stat: N accumulator lanes, each with its flags, which stay set over the chain of passes (R132, R134). -/
def matRow (m : Model) (r : RunCtx) (w : BitVec 256) (stat row : Nat) : List (Int × Nat) :=
  let rowD := descOf m (recAt w 8 2)
  let statD := descOf m stat
  let padded := alignUp (rowD.e 0) (passK rowD.fmt statD.fmt)
  let a := reduction m r (recAt w 8 2) (rowD.e 0) padded (fun i => [i, row, 0, 0, 0, 0])
  (List.range (statD.e 1)).map fun j =>
    let b := reduction m r stat (rowD.e 0) padded (fun i => [i, j, 0, 0, 0, 0])
    accumulate rowD.fmt statD.fmt (seedAt m r w row j) 0 a.1 b.1 a.2 b.2

/-- The accumulator lanes of one row of a MATMUL or EXPERT_MATMUL. A row whose expert lies outside 0 to E − 1 yields +0 and sets INV. -/
def passRowOf (m : Model) (r : RunCtx) (w : BitVec 256) (row : Nat) : List (Int × Nat) :=
  let stat := recAt w 10 2
  if recOp w = 0x12 then
    let x := routeOf m r w row
    if 0 ≤ x ∧ x < recAt w 18 2 then matRow m r w (stat + x.toNat) row
    else List.replicate ((descOf m stat).e 1) (0, flagInv)
  else matRow m r w stat row

/-- An accumulator as an output value: a 40-bit integer, or the bits of an FP32 value. -/
def accOut (isInt : Bool) (v : Int) : OutVal := if isInt then .int v else .real (BitVec.ofInt 32 v)

/-- The row that a row of ROW and its result stand for: a seed that is speculative as a whole makes it so (R544). -/
def matTag (m : Model) (r : RunCtx) (w : BitVec 256) (row : Nat) : Nat :=
  max (tokenRow m r (recAt w 8 2) row) ((recDesc w 14).elim 0 (fun n => tokenRow m r n row))

/-- The rows of a MATMUL or EXPERT_MATMUL, with their flags; the output stage writes OUT where the record names one. -/
def matmulRun (c : RecCtx) : RunCtx :=
  let w := c.word
  let m := c.model
  let src := recAt w 8 2
  let rowD := descOf m src
  let fault := recFault w
  (List.range (streamedRows m c.run src)).foldl (fun r row =>
    let p := passRowOf m r w row
    let tag := matTag m r w row
    let r1 := raiseRow r fault tag (flagsOf (p.map Prod.snd))
    match recDesc w 12 with
    | some o => putRow m r1 fault o [0, row, 0, 0, 0, 0] tag (p.map (fun x => accOut (pairIsInt rowD.fmt) x.1))
    | none => r1) c.run

/-- The output tiles of a pass that a VECTOR_Q drains: for each 64-column tile in turn, its rows by 64, each row with the OR of that tile's 64 lane
flags (R119, R134, R185, R190). -/
def passTiles (m : Model) (r : RunCtx) (slot run n : Nat) : List OutTile :=
  let w := recOf m n
  let src := recAt w 8 2
  let rowD := descOf m src
  let rows := (List.range (streamedRows m r src)).map (passRowOf m r w)
  let tags := (List.range (streamedRows m r src)).map (fun row =>
    let t := matTag m r w row
    (⟨some slot, decide (0 < t), t⟩ : RowTag))
  (List.range (ceilDiv ((descOf m (recAt w 10 2)).e 1) 64)).flatMap fun t =>
    outputTiles (pairIsInt rowD.fmt)
      (rows.map (fun p =>
        let cols := (p.drop (64 * t)).take 64
        (cols.map Prod.fst ++ List.replicate (64 - cols.length) 0, flagsOf (cols.map Prod.snd)))) tags (some (slot, run, n))

/-- The weights and the rows of the last pass of a record: the last 64 columns over the last K-tile; of an EXPERT_MATMUL, of the highest expert that
has rows, the experts streaming in ascending order (R130, R186). -/
def lastPassOf (m : Model) (r : RunCtx) (w : BitVec 256) : Option (Nat × List Nat) :=
  let rows := List.range (streamedRows m r (recAt w 8 2))
  if recOp w = 0x12 then
    let routed := rows.filter (fun row => decide (0 ≤ routeOf m r w row) && decide (routeOf m r w row < recAt w 18 2))
    match routed with
    | [] => none
    | _ :: _ =>
      let e := (routed.map (fun row => (routeOf m r w row).toNat)).foldl max 0
      some (recAt w 10 2 + e, routed.filter (fun row => (routeOf m r w row).toNat == e))
  else some (recAt w 10 2, rows)

/-- What the passes of a record leave in the array: the last stationary tile, and the products of the last pass with those that zero detection
gated (R141); real rows displace dummy rows (R144). -/
def recordPasses (m : Model) (r : RunCtx) (w : BitVec 256) (c : Core) : Core :=
  match lastPassOf m r w with
  | none => { c with inGap := false }
  | some (stat, rows) =>
    let rowD := descOf m (recAt w 8 2)
    let statD := descOf m stat
    let k := passK rowD.fmt statD.fmt
    let padded := alignUp (rowD.e 0) k
    let col := fun (j : Nat) =>
      let n := 64 * (ceilDiv (statD.e 1) 64 - 1) + j
      if n < statD.e 1 then
        let x := reduction m r stat (rowD.e 0) padded (fun i => [i, n, 0, 0, 0, 0])
        (x.1.drop (padded - k), x.2.drop ((padded - k) / 32))
      else (List.replicate k 0, List.replicate (k / 32) 127)
    let cols := (List.range 64).map col
    let row := fun (i : Nat) => ((reduction m r (recAt w 8 2) (rowD.e 0) padded (fun x => [x, i, 0, 0, 0, 0])).1.drop (padded - k)).map (elemNum rowD.fmt)
    { c with
      inGap := false, chain := [], products := rows.length * 64 * k
      statTile := some (statD.fmt, (List.range (k / 64)).flatMap (fun h => cols.flatMap (fun x => (x.1.drop (64 * h)).take 64)), cols.flatMap Prod.snd)
      gated := (rows.map (fun i => (cols.map (fun x =>
        ((row i).zip (x.1.map (elemNum statD.fmt))).countP (fun y => gatedProduct y.1 y.2))).sum)).sum }

/-- MATMUL and EXPERT_MATMUL: where OUT is none, the output tiles go to the hand-off queue of the core (R165, R185). -/
def matmulBody (r : RecRef) (c : RecCtx) (s : State) : State :=
  let core := recordPasses c.model c.run c.word (coreOf s r.core)
  let core1 :=
    if (recDesc c.word 12).isSome then core
    else startFilling { core with outTiles := core.outTiles ++ passTiles c.model c.run r.slot r.run r.index }
  completeRecord r c (matmulRun c) (setCore s r.core core1)

def execMatmul (r : RecRef) (s : State) : Host.Outcome State Fault Refusal := recordRun 0x10 matmulBody r s

def execExpertMatmul (r : RecRef) (s : State) : Host.Outcome State Fault Refusal := recordRun 0x12 matmulBody r s

/-! ### ELEMWISE (R138) -/

/-- One element of element-wise mode. Token ids take the floating path, as exact unsigned integers brought to FP32: R138 names floating and integer
operands only (DESIGN CHOICE, log entry 139). -/
def elemwiseAt (m : Model) (r : RunCtx) (w : BitVec 256) (ix : List Nat) : OutVal × Nat :=
  let a := recAt w 8 2
  let b := recAt w 10 2
  if isIntFormat (descOf m a).fmt then
    let v := elemInt (descOf m a).fmt (elemCode m r a ix) * elemInt (descOf m b).fmt (elemCode m r b ix)
    match recDesc w 12 with
    | some c => (.int (v + elemInt (descOf m c).fmt (elemCode m r c ix)), 0)
    | none => (.int v, 0)
  else
    let x := elemFp32 m r a ix
    let y := elemFp32 m r b ix
    match recDesc w 12 with
    | some c =>
      let z := elemFp32 m r c ix
      let v := ffma x.1 y.1 z.1
      (.real v.1, flagsOf [x.2, y.2, z.2, v.2])
    | none =>
      let v := fmul x.1 y.1
      (.real v.1, flagsOf [x.2, y.2, v.2])

/-- An INT40 output saturates with GOF, every other integer output with OVF (R138). -/
def elemwiseFlags (fmt f : Nat) : Nat := if fmt = 10 ∧ f ≠ 0 then flagGof else f

def elemwiseRun (c : RecCtx) : RunCtx :=
  let w := c.word
  let m := c.model
  let out := recAt w 14 2
  let d := descOf m out
  ((outerIndices d).filter (fun ix => decide (ixAt ix 1 < streamedRows m c.run out))).foldl (fun r ix =>
    let vs := (List.range (d.e 0)).map (fun i => elemwiseAt m r w (ix.set 0 i))
    let codes := rowCodes m out ix (vs.map Prod.fst)
    let row := resultRow m r ([recAt w 8 2, recAt w 10 2] ++ (recDesc w 12).toList) out (ixAt ix 1)
    raiseRow (putCodes m row r codes.1) (recFault w) row
      (flagOr (flagsOf (vs.map Prod.snd)) (elemwiseFlags d.fmt codes.2))) c.run

/-- Element-wise mode holds no stationary tile; its products, with those gated, are those of the last real pass (R138, R140, R141). -/
def elemwiseBody (r : RecRef) (c : RecCtx) (s : State) : State :=
  let m := c.model
  let ixs := allIndices (descOf m (recAt c.word 14 2))
  let core := coreOf s r.core
  completeRecord r c (elemwiseRun c) (setCore s r.core { core with
    inGap := false, products := ixs.length
    gated := ixs.countP (fun ix => gatedProduct (elemValue m c.run (recAt c.word 8 2) ix) (elemValue m c.run (recAt c.word 10 2) ix)) })

def execElemwise (r : RecRef) (s : State) : Host.Outcome State Fault Refusal := recordRun 0x11 elemwiseBody r s

/-! ### VECTOR and VECTOR_Q (R187, R190) -/

/-- The launch that a VECTOR or VECTOR_Q record makes. A VECTOR_Q drains the tiles of the rows that its pass has streamed, one column of 64 after
another (R167, R190). -/
def launchOf (r : RecRef) (c : RecCtx) : Launch :=
  let w := c.word
  let m := c.model
  let shape := loopShape (descOf m (recAt w 10 2))
  let isQ := recOp w == 0x21
  let pass := recOf m (boundRecord m r.index)
  let ext := if isQ then [16 * ceilDiv (streamedRows m c.run (recAt pass 8 2)) 64] else shape.2
  { slot := r.slot, run := r.run, model := m.oid, recIdx := r.index, e0 := shape.1, ext := ext, idx := ext.map (fun _ => 0)
    prog := m.progs.getD (recAt w 8 2) [], pc := 0, ports := recPorts w, selPort := recAt w 27 1, isQ := isQ
    params := (tensorCodes m c.run (recAt w 12 2)).map (BitVec.ofNat 32), base := 0
    bound := boundRecord m r.index, left := if isQ then ceilDiv ((descOf m (recAt pass 10 2)).e 1) 64 - 1 else 0 }

/-- The engine after a launch has gone on: the record completes when the launch has ended, and otherwise the core holds it at a WAIT that has
not been reached (R171). -/
def launchSettle (r : RecRef) (c : RecCtx) (y : Bool × Eng) (s : State) : State :=
  let s1 := setCore s r.core y.2.core
  let run := { y.2.run with sync := y.2.sync }
  if y.1 then completeRecord r c run s1 else putRun r run s1

/-- A launch on a core that holds none; a core in a launch takes no other. -/
def vectorBody (r : RecRef) (c : RecCtx) (s : State) : State :=
  let core := coreOf s r.core
  if core.launch.isSome then s
  else
    let l := launchOf r c
    let x : Eng := ⟨launchStart core l l.params (recAt c.word 26 1) (recAt c.word 28 2), c.run, c.model, c.run.sync⟩
    launchSettle r c (launchColumns (recFault c.word) (l.left + 1) x) s

def execVector (r : RecRef) (s : State) : Host.Outcome State Fault Refusal := recordRun 0x20 vectorBody r s

def execVectorQ (r : RecRef) (s : State) : Host.Outcome State Fault Refusal := recordRun 0x21 vectorBody r s

/-- The core holds a launch at an instruction that stalled it and no longer does: a WAIT whose target has been reached, or a POPQ with a tile to
read. -/
def waitDue (x : Eng) : Bool :=
  match atInstruction x with
  | (false, _) => false
  | (true, y) =>
    match y.core.launch with
    | none => false
    | some l =>
      let w := l.prog.getD l.pc 0
      match laneOpOf (laneOpc w) with
      | some op => (op == .wait || op == .popq) && whenHolds y.core (laneWhen (laneFieldsOf w)) && !stalls op (laneFieldsOf w) y
      | none => false

/-- A stalled launch goes on once its WAIT is reached, to its end or to the next WAIT that is not (R171). -/
def waitBody (n : Nat) (s : State) : State :=
  match (coreOf s n).launch with
  | none => s
  | some l =>
    match slotOf s l.slot with
    | none => s
    | some q =>
      match unitRun q l.run with
      | none => s
      | some u =>
        let m := modelByOid s l.model
        let c : RecCtx := ⟨q, u.1, u.2, m, recOf m l.recIdx⟩
        let x := loadEng s n
        if waitDue x then launchSettle ⟨l.slot, l.run, n, l.recIdx⟩ c (launchColumns (recFault c.word) (l.left + 1) x) s else s

/-- WAIT_COMPLETE (R171). -/
def execWaitComplete (n : Nat) (s : State) : Host.Outcome State Fault Refusal :=
  if isCore s n then finish s (waitBody n s) else .refused .illFormed

/-! ### GATHER (R368 to R371) -/

/-- The hash of R368. -/
def mix64 (id seed : Nat) : Nat :=
  let m := 2 ^ 64
  let z := (id ^^^ seed) % m
  let z := ((z ^^^ (z >>> 30)) * 0xBF58476D1CE4E5B9) % m
  let z := ((z ^^^ (z >>> 27)) * 0x94D049BB133111EB) % m
  z ^^^ (z >>> 31)

/-- The physical row of an id in a STORED table, or none when the id is out of range (R368). -/
def storedRow (t : Table) (id : Nat) : Option Nat :=
  if t.hashKind = 1 then some (((mix64 id t.seed >>> 32) * t.rows) >>> 32)
  else if t.hashKind = 2 then some (id % t.rows)
  else if id < t.rows then some id
  else none

/-- The element codes of a row's bytes (R362). -/
def rowElems (fmt : Nat) (bs : List Byte) : List Nat :=
  let bits := elemBits fmt
  (List.range (bs.length * 8 / bits)).map (fun i =>
    if bits = 4 then (leAt bs (i / 2) 1) / 2 ^ (4 * (i % 2)) % 16 else leAt bs (i * (bits / 8)) (bits / 8))

/-- A code of a table as an output value, widened exactly. -/
def codeOut (fmt code : Nat) : OutVal := if isIntFormat fmt then .int (elemInt fmt code) else .real (toFp32 (elemNum fmt code)).1

/-- COMBINE ADD or MUL of two elements: rounded once in FP32, or saturated as INT32 (R369). -/
def combineAt (mul : Bool) (fmt a b : Nat) : OutVal × Nat :=
  if isIntFormat fmt then
    let x := elemInt fmt a
    let y := elemInt fmt b
    let w := satWord (if mul then x * y else x + y)
    (.int w.1.toInt, w.2)
  else
    let x := (toFp32 (elemNum fmt a)).1
    let y := (toFp32 (elemNum fmt b)).1
    let w := if mul then fmul x y else fadd x y
    (.real w.1, w.2)

/-- The rows of A and B that a COMPOSED table combines for an id, or none when it is out of range (R369). -/
def composedRows (t a b : Table) (id : Nat) : Option (Nat × Nat) :=
  if t.hashKind = 0 then (if id / b.rows < a.rows then some (id / b.rows, id % b.rows) else none)
  else
    match storedRow a id, storedRow b id with
    | some x, some y => some (x, y)
    | _, _ => none

/-- The table a request has bound under a number (R365). -/
def boundTable (s : State) (p : Pipe) (n : Nat) : Table := tableOf s (sgetD p.boundTables n 0)

/-- The row that a lookup of an id gives, with its flags; none when the id is out of range. -/
def lookupRow (s : State) (p : Pipe) (n id : Nat) : Option (List OutVal × Nat) :=
  let t := boundTable s p n
  if t.kind = 0 then (storedRow t id).map (fun row => ((rowElems t.fmt (rowBytesOf s n t row)).map (codeOut t.fmt), 0))
  else
    let a := boundTable s p t.compA
    let b := boundTable s p t.compB
    (composedRows t a b id).map fun rows =>
      let x := rowElems t.fmt (rowBytesOf s t.compA a rows.1)
      let y := rowElems t.fmt (rowBytesOf s t.compB b rows.2)
      if t.combine = 2 then ((x ++ y).map (codeOut t.fmt), 0)
      else
        let r := List.zipWith (combineAt (t.combine == 1) t.fmt) x y
        (r.map Prod.fst, flagsOf (r.map Prod.snd))

/-- The tables and physical rows that a lookup of an id reads. -/
def lookupRows (s : State) (p : Pipe) (n id : Nat) : List (Table × Nat) :=
  let t := boundTable s p n
  if t.kind = 0 then (storedRow t id).toList.map (fun row => (t, row))
  else
    let a := boundTable s p t.compA
    let b := boundTable s p t.compB
    (composedRows t a b id).toList.flatMap (fun rows => [(a, rows.1), (b, rows.2)])

/-- The pipeline context of a request. -/
def reqPipe (r : Request) : Pipe := match r.work with | .pipe p => p | _ => {}

/-- The id of a lookup: 32 bits zero-extended, or 64 bits with the low word first (R370). -/
def lookupId (m : Model) (r : RunCtx) (n : Nat) (ix : List Nat) : Nat :=
  let lo := elemCode m r n (ix.set 0 0) % 2 ^ 32
  if (descOf m n).e 0 = 2 then lo + elemCode m r n (ix.set 0 1) % 2 ^ 32 * 2 ^ 32 else lo

def gatherRun (s : State) (c : RecCtx) : RunCtx :=
  let w := c.word
  let m := c.model
  let index := recAt w 10 2
  let out := recAt w 12 2
  let d := descOf m out
  (outerIndices (descOf m index)).foldl (fun r ix =>
    let row := resultRow m r [index] out (ixAt ix 1)
    match lookupRow s (reqPipe c.req) (recAt w 8 2) (lookupId m r index ix) with
    | some v => putRow m (raiseRow r (recFault w) row v.2) (recFault w) out ix row v.1
    | none => putRow m (raiseRow r (recFault w) row flagInv) (recFault w) out ix row (List.replicate (d.e 0) (.real 0))) c.run

/-- The lookups of a GATHER: the row of OUT each is for, and the tables and rows it reads. -/
def gatherReads (s : State) (c : RecCtx) : List (Nat × Table × Nat) :=
  let index := recAt c.word 10 2
  (outerIndices (descOf c.model index)).flatMap (fun ix =>
    let row := resultRow c.model c.run [index] (recAt c.word 12 2) (ixAt ix 1)
    (lookupRows s (reqPipe c.req) (recAt c.word 8 2) (lookupId c.model c.run index ix)).map (fun x => (row, x)))

/-- The rows read come up into the near copies of their regions, and poison in one stays with the row it was read for (R353, R371). -/
def gatherBody (r : RecRef) (c : RecCtx) (s : State) : State :=
  let reads := gatherReads s c
  let bad := reads.filterMap (fun x => (rowPoison s x.2.1 x.2.2).map (fun a => (x.1, a)))
  let run := gatherRun s c
  completeRecord r c { run with poisoned := run.poisoned ++ bad } (reads.foldl (fun t x => touchRow x.2.1 x.2.2 t) s)

def execGather (r : RecRef) (s : State) : Host.Outcome State Fault Refusal := recordRun 0x30 gatherBody r s

/-! ### KV_WRITE and PREFETCH (R188) -/

/-- A committed code in KV: the committed pages and the run's view of them take it. -/
def putKv (m : Model) (r : RunCtx) (x : Nat × List Nat × Nat) : RunCtx :=
  let base := (putCode m { r with kv := r.kvBase } x.1 x.2.1 x.2.2).kv
  { putCode m r x.1 x.2.1 x.2.2 with kvBase := base }

/-- The codes of one row of SRC in KV; those of a SPEC row go to shadow pages (R64, R188, R287). -/
def kvRow (m : Model) (row : Nat) (r : RunCtx) (codes : List (Nat × List Nat × Nat)) : RunCtx :=
  if 1 ≤ row then { putCodes m row r codes with kvShadow := r.kvShadow ++ codes.map (fun x => (row, x)) }
  else codes.foldl (putKv m) r

/-- KV_WRITE (R188): row r of SRC goes to position P + r of LAYER, and dimensions 2 to 4 of SRC go to dimensions 3 to 5 of the KV descriptor. Rows
beyond the unit's token rows, and positions at or above EXTENT[1], are not written: the manual does not say what becomes of them (DESIGN
CHOICE, log entry 140). -/
def kvWriteRun (c : RecCtx) : RunCtx :=
  let w := c.word
  let m := c.model
  let src := recAt w 8 2
  let kv := recAt w 10 2
  let rows := if c.run.rows = 0 then (descOf m src).e 1 else c.run.rows
  ((outerIndices (descOf m src)).filter (fun ix => decide (ixAt ix 1 < rows) && decide (c.run.pos + ixAt ix 1 < (descOf m kv).e 1))).foldl
    (fun r ix =>
      let row := tokenRow m r src (ixAt ix 1)
      let dix := [0, r.pos + ixAt ix 1, recAt w 12 2, ixAt ix 2, ixAt ix 3, ixAt ix 4]
      let x := copyRow m r src ix kv dix
      raiseRow (kvRow m row r x.1) (recFault w) row x.2) c.run

def execKvWrite (r : RecRef) (s : State) : Host.Outcome State Fault Refusal := recordRun 0x31 (runBody kvWriteRun) r s

/-- PREFETCH changes no value of its run (R188). -/
def prefetchRun (c : RecCtx) : RunCtx := c.run

/-- The tensors that a PREFETCH names: DESC, or the experts from DESC on that ROUTE selects, each with whether its row is speculative. -/
def prefetchDescs (c : RecCtx) : List (Bool × Nat) :=
  let w := c.word
  if recAt w 10 2 = 0xFFFF then [(false, recAt w 8 2)]
  else
    (List.range (routeRows c.model (recAt w 10 2))).filterMap (fun i =>
      let x := routeAt c.model c.run w 10 i
      if 0 ≤ x then some (decide (1 ≤ i) && decide (i ≤ c.run.k), recAt w 8 2 + x.toNat) else none)

/-- The tiles of a tensor that speculative work asks for: one that carries poison is dropped (R60, R62). -/
def prefetchDesc (m : Model) (s : State) (n : Nat) : State :=
  match descPlace m n, m.descs[n]? with
  | some x, some d => if d.isFar then (rangeTiles s x.1 x.2 (descBytes d)).foldl (fun t k => prefetchTile x.1 k t) s else s
  | _, _ => s

def prefetchBody (r : RecRef) (c : RecCtx) (s : State) : State :=
  completeRecord r c (prefetchRun c) ((prefetchDescs c).foldl (fun t x =>
    [x.2, (descOf c.model x.2).scale].foldl (if x.1 || c.unit.spec then prefetchDesc c.model else touchDesc c.model) t) s)

def execPrefetch (r : RecRef) (s : State) : Host.Outcome State Fault Refusal := recordRun 0x32 prefetchBody r s

/-! ### COLLECTIVE and SELECT_MERGE (R248, R439) -/

/-- Members of the shell: 1 unless a shell of more is formed. -/
def shellSize (s : State) : Nat := if s.net.shell = .formed ∨ s.net.shell = .ending then max 1 s.net.memberCount else 1

/-- An element as members exchange it: its code, or for an MX tensor its FP32 value. -/
def wireItem (m : Model) (r : RunCtx) (n : Nat) (ix : List Nat) : Nat :=
  if isMx (descOf m n).fmt then (elemFp32 m r n ix).1.toNat else elemCode m r n ix

/-- An exchanged element's value. -/
def itemOut (fmt item : Nat) : OutVal :=
  if isMx fmt then .real (BitVec.ofNat 32 item)
  else if isIntFormat fmt || fmt == 12 then .int (elemInt fmt item)
  else .real (toFp32 (elemNum fmt item)).1

/-- The elements of a tensor as members exchange them, in element order. -/
def tensorItems (m : Model) (r : RunCtx) (n : Nat) : List Nat := (allIndices (descOf m n)).map (wireItem m r n)

/-- The frames that carry a part: the request's tag, the record, the run and the offset, then up to 4,064 bytes (log entry 32). -/
def partFrames (tag index run : Nat) (bs : List Byte) : List (List Byte) :=
  ((chunksOf 4064 bs).zipIdx).map (fun c => leBytes 4 tag ++ leBytes 4 index ++ leBytes 4 run ++ leBytes 4 (4064 * c.2) ++ c.1)

/-- A delivered frame carries a piece of a part of n bytes from a package. -/
def isPart (pkg tag index run : Nat) (f : Frame) : Bool :=
  f.src == pkg && leAt f.payload 0 4 == tag && leAt f.payload 4 4 == index && leAt f.payload 8 4 == run

/-- A part of n bytes from a package, once every piece has arrived (R426). -/
def partFrom (s : State) (pkg tag index run n : Nat) : Option (List Byte) :=
  let fs := s.net.delivered.filter (isPart pkg tag index run)
  let pieces := (List.range (ceilDiv n 4064)).map (fun i => fs.find? (fun f => leAt f.payload 12 4 == 4064 * i))
  if pieces.all Option.isSome then some ((pieces.filterMap id).flatMap (fun f => f.payload.drop 16) |>.take n) else none

/-- The parts of members cs, none until each has arrived; the package's own part is given. -/
def gatherParts (s : State) (cs : List Nat) (own : List Byte) (tag index run : Nat) : Option (List (List Byte)) :=
  let got := cs.map (fun c =>
    if c = s.net.myMember then some own else partFrom s (s.net.shellPkgs.getD c 0) tag index run own.length)
  if got.all Option.isSome then some (got.filterMap id) else none

/-- The frames of a record's parts are used up. -/
def dropParts (tag index run : Nat) (s : State) : State :=
  { s with net := { s.net with delivered := s.net.delivered.filter (fun f => !isPart f.src tag index run f) } }

/-- A part goes to members ds once. -/
def sendPart (r : RecRef) (c : RecCtx) (ds : List Nat) (bs : List Byte) (s : State) : State :=
  if c.run.sent.contains r.index then s
  else
    let frames := partFrames c.req.tag r.index r.run bs
    let s1 := ((ds.filter (· != s.net.myMember)).map (fun d => s.net.shellPkgs.getD d 0)).foldl
      (fun t p => frames.foldl (fun t f => sendData p f t) t) s
    putRun r { c.run with sent := c.run.sent ++ [r.index] } s1

/-- The add of the tree sum: FP32 rounded once, or 40-bit saturating (R132, R439). -/
def outAdd : OutVal → OutVal → OutVal × Nat
  | .real a, .real b => let w := fadd a b; (.real w.1, w.2)
  | .int a, .int b => let v := satInt 40 flagGof (a + b); (.int v.1, v.2)
  | a, _ => (a, 0)

/-- The tree sum over at most 2^n members (R439). -/
def treeSum : Nat → List OutVal → Nat → OutVal × Nat
  | 0, es, f => (es.headD (.real 0), f)
  | n + 1, es, f =>
    let h := 2 ^ n
    let r := (List.range (min h es.length)).map (fun i =>
      match es[i]?, es[i + h]? with
      | some a, some b => outAdd a b
      | some a, none => (a, 0)
      | none, _ => (.real 0, 0))
    treeSum n (r.map Prod.fst) (flagOr f (flagsOf (r.map Prod.snd)))

/-- The place of an index in element order. -/
def elemOrder (d : Desc) (ix : List Nat) : Nat :=
  ixAt ix 0 + d.e 0 * (ixAt ix 1 + d.e 1 * (ixAt ix 2 + d.e 2 * (ixAt ix 3 + d.e 3 * (ixAt ix 4 + d.e 4 * ixAt ix 5))))

/-- The element of DST at an index, from the members' elements: the value and its flags, or the code itself where one format is copied. -/
def collectiveAt (kind size me : Nat) (d : Desc) (parts : List (List Nat)) (ix : List Nat) : OutVal × Nat :=
  let item := fun (p : List Nat) (i1 : Nat) => itemOut d.fmt (p.getD (elemOrder d (ix.set 1 i1)) 0)
  let sumAt := fun i1 => treeSum (Nat.log2 (2 * size - 1)) (parts.map (fun p => item p i1)) 0
  match kind with
  | 0 => sumAt (ixAt ix 1)
  | 1 => (item (parts.getD (ixAt ix 1 / d.e 1) []) (ixAt ix 1 % d.e 1), 0)
  | 2 => sumAt (me * (d.e 1 / size) + ixAt ix 1)
  | _ => (item (parts.getD 0 []) (ixAt ix 1), 0)

/-- The row of DST that a COLLECTIVE writes, as codes with their flags. -/
def collectiveRow (m : Model) (src dst kind size me : Nat) (parts : List (List Nat)) (ix : List Nat) : List (Nat × List Nat × Nat) × Nat :=
  let sd := descOf m src
  let dd := descOf m dst
  if sd.fmt = dd.fmt ∧ isMx sd.fmt = false ∧ (kind = 1 ∨ kind = 3 ∨ size = 1) then
    let from_ := if kind = 1 then (ixAt ix 1 / sd.e 1, ixAt ix 1 % sd.e 1) else (0, ixAt ix 1)
    ((List.range (dd.e 0)).map (fun i => (dst, ix.set 0 i, (parts.getD from_.1 []).getD (elemOrder sd ((ix.set 0 i).set 1 from_.2)) 0)), 0)
  else
    let vs := (List.range (dd.e 0)).map (fun i => collectiveAt kind size me sd parts (ix.set 0 i))
    let codes := rowCodes m dst ix (vs.map Prod.fst)
    (codes.1, flagOr (flagsOf (vs.map Prod.snd)) codes.2)

/-- DST of a COLLECTIVE from every member's part. -/
def collectiveRun (s : State) (c : RecCtx) (run : RunCtx) (parts : List (List Nat)) : RunCtx :=
  let w := c.word
  let m := c.model
  let dst := recAt w 12 2
  (outerIndices (descOf m dst)).foldl (fun r ix =>
    let x := collectiveRow m (recAt w 10 2) dst (recAt w 8 1) (shellSize s) s.net.myMember parts ix
    let row := resultRow m r [recAt w 10 2] dst (ixAt ix 1)
    raiseRow (putCodes m row r x.1) (recFault w) row x.2) (raiseWiden m run (recFault w) (recAt w 10 2))

/-- The run as it stands in the slot. -/
def runNow (r : RecRef) (c : RecCtx) (s : State) : RunCtx := ((slotOf s r.slot).bind (fun q => unitRun q r.run)).elim c.run Prod.snd

/-- COLLECTIVE: the members exchange their parts, and DST is written once every part is here (R439). In a shell of one package SRC is copied
to DST (R187). -/
def collectiveBody (r : RecRef) (c : RecCtx) (s : State) : State :=
  let own := (tensorItems c.model c.run (recAt c.word 10 2)).flatMap (leBytes 8)
  let all := List.range (shellSize s)
  let s1 := if shellSize s = 1 then s else sendPart r c all own s
  match (if shellSize s = 1 then some [own] else gatherParts s1 all own c.req.tag r.index r.run) with
  | none => s1
  | some parts =>
    let items := parts.map (fun p => (List.range (p.length / 8)).map (fun i => leAt p (8 * i) 8))
    completeRecord r c (collectiveRun s1 c (runNow r c s1) items) (dropParts c.req.tag r.index r.run s1)

def execCollective (r : RecRef) (s : State) : Host.Outcome State Fault Refusal := recordRun 0x40 collectiveBody r s

/-- The bytes of a rank-1 INT32 tensor. -/
def listBytes (m : Model) (r : RunCtx) (n : Nat) : List Byte := (tensorCodes m r n).flatMap (leBytes 4)

/-- A result block written to a rank-1 INT32 tensor of WORK (R243). -/
def putBlockBytes (m : Model) (row : Nat) (r : RunCtx) (n : Nat) (bs : List Byte) : RunCtx :=
  putCodes m row r ((List.range (min (bs.length / 4) ((descOf m n).e 0))).map (fun i => (n, [i, 0, 0, 0, 0, 0], leAt bs (4 * i) 4)))

/-- Members whose lists a member merges at a level: those c with floor(c ÷ 8) = m (R248). -/
def mergeChildren (s : State) : List Nat := (List.range (shellSize s)).filter (fun c => c / 8 == s.net.myMember)

/-- SELECT_MERGE: a member sends its list to member floor(m ÷ 8), and merges the lists it takes (R246, R248). -/
def selectMergeBody (r : RecRef) (c : RecCtx) (s : State) : State :=
  let w := c.word
  let own := listBytes c.model c.run (recAt w 8 2)
  let s1 := if shellSize s = 1 then s else sendPart r c [s.net.myMember / 8] own s
  match gatherParts s1 (mergeChildren s) own c.req.tag r.index r.run with
  | none => s1
  | some parts =>
    let dst := recAt w 10 2
    let k := if recAt w 12 2 = 0 then 65536 else recAt w 12 2
    let cap := ((descOf c.model dst).e 0 - 4) / 4
    let out := mergeBlocks (recAt w 14 1) k cap (parts.map parseBlock)
    let run := runNow r c s1
    completeRecord r c (putBlockBytes c.model (resultRow c.model run [recAt w 8 2] dst 0) run dst out) (dropParts c.req.tag r.index r.run s1)

def execSelectMerge (r : RecRef) (s : State) : Host.Outcome State Fault Refusal := recordRun 0x41 selectMergeBody r s

/-! ### VERIFY and EMIT (R184, R285) -/

/-- Row i of an FP32 logits tensor. -/
def logitsRow (m : Model) (r : RunCtx) (n i : Nat) : List Word :=
  (List.range ((descOf m n).e 0)).map (fun j => BitVec.ofNat 32 (elemCode m r n [j, i, 0, 0, 0, 0]))

/-- The mask of a row: that of the configuration it follows, or all ones without a grammar (R279, R289). -/
def rowMask (s : State) (p : Pipe) (u : UnitCtx) (i : Nat) : List Bool :=
  let v := vocabOf s p.vocab
  match p.gp.grammarEn, u.configs[i]? with
  | true, some g => maskOf (grammarOf s p.grammar) v g
  | _, _ => List.replicate v.count true

/-- VERIFY (R285): the drafts that the sampler confirms, and the token after them. -/
def verifyRun (s : State) (c : RecCtx) : RunCtx :=
  let p := reqPipe c.req
  let m := c.model
  let r := c.run
  let rows := (List.range (r.k + 1)).map (fun i => (logitsRow m r (recAt c.word 8 2) i, rowMask s p c.unit i))
  let drafts := (List.range r.k).map (fun i => elemCode m r (recAt c.word 10 2) [i + 1, 0, 0, 0, 0, 0] % 2 ^ 32)
  { r with verified := some (verifyRows p.gp p.gen.count rows drafts) }

/-- The masks of the rows as the grammar unit writes them into the SRAM of the crew that verifies (R109, R112). -/
def writeMasks (r : RecRef) (c : RecCtx) (s : State) : State :=
  let p := reqPipe c.req
  if p.gp.grammarEn then
    (List.range (c.run.k + 1)).foldl (fun t i =>
      let bs := maskBytes (rowMask t p c.unit i)
      let crew := crewOf t (r.core / 9)
      setCrew t (r.core / 9) { crew with sram := writeBytes crew.sram (Config.maskPlace r.slot i % (0x1000000 - bs.length)) bs }) s
  else s

def verifyBody (r : RecRef) (c : RecCtx) (s : State) : State := completeRecord r c (verifyRun s c) (writeMasks r c s)

def execVerify (r : RecRef) (s : State) : Host.Outcome State Fault Refusal := recordRun 0x50 verifyBody r s

/-- EMIT (R184): the tensor is delivered as the stage's output; an MX tensor as FP32 values (R542). -/
def emitRun (index : Nat) (c : RecCtx) : RunCtx :=
  let n := recAt c.word 8 2
  let d := descOf c.model n
  let fmt := if isMx d.fmt then 0 else d.fmt
  let r := raiseWiden c.model c.run (recFault c.word) n
  { r with emits := r.emits ++ [⟨index, recAt c.word 10 1, fmt, d.ext, tensorItems c.model c.run n⟩] }

def emitBody (r : RecRef) (c : RecCtx) (s : State) : State := completeRecord r c (emitRun r.index c) s

def execEmit (r : RecRef) (s : State) : Host.Outcome State Fault Refusal := recordRun 0x51 emitBody r s

end Sys2Proof.Machine
end

