-- ==== Sys2Proof/Machine/Faults.lean ====
section
/-!
DEFINITION. Silent errors and units under watch (18_faults.md): re-runs of check samples and their arbiters (R465 to R467), directed tests
(R470, R471), the watchdog (R499), and a WAIT that the stroke's bound overtakes (R173).
-/

namespace Sys2Proof.Machine

/-! ### Check samples (R465 to R467) -/

/-- A sample held in the check buffer. -/
def sampleOf (s : State) (id : Nat) : Option Sample := s.flt.samples.find? (fun x => x.id == id)

def dropSample (id : Nat) (s : State) : State :=
  { s with flt := { s.flt with samples := s.flt.samples.filter (fun x => x.id != id) } }

/-- DETAIL0 and DETAIL1 of a repeat check. -/
def repeatRecord (s : State) (x : Sample) (arbiter : Nat) (rows : Nat) : ErrRec :=
  { cls := 2, action := 0, code := 0x20, unitKind := 3, unit := x.core, isRepeat := true
    detail0 := x.core % 65536 + 65536 * (x.checker.getD 0 % 65536) + 2 ^ 32 * (arbiter % 65536) + 2 ^ 48 * (x.recIdx % 65536)
    detail1 := (modelByOid s x.model).handle % 65536 + 65536 * (rows % 65536) }

/-- A clean check of a unit in WATCH counts; WATCH_CLEAN of them return it to SERVING with UNIT_CLEARED (R470). -/
def cleanUnit (u : UnitRef) (s : State) : State :=
  if !inWatch s u then s
  else
    let c := crewOf s (unitCrew u)
    let key := match u with | .core n => n % 9 | .crew _ => 9
    let n := sgetD c.clean key 0 + 1
    if n < fieldOf s.flt.ctl 39 28 then setCrew s (unitCrew u) { c with clean := sset c.clean key n }
    else
      let c1 := match u with
        | .core k => { c with watch := clearBit c.watch (k % 9), clean := serase c.clean key }
        | .crew _ => { c with sramWatch := false, clean := serase c.clean key }
      logRecord { cls := 1, action := 0, code := 0x25, unitKind := unitKindOf u, unit := unitNumber u, verdict := 2, detail0 := n } none
        (setCrew s (unitCrew u) c1)

/-- A crew receives placement: it serves, and its SRAM is not in TESTING (R470). -/
def crewServes (s : State) (c : Nat) : Bool := activeCores s c != 0 && !(crewOf s c).sramTesting

/-- Cores that receive placement in a serving crew. -/
def coreServes (s : State) (n : Nat) : Bool := crewServes s (n / 9) && hasBit (crewOf s (n / 9)).active (n % 9)

/-- A crew can run the arbiter: it serves, and it is neither of the two crews that ran the sample. -/
def arbiterCrews (s : State) (a b : Nat) : List Nat := (crewList s).filter (fun c => crewServes s c && c != a && c != b)

/-- All runs of a sample differ, or no arbiter can run: each core that ran it has an attributed event, and the shell restarts (R467). -/
def unresolved (x : Sample) (cores : List Nat) (arbiter rows : Nat) (s : State) : State :=
  let rec0 := fun (t : State) (n : Nat) =>
    { repeatRecord t x arbiter rows with cls := 3, code := 0x21, action := 2, unit := n, committed := true }
  let others := cores.dropLast
  let s1 := others.foldl (fun t n =>
    let r := rec0 t n
    let first := !inWatch t (.core n) && !unitOut t (.core n)
    chargeUnit (.core n) (logRecord (if first then { r with verdict := 1 } else r) (some (.core n)) t)) s
  let last := cores.getLastD x.core
  detect (rec0 s1 last) (some (.core last)) s1

/-- REPEAT_CHECK_COMPLETE (R467): the re-run of a sample on another crew is compared with the captured output. -/
def execRepeatCheckComplete (c : CheckResult) (s : State) : Host.Outcome State Fault Refusal :=
  if c.core < 9 * Config.crews s.part ∧ c.rowsDiffer.Nodup then
    match sampleOf s c.sample with
    | none => finish s s
    | some x =>
      if clocksRun s && x.checker.isNone && coreServes s c.core && c.core / 9 != x.core / 9 then
        let s1 := { s with flt := { s.flt with checksRun := (s.flt.checksRun + 1) % 2 ^ 64 } }
        finish s (
          if c.rowsDiffer.isEmpty then cleanUnit (.crew (x.core / 9)) (cleanUnit (.core x.core) (dropSample x.id s1))
          else
            let y := { x with checker := some c.core, rowsDiffer := c.rowsDiffer }
            let s2 := { s1 with flt := { s1.flt with
              mismatches := saturate 0xFF (s1.flt.mismatches + 1)
              samples := s1.flt.samples.map (fun z => if z.id == x.id then y else z) } }
            if (arbiterCrews s2 (x.core / 9) (c.core / 9)).isEmpty then
              unresolved y [x.core, c.core] 0xFFFF c.rowsDiffer.length (dropSample x.id s2)
            else s2)
      else finish s s
  else .refused .illFormed

/-- ARBITER_COMPLETE (R467): the verdict is attributed. -/
def execArbiterComplete (a : ArbiterResult) (s : State) : Host.Outcome State Fault Refusal :=
  if a.core < 9 * Config.crews s.part then
    match sampleOf s a.sample with
    | none => finish s s
    | some x =>
      match x.checker with
      | none => finish s s
      | some k =>
        if clocksRun s && coreServes s a.core && a.core / 9 != x.core / 9 && a.core / 9 != k / 9 then
          let n := x.rowsDiffer.length
          let s1 := dropSample x.id s
          let r := repeatRecord s1 x a.core n
          finish s (
            match a.agreement with
            | .checkerAndArbiter =>
              detect { r with action := 2, committed := true, suspect := true, fn := x.fn, tag := x.tag, ring := x.ring }
                (some (.core x.core)) s1
            | .originalAndArbiter => detect { r with unit := k } (some (.core k)) s1
            | .none => unresolved x [x.core, k, a.core] a.core n s1)
        else finish s s
  else .refused .illFormed

/-- CHECK_SAMPLE_DROPPED (R466): a sample not re-run within 1 s is dropped. -/
def execCheckSampleDropped (sample : Nat) (s : State) : Host.Outcome State Fault Refusal :=
  match sampleOf s sample with
  | none => finish s s
  | some x => finish s (if x.checker.isNone && decide (x.takenAt + 1000000000 ≤ now s) then dropSample sample s else s)

/-! ### Directed tests (R470, R471) -/

/-- A unit is in TESTING. -/
def inTesting (s : State) : UnitRef → Bool
  | .core n => hasBit (crewOf s (n / 9)).testing (n % 9)
  | .crew n => (crewOf s n).sramTesting

/-- The core that stands in for a failed one: with 8 active cores, the highest of them; 0xF when the crew runs short. -/
def standIn (c : Crew) : Nat :=
  if popCount c.active 9 < 8 then 0xF else ((coreNumbers.reverse.find? (hasBit c.active)).getD 0xF)

/-- A unit fails for good: its record carries VERDICT PERMANENT and restarts the shell (R462, R470, R472). -/
def failUnit (u : UnitRef) (s : State) : State :=
  match u with
  | .core n =>
    let s1 := failCore s n
    let c := crewOf s1 (n / 9)
    detect { cls := 2, action := 2, code := 0x22, unitKind := 3, unit := n, committed := true, verdict := 3, detail0 := standIn c
             detail1 := activeCores s1 (n / 9) } none s1
  | .crew n =>
    let s1 := setCrew s n { crewOf s n with sramTesting := false, sramFailed := true }
    let up := (crewList s1).filter (fun c => activeCores s1 c != 0)
    let level := if up.length < Config.crewsRequired s1.part || s1.boot.stackFailed then 2 else 1
    detect { cls := 2, action := 2, code := 0x23, unitKind := 2, unit := n, committed := true, verdict := 3, detail0 := up.length
             detail1 := level } none s1

/-- A unit that passes returns to WATCH with its clean count at 0; a core becomes its crew's free spare, or waits for the crew's next
restart (R471). -/
def passUnit (u : UnitRef) (s : State) : State :=
  match u with
  | .core n =>
    let c := crewOf s (n / 9)
    let k := n % 9
    let c1 := { c with testing := clearBit c.testing k, watch := setBit c.watch k, clean := sset c.clean k 0 }
    let placed := hasBit c.active k
    setCrew s (n / 9) (if placed then c1 else if c.spare = 15 then { c1 with spare := k } else { c1 with rejoin := setBit c1.rejoin k })
  | .crew n => setCrew s n { crewOf s n with sramTesting := false, sramWatch := true, clean := sset (crewOf s n).clean 9 0 }

/-- DIRECTED_TEST_COMPLETE (R470): the history decides over a unit that passes. -/
def execDirectedTestComplete (u : UnitRef) (passed : Bool) (s : State) : Host.Outcome State Fault Refusal :=
  if unitPresent s u then
    if clocksRun s && inTesting s u then
      finish s (if passed && decide (windowEvents s u < fieldOf s.flt.ctl 27 24) then passUnit u s else failUnit u s)
    else finish s s
  else .refused .illFormed

/-! ### Timers -/

/-- WATCHDOG (R462, R499): a cox core is not serviced for 100 ms; the firmware and every shell restart. -/
def execWatchdog (cox : Nat) (s : State) : Host.Outcome State Fault Refusal :=
  if cox < 4 then
    if clocksRun s && decide (4 ≤ s.boot.stage) then
      finish s (detect { cls := 3, action := 3, code := 0x61, unitKind := 7, unit := 1, detail0 := cox } none (latch (.watchdog cox) s))
    else finish s s
  else .refused .illFormed

/-- A WAIT on a sync object of a crew has not completed (R171, R173): a launch of a core of the crew stalls at it, or a record of a unit in the stroke
that waits on a logical number mapped to it has not started. -/
def waitOpen (s : State) (crew obj : Nat) : Bool :=
  let c := crewOf s crew
  match slookup c.syncMap obj with
  | none => false
  | some (slot, run, j) =>
    let stalled := s.cores.any (fun x =>
      x.1 / 9 == crew && (match x.2.launch with
        | some l =>
          let f := laneFieldsOf (l.prog.getD l.pc 0)
          l.slot == slot && l.run == run && laneOpc (l.prog.getD l.pc 0) == 0x51 && laneArg f % 1024 == j && !waitReached f (loadEng s x.1)
        | none => false))
    let held := match (slotOf s slot).bind (fun q => if q.st = .running then unitRun q run else none) with
      | some u =>
        let m := modelByOid s u.1.model
        (listRecords m u.1.bind.list).any (fun n =>
          let w := recOf m n
          recWaitEn w && recWaitSync w == j && !u.2.done.contains n && !recWaitMet w u.2)
      | none => false
    stalled || held

/-- SYNC_TIMEOUT (R173): the stroke's bound of 8 ms ends with a WAIT open; the crew is charged (R469), and the shell restarts. -/
def execSyncTimeout (crew obj : Nat) (s : State) : Host.Outcome State Fault Refusal :=
  if crew < Config.crews s.part ∧ obj < 1024 then
    if clocksRun s && s.srv.strokeSince.any (fun t => decide (t + 8000000 ≤ now s)) && waitOpen s crew obj then
      finish s (detect { cls := 2, action := 2, code := 0x24, unitKind := 2, unit := crew, committed := true, detail0 := obj }
        (some (.crew crew)) (latch .strokeBound s))
    else finish s s
  else .refused .illFormed

end Sys2Proof.Machine
end

