-- ==== Sys2Proof/Machine/Io.lean ====
section
/-!
DEFINITION. I/O commands at their fetch (R42 to R45, R392, R394 and the chapters of the commands): which host memory each reads, which
checks it makes in which order, and the work it brings into its slot.
-/

namespace Sys2Proof.Machine

/-! ### Shared checks -/

/-- Fields of a block checked by offset: the first that fails gives 0x19. -/
def fieldsIn (block : Nat) (cs : List (Nat × Bool)) : Except CmdErr Unit :=
  match firstFail cs with
  | some o => .error (badField block o)
  | none => .ok ()

/-- An object that must be loaded, named by a field. -/
def needObj {α : Type} (x : Option α) (block off : Nat) : Except CmdErr α :=
  match x with
  | some a => .ok a
  | none => .error (notLoaded block off)

/-- The first name of a list that fails gives 0x1B. -/
def loadedIn (cs : List (Nat × Nat × Bool)) : Except CmdErr Unit :=
  match cs.find? (fun c => !c.2.2) with
  | some c => .error (notLoaded c.1 c.2.1)
  | none => .ok ()

/-- Numbers of n bytes each in a list of bytes. -/
def numbersOf (n : Nat) (bs : List Byte) : List Nat := (List.range (bs.length / n)).map (fun i => leAt bs (n * i) n)

/-! ### Bindings and their tables (R193, R194, R372) -/

/-- The binding of a stage. -/
def bindOf (m : Model) (stage : Nat) : Option Binding := m.binds.find? (fun b => b.stage == stage)

/-- The GATHER records of a list. -/
def listGathers (m : Model) (start : Nat) : List (BitVec 256) :=
  ((listRecords m start).map (recOf m)).filter (fun w => recOp w == 0x30)

/-- Bytes of a row that a lookup returns. -/
def lookupBytes (s : State) (t : Table) : Nat :=
  if t.kind = 0 then t.rowBytes
  else
    match tableIn s t.compA, tableIn s t.compB with
    | some a, some b => composedBytes a b t.combine
    | _, _ => 0

/-- A GATHER's table exists, its row has OUT's element count, and its kind takes the ids of INDEX (R370, R372). -/
def gatherOk (s : State) (m : Model) (w : BitVec 256) : Bool :=
  match tableIn s (recAt w 8 2) with
  | none => false
  | some t =>
    lookupBytes s t * 8 / elemBits t.fmt == (descOf m (recAt w 12 2)).e 0
      && ((descOf m (recAt w 10 2)).e 0 != 2 || t.kind == 1 || t.hashKind == 1 || t.hashKind == 2)

/-- A reduce-scatter's extent divides by the members (R439). -/
def scatterOk (s : State) (m : Model) (w : BitVec 256) : Bool :=
  recOp w != 0x40 || recAt w 8 1 != 2 || (descOf m (recAt w 10 2)).e 1 % shellSize s == 0

/-- The binding of a stage can run now: it is there, its VOCAB_TOKENS are the vocabulary's where one is bound (R194), and the records of its
list have their tables. -/
def stageOk (s : State) (m : Model) (stage : Nat) (tokens : Option Nat) : Bool :=
  match bindOf m stage with
  | none => false
  | some b =>
    tokens.elim true (fun n => b.vocabTokens == n) && (listGathers m b.list).all (gatherOk s m)
      && ((listRecords m b.list).map (recOf m)).all (scatterOk s m)

/-- The tables that the lists of a model's stages read, by number, with the object each names; a COMPOSED table's two as well (R365). -/
def stageTables (s : State) (m : Model) (stages : List Nat) : Sparse Nat :=
  let ns := (m.binds.filter (fun b => stages.contains b.stage)).flatMap (fun b => (listGathers m b.list).map (fun w => recAt w 8 2))
  let all := ns ++ ns.flatMap (fun n => (tableIn s n).elim [] (fun t => if t.kind = 1 then [t.compA, t.compB] else []))
  all.foldl (fun x n => (slookup s.obj.tableSlot n).elim x (fun o => sset x n o)) []

/-- A token that a flag asks for is in the vocabulary (R96, R259). -/
def framed (flag : Bool) (tok : Nat) : Bool := !flag || tok != 0xFFFFFFFF

/-- An EMBED binding and the bound vocabulary (R96, R194). -/
def embedOk (s : State) (m : Model) (v : Vocab) : Bool :=
  stageOk s m 0 (some v.count) && (bindOf m 0).elim false (fun b => framed b.leadBos v.bos && framed b.trailEos v.eos)

/-- A RERANK binding and the bound vocabulary (R194, R259). -/
def rerankOk (s : State) (m : Model) (v : Vocab) : Bool :=
  stageOk s m 1 (some v.count)
    && (bindOf m 1).elim false (fun b => framed b.leadBos v.bos && framed b.trailEos v.eos && framed b.pairSep v.sep && v.pad != 0xFFFFFFFF)

/-- A generator and the bound vocabulary (R276). -/
def genOk (s : State) (m : Model) (v : Vocab) : Bool := stageOk s m 2 (some v.count) && stageOk s m 3 (some v.count)

/-! ### Parts of a query -/

/-- The parts of a vector input (R43). -/
def vectorOf (d : Nat) (bs : List Byte) : List Word := (List.range d).map (fun i => BitVec.ofNat 32 (leAt bs (4 * i) 4))
def termsOf (d : Nat) (bs : List Byte) : List (Nat × Word) :=
  (List.range ((bs.length - 4 * d) / 8)).map (fun i => (leAt bs (4 * d + 8 * i) 4, BitVec.ofNat 32 (leAt bs (4 * d + 8 * i + 4) 4)))

/-- The length of a vector input (R43). -/
def vectorLenOk (d n : Nat) : Bool := decide (4 * d ≤ n) && (n - 4 * d) % 8 == 0 && decide (n - 4 * d ≤ 8192)

/-- The offset of the first sparse term that is not above the one before. -/
def badTerm (d : Nat) (bs : List Byte) : Option Nat :=
  let ids := (termsOf d bs).map Prod.fst
  ((List.range (ids.length - 1)).find? (fun i => decide (ids.getD (i + 1) 0 ≤ ids.getD i 0))).map (fun i => 4 * d + 8 * (i + 1))

def vectorFields (ix : Option Index) (bs : List Byte) : Except CmdErr Unit :=
  match ix with
  | none => .ok ()
  | some x =>
    match badTerm x.dim bs with
    | some o => .error (badField 5 o)
    | none => .ok ()

/-- The search parameter block (R211). -/
def parseSearch (b : List Byte) : SearchParams :=
  { nprobe := leAt b 0 4, firstRound := leAt b 4 4, filterTable := leAt b 8 2, filterMode := leAt b 10 1, exact := hasBit (leAt b 11 1) 0
    thresholdEn := hasBit (leAt b 11 1) 1, sparseWeight := BitVec.ofNat 32 (leAt b 12 4), threshold := BitVec.ofNat 32 (leAt b 16 4) }

/-- Its fields; the bounds of NPROBE and FIRST_ROUND apply where the index is loaded and EXACT is clear (R45, R211). -/
def searchFields (ix : Option Index) (b : List Byte) : List (Nat × Bool) :=
  let sp := parseSearch b
  let bound := ix.elim true (fun x => sp.exact || within 1 (min x.parts 4096) sp.nprobe)
  [(0, bound), (4, ix.isNone || sp.exact || decide (sp.firstRound ≤ sp.nprobe)), (10, decide (sp.filterMode ≤ 1)),
   (11, decide (leAt b 11 1 < 4)), (20, zeroBytes b 20 44)]

/-- FILTER_TABLE names a STORED table of 8 KiB rows (R223, R372). -/
def filterOk (s : State) (sp : SearchParams) : Bool :=
  sp.filterTable == 0xFFFF || (tableIn s sp.filterTable).elim false (fun t => t.kind == 0 && t.rowBytes == 8192)

/-- The object of the filter table. -/
def filterOid (s : State) (sp : SearchParams) : Nat := if sp.filterTable = 0xFFFF then 0 else (slookup s.obj.tableSlot sp.filterTable).getD 0

/-- The draft model and grammar that a generation parameter block names (R276). -/
def genNames (s : State) (g : GenParams) (v : Vocab) : List (Nat × Nat × Bool) :=
  [(2, 12, g.draftModel == 0 || (modelIn s g.draftModel).elim false (fun m => stageOk s m 4 (some v.count))),
   (2, 14, !g.grammarEn || (grammarIn s g.grammarSlot).isSome)]

/-- The object numbers that generation binds. -/
def bindGen (s : State) (g : GenParams) (p : Pipe) : Pipe :=
  { p with
    gp := g
    draftModel := ((modelIn s g.draftModel).filter (fun _ => g.draftModel != 0)).elim 0 Model.oid
    grammar := if g.grammarEn then (grammarIn s g.grammarSlot).elim 0 Grammar.oid else 0 }

/-! ### Conversations at a fetch (R317, R322, R328) -/

/-- An expired slot is found expired by the command that names it (R328). -/
def expireConv (f id : Nat) (s : State) : State :=
  match convOf s f id with
  | some c => if expires c && calReached s c.expirySec c.expiryFrac then endConv .expired s c else s
  | none => s

/-- The fetch of a command that names a paused conversation cancels its expiry (R328). -/
def cancelExpiry (f id : Nat) (s : State) : State :=
  match convOf s f id with
  | some c => if c.st = .paused then setConv { c with expiryCancelled := true } s else s
  | none => s

/-- 0x2C BUFFER_NOT_OWNED and 0x2D BUFFER_ALREADY_FREE about a conversation: each is logged (R323). -/
def convNotOwned (id : Nat) (c : Conv) : CmdErr := { status := 0x2C, off := 8, log := some (0x01, id, c.fn) }
def convFree (id : Nat) : CmdErr := { status := 0x2D, off := 8, log := some (0x02, id, 0) }

/-- What the fetch of a command that generates makes of the conversation it names: none to go on, or the status it ends with at once. -/
def genConv (f id : Nat) (s : State) : Except CmdErr (Option Nat) :=
  if id = 0 then .ok none
  else
    match convOf s f id, convForeign s f id with
    | some _, _ => .ok none
    | none, some c => .error (convNotOwned id c)
    | none, none =>
      match recentOf s f id with
      | some .expired => .ok (some 0x44)
      | some .lost => .ok (some 0x48)
      | _ => .ok none

/-- The slot of a command with its pipeline work, once its conversation has been looked up. -/
def takePipe (q : RingRef) (p : Pipe) (s0 : State) : Except CmdErr Taken := do
  let id := if generates p then p.gp.convId else 0
  let s := expireConv q.fn id s0
  match ← genConv q.fn id s with
  | some st => .ok (.done st [] s)
  | none => .ok (.slot (.pipe p) (cancelExpiry q.fn id s))

/-! ### QUERY (R42 to R45, R61) -/

/-- The stage mask is valid (R39). -/
def maskOk (m : Nat) : Bool :=
  hasBit m 2 && (!hasBit m 0 || hasBit m 1) && (!hasBit m 6 || hasBit m 5) && decide (m < 128)

/-- The bytes that the output buffer needs (R61). -/
def outputNeed (returnK packTokens : Nat) (pack : Bool) : Nat :=
  128 + c64 (16 * returnK) + (if pack then c64 (4 * packTokens) + c64 (16 * returnK) else 0)

/-- The fields of the query block by offset, with the constraints of R43 and R44 (block 1). -/
def queryFields (b : List Byte) (ix : Option Index) (t : Option Template) : List (Nat × Bool) :=
  let m := leAt b 0 2
  let has := hasBit m
  let len := leAt b 24 4
  let lenOk :=
    if has 0 then within 1 16384 len
    else if has 1 then within 4 65536 len && len % 4 == 0
    else ix.elim true (fun x => vectorLenOk x.dim len)
  let noTokens := !has 0 && !has 1
  let top := if has 3 then leAt b 48 4 else leAt b 44 4
  [(0, !(noTokens && has 4)), (2, decide (leAt b 2 1 < 2)), (3, decide (leAt b 3 1 ≤ 15)), (4, decide (leAt b 4 1 ≤ 63)),
   (5, !(noTokens && has 5 && t.elim false hasQuery)), (6, zeroBytes b 6 2), (14, zeroBytes b 14 2), (24, lenOk),
   (32, leAt b 32 8 % 64 == 0), (44, within 1 65536 (leAt b 44 4)), (48, !has 3 || within 1 (leAt b 44 4) (leAt b 48 4)),
   (52, within 1 65536 (leAt b 52 4) && decide (leAt b 52 4 ≤ top)),
   (56, !has 4 || (within 8 1024 (leAt b 56 2) && leAt b 56 2 % 8 == 0 && decide (leAt b 56 2 ≤ leAt b 52 4))),
   (58, decide (leAt b 58 2 ≤ 4096)),
   (60, !has 5 || (within 1 131072 (leAt b 60 4) && !(has 6 && leAt b 60 4 == 131072)
        && t.elim true (fun x => decide (literalTokens x ≤ leAt b 60 4)))),
   (76, zeroBytes b 76 4), (80, leAt b 80 8 % 64 == 0), (88, if has 6 then leAt b 88 8 % 64 == 0 else leAt b 88 8 == 0),
   (96, zeroBytes b 96 32)]

/-- Objects that the selected stages need (R45, R96, R194, R221, R223, R254, R257, R259, R276, R372). v, ix and p are the vocabulary, index and
passage store named, where they are loaded. -/
def queryNames (s : State) (b : List Byte) (sp : SearchParams) (g : GenParams) : List (Nat × Nat × Bool) :=
  let m := leAt b 0 2
  let has := hasBit m
  let needVocab := has 0 || has 1 || has 4 || has 5
  let v := vocabIn s (leAt b 3 1)
  let ix := indexIn s (leAt b 4 1)
  let store := slookup s.obj.passages (leAt b 4 1)
  let vv := v.getD {}
  let storeVocab := store.elim false (fun x => x.vocabTokens == vv.count)
  let hybrid := ix.elim false Index.hybrid
  let model := fun o : Nat => modelIn s (leAt b o 2)
  [(1, 3, !needVocab || v.isSome), (1, 4, ix.isSome),
   (1, 5, !has 5 || (templateIn s (leAt b 5 1)).elim false (fun t => t.vocabTokens == vv.count)),
   (1, 8, !has 1 || (model 8).elim false (fun x =>
      embedOk s x vv && (bindOf x 0).elim false (fun e =>
        e.outDim == ix.elim e.outDim Index.dim && (!hybrid || e.sparseHead == 1)))),
   (1, 10, !has 4 || (model 10).elim false (fun x => rerankOk s x vv)),
   (1, 12, !has 6 || (model 12).elim false (fun x => genOk s x vv)),
   (1, 4, !(has 3 && hybrid) || (store.isSome && (!(has 0 || has 1) || storeVocab))),
   (1, 4, !(has 4 || has 5) || storeVocab),
   (2, 8, filterOk s sp)] ++ (if has 6 then genNames s g vv else [])

/-- The pipeline context of a QUERY. -/
def queryPipe (s : State) (b : List Byte) (sp : SearchParams) (g : GenParams) (input : List Byte) : Pipe :=
  let m := leAt b 0 2
  let has := hasBit m
  let ix := indexIn s (leAt b 4 1)
  let d := ix.elim 0 Index.dim
  let model := fun (on : Bool) (o : Nat) => if on then (modelIn s (leAt b o 2)).elim 0 Model.oid else 0
  let tables := fun (o : Nat) (st : List Nat) => (modelIn s (leAt b o 2)).elim [] (fun x => stageTables s x st)
  let bound := (if has 1 then tables 8 [0] else []) ++ (if has 4 then tables 10 [1] else []) ++ (if has 6 then tables 12 [2, 3] else [])
    ++ (if has 6 && g.draftModel != 0 then (modelIn s g.draftModel).elim [] (fun x => stageTables s x [4]) else [])
  let p : Pipe :=
    { stages := (List.range 7).filter has
      vocab := (vocabIn s (leAt b 3 1)).elim 0 Vocab.oid
      template := if has 5 then (templateIn s (leAt b 5 1)).elim 0 Template.oid else 0
      embedModel := model (has 1) 8, rerankModel := model (has 4) 10, genModel := model (has 6) 12
      index := ix.elim 0 Index.oid, filter := filterOid s sp, passage := slookup s.obj.passages (leAt b 4 1)
      boundTables := bound.foldl (fun x t => sset x t.1 t.2) []
      text := if has 0 then input else []
      tokens := if !has 0 && has 1 then numbersOf 4 input else []
      dense := if !has 0 && !has 1 then vectorOf d input else []
      sparse := if !has 0 && !has 1 then termsOf d input else []
      searchK := leAt b 44 4, refineK := leAt b 48 4, returnK := leAt b 52 4, rerankK := leAt b 56 2, force := hasBit (leAt b 2 1) 0
      prefetchDepth := leAt b 58 2, packTokens := leAt b 60 4, budgets := (List.range 6).map (fun i => leAt b (64 + 2 * i) 2)
      deadlineUs := leAt b 28 4, sp := sp, outAddr := leAt b 32 8, outLen := leAt b 40 4 }
  if has 6 then bindGen s g p else p

/-- The host reads of a QUERY at its fetch: the query block, the blocks its stages need, and the input. -/
def queryReads (e : Entry) (s : State) : Except CmdErr (List Byte × List Byte × List Byte × List Byte) := do
  let b ← needRead s (entryAt e 8 8) 128
  let m := leAt b 0 2
  let sp ← if hasBit m 2 then needRead s (leAt b 80 8) 64 else .ok []
  let g ← if hasBit m 6 then needRead s (leAt b 88 8) 128 else .ok []
  let input ← needRead s (leAt b 16 8) (min (leAt b 24 4) 65536)
  .ok (b, sp, g, input)

def queryBody (q : RingRef) (e : Entry) (s : State) : Except CmdErr Taken := do
  let (b, spb, gb, input) ← queryReads e s
  entryZero e [(8, 8)]
  must (entryAt e 8 8 % 64 == 0) (badField 0 8)
  let m := leAt b 0 2
  must (maskOk m) { status := 0x18, block := 1, off := 0 }
  let ix := if leAt b 4 1 ≤ 63 then indexIn s (leAt b 4 1) else none
  let t := templateIn s (leAt b 5 1)
  let v := vocabIn s (leAt b 3 1)
  let gen := hasBit m 6
  fieldsIn 1 (queryFields b ix t)
  fieldsIn 2 (searchFields ix spb)
  match if gen then genFieldBad gb (v.map Vocab.count) else none with
  | some o => .error (badField 2 o)
  | none =>
    if !hasBit m 0 && !hasBit m 1 then vectorFields ix input else .ok ()
    must (decide (outputNeed (leAt b 52 4) (leAt b 60 4) (hasBit m 5) ≤ leAt b 40 4)) { status := 0x1A, block := 1, off := 40 }
    let sp := parseSearch spb
    let g := parseGen gb
    loadedIn (queryNames s b sp g)
    takePipe q (queryPipe s b sp g input) s

/-- QUERY. An entry with an opcode that no row of the command table has is one of this row too (R394 check 1). -/
def execQuery (q : RingRef) (e : Entry) (s : State) : Host.Outcome State Fault Refusal :=
  fetchEntry (isRow q 0x20 e || (isRow q (entOp e) e && !isAdminOp (entOp e) && !isIoOp (entOp e))) queryBody q e s

/-! ### EMBED (R94, R392) -/

/-- The vocabulary that a standalone EMBED binds: the entry names none, so it is the one in the lowest slot whose TOKEN_COUNT is the
binding's VOCAB_TOKENS (log entry 33). -/
def embedVocab (s : State) (m : Model) : Option Vocab :=
  (bindOf m 0).bind (fun b => ((List.range 16).filterMap (vocabIn s)).find? (fun v => v.count == b.vocabTokens))

def embedBody (q : RingRef) (e : Entry) (s : State) : Except CmdErr Taken := do
  let len := entryAt e 24 4
  let input ← needRead s (entryAt e 16 8) (min len 65536)
  entryZero e [(8, 2), (16, 12), (32, 12)]
  fieldsIn 0 [(24, within 4 65536 len && len % 4 == 0), (32, entryAt e 32 8 % 64 == 0)]
  let m ← needObj (modelIn s (entryAt e 8 2)) 0 8
  let v ← needObj (embedVocab s m) 0 8
  must (embedOk s m v) (notLoaded 0 8)
  takePipe q
    { stages := [1], vocab := v.oid, embedModel := m.oid, boundTables := stageTables s m [0], tokens := numbersOf 4 input
      outAddr := entryAt e 32 8, outLen := entryAt e 40 4 } s

def execEmbed (q : RingRef) (e : Entry) (s : State) : Host.Outcome State Fault Refusal := fetchEntry (isRow q 0x21 e) embedBody q e s

/-! ### SEARCH (R211, R392) -/

def searchBody (q : RingRef) (e : Entry) (s : State) : Except CmdErr Taken := do
  let spb ← needRead s (entryAt e 48 8) 64
  let len := entryAt e 24 4
  let input ← needRead s (entryAt e 16 8) (min len 65536)
  entryZero e [(8, 52)]
  let refine := hasBit (entryAt e 9 1) 0
  let ix := if entryAt e 8 1 < 64 then indexIn s (entryAt e 8 1) else none
  fieldsIn 0
    [(8, decide (entryAt e 8 1 < 64)), (9, decide (entryAt e 9 1 < 2)), (10, decide (entryAt e 10 2 ≤ 4096)),
     (12, within 1 65536 (entryAt e 12 4)), (24, ix.elim true (fun x => vectorLenOk x.dim len)),
     (28, !refine || within 1 (entryAt e 12 4) (entryAt e 28 4)), (32, entryAt e 32 8 % 64 == 0),
     (44, within 1 65536 (entryAt e 44 4) && decide (entryAt e 44 4 ≤ if refine then entryAt e 28 4 else entryAt e 12 4)),
     (48, entryAt e 48 8 % 64 == 0)]
  fieldsIn 2 (searchFields ix spb)
  vectorFields ix input
  must (decide (outputNeed (entryAt e 44 4) 0 false ≤ entryAt e 40 4)) { status := 0x1A, off := 40 }
  let x ← needObj ix 0 8
  let sp := parseSearch spb
  let store := slookup s.obj.passages (entryAt e 8 1)
  loadedIn [(0, 8, !(refine && x.hybrid) || store.isSome), (2, 8, filterOk s sp)]
  takePipe q
    { stages := if refine then [2, 3] else [2], index := x.oid, filter := filterOid s sp, passage := store
      dense := vectorOf x.dim input, sparse := termsOf x.dim input, searchK := entryAt e 12 4, refineK := entryAt e 28 4
      returnK := entryAt e 44 4, prefetchDepth := entryAt e 10 2, deadlineUs := entryAt e 56 4, sp := sp
      outAddr := entryAt e 32 8, outLen := entryAt e 40 4 } s

def execSearch (q : RingRef) (e : Entry) (s : State) : Host.Outcome State Fault Refusal := fetchEntry (isRow q 0x22 e) searchBody q e s

/-! ### RERANK and PACK (R273, R392) -/

/-- A candidate in the result-entry format (R71). -/
def candAt (bs : List Byte) (i : Nat) : Cand := ⟨leAt bs (16 * i) 6 / 8 * 8, BitVec.ofNat 32 (leAt bs (16 * i + 8) 4), leAt bs (16 * i + 12) 1⟩

/-- The offset of the first candidate whose SCORE_KIND is out of range. The reserved fields of a list entry are ignored (R16, R71). -/
def badCand (bs : List Byte) (n : Nat) : Option Nat :=
  (List.range n).findSome? (fun i =>
    if leAt bs (16 * i + 12) 1 ≤ 2 then none else some (16 * i + 12))

def candFields (bs : List Byte) (n : Nat) : Except CmdErr (List Cand) :=
  match badCand bs n with
  | some o => .error (badField 5 o)
  | none => .ok ((List.range n).map (candAt bs))

def rerankBody (q : RingRef) (e : Entry) (s : State) : Except CmdErr Taken := do
  let len := entryAt e 24 4
  let n := entryAt e 28 4
  let toks ← needRead s (entryAt e 16 8) (min len 65536)
  let list ← needRead s (entryAt e 32 8) (16 * min n 65536)
  entryZero e [(8, 7), (16, 40)]
  fieldsIn 0
    [(10, decide (entryAt e 10 1 ≤ 15)), (11, decide (entryAt e 11 1 < 64)), (12, within 8 1024 (entryAt e 12 2) && entryAt e 12 2 % 8 == 0),
     (14, decide (entryAt e 14 1 < 2)), (24, within 4 65536 len && len % 4 == 0), (28, within 1 65536 n), (40, entryAt e 40 8 % 64 == 0)]
  let cands ← candFields list n
  must (decide (outputNeed n 0 false ≤ entryAt e 48 4)) { status := 0x1A, off := 48 }
  let m ← needObj (modelIn s (entryAt e 8 2)) 0 8
  let v ← needObj (vocabIn s (entryAt e 10 1)) 0 10
  let x ← needObj (indexIn s (entryAt e 11 1)) 0 11
  let store := slookup s.obj.passages (entryAt e 11 1)
  loadedIn [(0, 8, rerankOk s m v), (0, 11, store.elim false (fun p => p.vocabTokens == v.count))]
  takePipe q
    { stages := [4], vocab := v.oid, rerankModel := m.oid, index := x.oid, passage := store, boundTables := stageTables s m [1]
      tokens := numbersOf 4 toks, cands := cands, returnK := n, rerankK := entryAt e 12 2, force := hasBit (entryAt e 14 1) 0
      deadlineUs := entryAt e 52 4, outAddr := entryAt e 40 8, outLen := entryAt e 48 4 } s

def execRerank (q : RingRef) (e : Entry) (s : State) : Host.Outcome State Fault Refusal := fetchEntry (isRow q 0x23 e) rerankBody q e s

/-- PACK: a template without a QUERY element needs no query tokens (R258). -/
def packBody (q : RingRef) (e : Entry) (s : State) : Except CmdErr Taken := do
  let len := entryAt e 24 4
  let n := entryAt e 28 4
  let toks ← needRead s (entryAt e 16 8) (min len 65536)
  let list ← needRead s (entryAt e 32 8) (16 * min n 65536)
  entryZero e [(8, 3), (12, 40)]
  let t := templateIn s (entryAt e 9 1)
  let k := entryAt e 12 4
  fieldsIn 0
    [(8, decide (entryAt e 8 1 ≤ 15)), (10, decide (entryAt e 10 1 < 64)),
     (12, within 1 131072 k && t.elim true (fun x => decide (literalTokens x ≤ k))),
     (24, decide (len ≤ 65536) && len % 4 == 0 && (len != 0 || !t.elim false hasQuery)), (28, within 1 65536 n),
     (40, entryAt e 40 8 % 64 == 0)]
  let cands ← candFields list n
  must (decide (outputNeed n k true ≤ entryAt e 48 4)) { status := 0x1A, off := 48 }
  let v ← needObj (vocabIn s (entryAt e 8 1)) 0 8
  let tt ← needObj t 0 9
  let x ← needObj (indexIn s (entryAt e 10 1)) 0 10
  let store := slookup s.obj.passages (entryAt e 10 1)
  loadedIn [(0, 9, tt.vocabTokens == v.count), (0, 10, store.elim false (fun p => p.vocabTokens == v.count))]
  takePipe q
    { stages := [5], vocab := v.oid, template := tt.oid, index := x.oid, passage := store, tokens := numbersOf 4 toks, cands := cands
      returnK := n, packTokens := k, outAddr := entryAt e 40 8, outLen := entryAt e 48 4 } s

def execPack (q : RingRef) (e : Entry) (s : State) : Host.Outcome State Fault Refusal := fetchEntry (isRow q 0x29 e) packBody q e s

/-! ### GENERATE (R275 to R277) -/

def generateBody (q : RingRef) (e : Entry) (s : State) : Except CmdErr Taken := do
  let gb ← needRead s (entryAt e 32 8) 128
  let len := entryAt e 24 4
  let toks ← needRead s (entryAt e 16 8) (min len 524284)
  entryZero e [(8, 3), (16, 12), (32, 8)]
  let v := if entryAt e 10 1 ≤ 15 then vocabIn s (entryAt e 10 1) else none
  fieldsIn 0
    [(10, decide (entryAt e 10 1 ≤ 15)), (24, within 4 524284 len && len % 4 == 0), (32, entryAt e 32 8 % 64 == 0)]
  match genFieldBad gb (v.map Vocab.count) with
  | some o => .error (badField 2 o)
  | none =>
    let m ← needObj (modelIn s (entryAt e 8 2)) 0 8
    let vv ← needObj v 0 10
    let g := parseGen gb
    loadedIn ((0, 8, genOk s m vv) :: genNames s g vv)
    let dm := ((modelIn s g.draftModel).filter (fun _ => g.draftModel != 0)).elim [] (fun x => stageTables s x [4])
    takePipe q (bindGen s g
      { stages := [6], vocab := vv.oid, genModel := m.oid, prompt := numbersOf 4 toks
        boundTables := (stageTables s m [2, 3] ++ dm).foldl (fun x t => sset x t.1 t.2) [] }) s

def execGenerate (q : RingRef) (e : Entry) (s : State) : Host.Outcome State Fault Refusal := fetchEntry (isRow q 0x24 e) generateBody q e s

/-! ### Conversations (R321 to R324) -/

/-- A PAUSE or RESUME of an id that is not the function's live conversation. -/
def noConv (f id : Nat) (s : State) : Except CmdErr Taken :=
  match convForeign s f id, recentOf s f id with
  | some c, _ => .error (convNotOwned id c)
  | none, some .expired => .ok (.done 0x44 [] s)
  | none, some .lost => .ok (.done 0x48 [] s)
  | none, _ => .ok (.done 0x49 [] s)

/-- A command in flight from the function names the conversation (R317). -/
def convClaimed (s : State) (f id : Nat) : Bool := id != 0 && s.srv.slots.any (fun x => x.2.fn == f && convName x.2 == id && !x.2.silent)

def pauseBody (q : RingRef) (e : Entry) (s0 : State) : Except CmdErr Taken := do
  entryZero e [(8, 10), (20, 20)]
  let tier := entryAt e 17 1
  fieldsIn 0
    [(16, decide (entryAt e 16 1 ≤ 1)), (17, decide (tier ≤ 1)), (20, decide (entryAt e 20 4 ≤ 604800)),
     (24, tier == 0 || entryAt e 24 8 % 4096 == 0)]
  let id := entryAt e 8 8
  let s := expireConv q.fn id s0
  if (convOf s q.fn id).isSome || convClaimed s q.fn id then
    .ok (.slot (.pause id tier (entryAt e 20 4) (entryAt e 24 8) (entryAt e 32 8)) (cancelExpiry q.fn id s))
  else noConv q.fn id s

/-- PAUSE; an entry with a reserved ACTION is one of this row too. -/
def execPauseConversation (q : RingRef) (e : Entry) (s : State) : Host.Outcome State Fault Refusal :=
  fetchEntry (isRow q 0x25 e && entryAt e 16 1 != 1) pauseBody q e s

/-- RELEASE: the fields of PAUSE are not read. -/
def releaseBody (q : RingRef) (e : Entry) (s0 : State) : Except CmdErr Taken := do
  entryZero e [(8, 10), (20, 20)]
  let id := entryAt e 8 8
  let s := expireConv q.fn id s0
  if (convOf s q.fn id).isSome || convClaimed s q.fn id then .ok (.slot (.release id) (cancelExpiry q.fn id s))
  else
    match convForeign s q.fn id with
    | some c => .error (convNotOwned id c)
    | none => .error (convFree id)

def execRelease (q : RingRef) (e : Entry) (s : State) : Host.Outcome State Fault Refusal :=
  fetchEntry (isRow q 0x25 e && entryAt e 16 1 == 1) releaseBody q e s

/-- RESUME: of an OPEN conversation it completes at once (R324). -/
def resumeBody (q : RingRef) (e : Entry) (s0 : State) : Except CmdErr Taken := do
  entryZero e [(8, 8)]
  let id := entryAt e 8 8
  let s := expireConv q.fn id s0
  match convOf s q.fn id with
  | some c => if c.st = .open ∧ convClaimed s q.fn id = false then .ok (.done 0 [] s) else .ok (.slot (.resume id) (cancelExpiry q.fn id s))
  | none => if convClaimed s q.fn id then .ok (.slot (.resume id) s) else noConv q.fn id s

def execResumeConversation (q : RingRef) (e : Entry) (s : State) : Host.Outcome State Fault Refusal :=
  fetchEntry (isRow q 0x26 e) resumeBody q e s

/-! ### TOKENIZE and DETOKENIZE (R93, R100) -/

def tokenizeBody (q : RingRef) (e : Entry) (s : State) : Except CmdErr Taken := do
  let len := entryAt e 24 4
  let input ← needRead s (entryAt e 16 8) (min len 16777216)
  entryZero e [(8, 1), (16, 12), (32, 12)]
  fieldsIn 0 [(8, decide (entryAt e 8 1 ≤ 15)), (24, within 1 16777216 len), (32, entryAt e 32 8 % 64 == 0)]
  let v ← needObj (vocabIn s (entryAt e 8 1)) 0 8
  takePipe q { stages := [0], vocab := v.oid, text := input, outAddr := entryAt e 32 8, outLen := entryAt e 40 4 } s

def execTokenize (q : RingRef) (e : Entry) (s : State) : Host.Outcome State Fault Refusal := fetchEntry (isRow q 0x27 e) tokenizeBody q e s

/-- DETOKENIZE (R100, R392). Its input is whole token ids: an input length that is no multiple of 4 fails at offset 24, and a length of 0 is accepted;
the manual gives the field no range (DESIGN CHOICE, log entry 144). -/
def detokenizeBody (q : RingRef) (e : Entry) (s : State) : Except CmdErr Taken := do
  let len := entryAt e 24 4
  let input ← needRead s (entryAt e 16 8) len
  entryZero e [(8, 2), (16, 12), (32, 12)]
  fieldsIn 0
    [(8, decide (entryAt e 8 1 ≤ 15)), (9, decide (entryAt e 9 1 < 2)), (24, len % 4 == 0), (32, entryAt e 32 8 % 64 == 0)]
  let toks := numbersOf 4 input
  let v := vocabIn s (entryAt e 8 1)
  match v.bind (fun x => indexWhere (fun t => decide (x.count ≤ t)) toks) with
  | some i => .error (badField 5 (4 * i))
  | none =>
    let x ← needObj v 0 8
    takePipe q
      { stages := [8], vocab := x.oid, tokens := toks, renderSpecial := hasBit (entryAt e 9 1) 0, outAddr := entryAt e 32 8
        outLen := entryAt e 40 4 } s

def execDetokenize (q : RingRef) (e : Entry) (s : State) : Host.Outcome State Fault Refusal :=
  fetchEntry (isRow q 0x28 e) detokenizeBody q e s

/-! ### Inserts and deletes (R225 to R227) -/

/-- Bytes of one INSERT record. -/
def insertSize (ix : Index) : Nat := alignUp (16 + fullBytes ix.fullFormat ix.dim) 64

/-- The offset of the first field of record i that is out of range, or reserved or padding and not 0. -/
def badInsert (ix : Index) (bs : List Byte) (i : Nat) : Option Nat :=
  let z := insertSize ix
  let o := z * i
  let v := fullBytes ix.fullFormat ix.dim
  (firstFail
    [(0, decide (leAt bs o 8 < ix.idCap)),
     (8, decide (leAt bs (o + 8) 4 < ix.parts) || leAt bs (o + 8) 4 == 0xFFFFFFFF), (12, zeroBytes bs (o + 12) 4),
     (16 + v, zeroBytes bs (o + 16 + v) (z - 16 - v))]).map (o + ·)

/-- The item of record i, with its full vector. -/
def insertItem (ix : Index) (bs : List Byte) (i : Nat) : IxItem × List Byte :=
  let o := insertSize ix * i
  let full := slice bs (o + 16) ix.vec
  (makeItem ix (leAt bs o 8) (leAt bs (o + 8) 4) full, full)

def indexInsertBody (_ : RingRef) (e : Entry) (s : State) : Except CmdErr Taken := do
  let ix := if entryAt e 8 1 < 64 then indexIn s (entryAt e 8 1) else none
  let n := entryAt e 12 4
  let bs ← match ix with
    | some x => needRead s (entryAt e 16 8) (insertSize x * min n 65536)
    | none => .ok []
  entryZero e [(8, 1), (12, 12)]
  fieldsIn 0 [(8, decide (entryAt e 8 1 < 64)), (12, within 1 65536 n)]
  let x ← needObj ix 0 8
  match (List.range n).findSome? (badInsert x bs) with
  | some o => .error (badField 5 o)
  | none => .ok (.slot (.insert x.oid ((List.range n).map (insertItem x bs))) s)

def execIndexInsert (q : RingRef) (e : Entry) (s : State) : Host.Outcome State Fault Refusal :=
  fetchEntry (isRow q 0x30 e) indexInsertBody q e s

def indexDeleteBody (_ : RingRef) (e : Entry) (s : State) : Except CmdErr Taken := do
  let n := entryAt e 12 4
  let bs ← needRead s (entryAt e 16 8) (8 * min n 1048576)
  entryZero e [(8, 1), (12, 12)]
  fieldsIn 0 [(8, decide (entryAt e 8 1 < 64)), (12, within 1 1048576 n)]
  let ids := numbersOf 8 bs
  match indexWhere (fun v => decide (2 ^ 34 ≤ v)) ids with
  | some i => .error (badField 5 (8 * i))
  | none =>
    let x ← needObj (indexIn s (entryAt e 8 1)) 0 8
    .ok (.slot (.delete x.oid ids) s)

def execIndexDelete (q : RingRef) (e : Entry) (s : State) : Host.Outcome State Fault Refusal :=
  fetchEntry (isRow q 0x31 e) indexDeleteBody q e s

/-! ### Rows of tables (R373 to R377) -/

/-- A row number of a table: reserved bits 0, in range, and held by this package. -/
def rowOk (t : Table) (v : Nat) : Bool := decide (v < 2 ^ 32) && decide (v < t.rows) && v % t.shardCount == t.shardIndex

/-- Bytes of one TABLE_ROW_WRITE record. -/
def rowRecord (t : Table) : Nat := alignUp (8 + t.rowBytes) 64

/-- The offset of the first field of record i that is out of range, or padding that is not 0 (R373). -/
def badRow (t : Table) (bs : List Byte) (i : Nat) : Option Nat :=
  let z := rowRecord t
  let d := 8 + t.rowBytes
  (firstFail [(0, rowOk t (leAt bs (z * i) 8)), (d, zeroBytes bs (z * i + d) (z - d))]).map (z * i + ·)

def tableRowWriteBody (q : RingRef) (e : Entry) (s : State) : Except CmdErr Taken := do
  let k := entryAt e 8 2
  let t := if k < 1024 then tableIn s k else none
  let n := entryAt e 12 4
  let bs ← match t with
    | some x => needRead s (entryAt e 16 8) (if x.kind = 0 then rowRecord x * min n 65536 else 0)
    | none => .ok []
  entryZero e [(8, 2), (12, 12)]
  fieldsIn 0 [(8, decide (k < 1024) && t.elim true (fun x => x.kind == 0)), (12, within 1 65536 n)]
  let x ← needObj t 0 8
  let z := rowRecord x
  match (List.range n).findSome? (badRow x bs) with
  | some o => .error (badField 5 o)
  | none => do
    must (q.fn == 0 || q.fn == x.owner) (tableForeign k x.owner 0 8)
    .ok (.slot (.rowWrite x.oid ((List.range n).map (fun i => (leAt bs (z * i) 8, slice bs (z * i + 8) x.rowBytes)))) s)

def execTableRowWrite (q : RingRef) (e : Entry) (s : State) : Host.Outcome State Fault Refusal :=
  fetchEntry (isRow q 0x32 e) tableRowWriteBody q e s

def tableRowReadBody (_ : RingRef) (e : Entry) (s : State) : Except CmdErr Taken := do
  let k := entryAt e 8 2
  let n := entryAt e 12 4
  let bs ← needRead s (entryAt e 16 8) (8 * min n 65536)
  entryZero e [(8, 2), (12, 24)]
  let t := if k < 1024 then tableIn s k else none
  fieldsIn 0
    [(8, decide (k < 1024) && t.elim true (fun x => x.kind == 0)), (12, within 1 65536 n), (24, entryAt e 24 8 % 64 == 0)]
  let rows := numbersOf 8 bs
  match t.bind (fun x => indexWhere (fun v => !rowOk x v) rows) with
  | some i => .error (badField 5 (8 * i))
  | none => do
    must (t.elim true (fun x => decide (n * x.rowBytes ≤ entryAt e 32 4))) { status := 0x1A, off := 32 }
    let x ← needObj t 0 8
    .ok (.slot (.rowRead x.oid rows (entryAt e 24 8)) s)

def execTableRowRead (q : RingRef) (e : Entry) (s : State) : Host.Outcome State Fault Refusal :=
  fetchEntry (isRow q 0x33 e) tableRowReadBody q e s

/-! ### RUN_OPLIST and FENCE -/

/-- The bytes that the INPUT descriptors of a GENERIC list hold (R545). -/
def genericBytes (m : Model) (b : Binding) : Nat := ((listInputs m b.list).map (fun n => inputBytes (descOf m n))).sum

def runOplistBody (q : RingRef) (e : Entry) (s : State) : Except CmdErr Taken := do
  let m := modelIn s (entryAt e 8 2)
  let b := m.bind (fun x => bindOf x 5)
  let len := entryAt e 24 4
  let room := match m, b with
    | some x, some y => genericBytes x y
    | _, _ => len
  let input ← needRead s (entryAt e 16 8) (min len room)
  entryZero e [(8, 2), (16, 12), (32, 12)]
  fieldsIn 0 [(24, decide (len ≤ room)), (32, entryAt e 32 8 % 64 == 0)]
  let x ← needObj m 0 8
  must (stageOk s x 5 none) (notLoaded 0 8)
  takePipe q
    { stages := [7], embedModel := x.oid, boundTables := stageTables s x [5], text := input, outAddr := entryAt e 32 8
      outLen := entryAt e 40 4 } s

def execRunOplist (q : RingRef) (e : Entry) (s : State) : Host.Outcome State Fault Refusal :=
  fetchEntry (isRow q 0x38 e) runOplistBody q e s

/-- FENCE (R393): it holds the ring until every earlier command from it has completed. -/
def fenceBody (_ : RingRef) (e : Entry) (s : State) : Except CmdErr Taken := do
  entryZero e []
  .ok (.hold 0 0 s)

def execFence (q : RingRef) (e : Entry) (s : State) : Host.Outcome State Fault Refusal := fetchEntry (isRow q 0x3F e) fenceBody q e s

end Sys2Proof.Machine
end

