-- ==== Sys2Proof/Machine/Units.lean ====
section
/-!
DEFINITION. The units of work that a stroke runs (R40, R302): passage reads (R256), the inputs of an operation list (R545), the set-up of
EMBED, RERANK, prefill, decode, draft and GENERIC units, candidate prefetch (R58), and the run of a unit's records to their end (R189).
-/

namespace Sys2Proof.Machine

/-! ### Passage reads (R256) -/

/-- A read of a region as a passage read sees it. -/
def passageBytes (s : State) (region o n : Nat) : Except Nat (List Byte) :=
  let r := (regionRead s region o n).1
  match r.2 with
  | some x => .error x
  | none => .ok r.1

/-- The bytes of a passage's table entry. -/
def entryPlace (p : Passage) (k : Nat) : Nat × Nat := (p.offset + p.tableOff + 8 * k, 8)

/-- The tokens that an entry names, as offset in the region and length in tokens; none for an entry that makes the passage empty. -/
def entrySpan (p : Passage) (e : List Byte) : Option (Nat × Nat) :=
  let v := leNat e
  let start := bitsOf v 43 0
  let len := bitsOf v 59 44
  if bitsOf v 63 60 ≠ 0 ∨ p.imageLen < p.tokenOff + 4 * (start + len) then none
  else some (p.offset + p.tokenOff + 4 * start, len)

/-- The ranges of its region that a read of a passage takes: its entry, then its tokens. -/
def passageRanges (s : State) (p : Passage) (k : Nat) : List (Nat × Nat) :=
  if p.itemCount ≤ k then []
  else
    entryPlace p k ::
      (match passageBytes s p.region (entryPlace p k).1 8 with
       | .ok e => (entrySpan p e).elim [] (fun x => if x.2 = 0 then [] else [(x.1, 4 * x.2)])
       | .error _ => [])

/-- The tiles that a read of a passage moves are in the near copy. -/
def touchPassage (p : Passage) (k : Nat) (s : State) : State :=
  (passageRanges s p k).foldl (fun t x => touchRange t p.region x.1 x.2) s

/-- The length of a passage by its entry alone (R263). -/
def passageLength (s : State) (p : Passage) (k : Nat) : Nat :=
  if p.itemCount ≤ k then 0
  else
    match passageBytes s p.region (entryPlace p k).1 8 with
    | .ok e => (entrySpan p e).elim 0 Prod.snd
    | .error _ => 0

/-- The package number that a global id carries (R71). -/
def packageOf (gid : Nat) : Nat := gid / 2 ^ 37 % 2 ^ 11

/-- Another member of the shell holds the item: what is read of it comes over the links (R257). -/
def remotePackage (s : State) (gid : Nat) : Bool := packageOf gid != s.net.pkgNum && s.net.shellPkgs.contains (packageOf gid)

/-- The length of a candidate's passage, by its entry alone (R263). -/
def candLength (s : State) (p : Pipe) (gid : Nat) : Nat :=
  match p.passage with
  | none => 0
  | some x => if remotePackage s gid then (Config.remotePassage (packageOf gid) (localId gid)).length else passageLength s x (localId gid)

/-- Poison in the entries that the pair length is computed from (R263, R353). -/
def entriesPoison (s : State) (p : Pipe) (gids : List Nat) : Option (Nat × Nat) :=
  p.passage.bind (fun x => gids.findSome? (fun g =>
    if remotePackage s g ∨ x.itemCount ≤ localId g then none
    else (rangePoison s x.region (entryPlace x (localId g)).1 8).map (placeOf s x.region)))

/-- The passage of a candidate for the request in a slot. A passage found bad is empty, and leaves its record once per request; poison
stays with the request for its commit point (R256, R353). -/
def takePassage (n gid : Nat) (s : State) : List Nat × State :=
  match slotOf s n, pipeOf s n with
  | some r, some p =>
    match p.passage with
    | none => ([], s)
    | some store =>
      let k := localId gid
      if remotePackage s gid then (Config.remotePassage (packageOf gid) k, s)
      else
      let s1 := touchPassage store k s
      match readPassage (passageBytes s store.region) store k with
      | .tokens ts => (ts, s1)
      | .bad why =>
        if p.passagesLogged.contains k then ([], s1)
        else ([], softRecord 0x03 r.fn r.tag r.ring gid why (setPipe n { p with passagesLogged := p.passagesLogged ++ [k] } s1))
      | .poison o =>
        ([], setPipe n { p with poisonAt := p.poisonAt.or (some (placeOf s1 store.region o)) } s1)
  | _, _ => ([], s)

/-- The passages of candidates, in their order. -/
def takePassages (n : Nat) : List Nat → State → List (List Nat) × State
  | [], s => ([], s)
  | g :: gs, s =>
    let a := takePassage n g s
    let b := takePassages n gs a.2
    (a.1 :: b.1, b.2)

/-! ### Inputs of an operation list (R545) -/

/-- Token ids and integers as the bytes of a part. -/
def wordsOf (ts : List Nat) : List Byte := ts.flatMap (leBytes 4)

/-- The parts of a stage's input at the INPUT descriptors of a list, in ascending descriptor number. -/
def feedInputs (m : Model) (start : Nat) (parts : List (List Byte)) : Sparse Mem :=
  ((listInputs m start).zip parts).foldl (fun x q => sset x q.1 (inputMem (descOf m q.1) q.2)) []

/-- The input bytes of RUN_OPLIST cut into the extents of the descriptors; bytes beyond the input are 0. -/
def cutInputs (m : Model) : List Nat → List Byte → List (List Byte)
  | [], _ => []
  | d :: ds, bs =>
    let k := inputBytes (descOf m d)
    slice bs 0 k :: cutInputs m ds (bs.drop k)

/-- The filler of token parts: PAD_ID, or 0 when the vocabulary has no PAD token. -/
def padToken (v : Vocab) : Nat := if v.pad = 0xFFFFFFFF then 0 else v.pad

def padTokens (v : Vocab) (n : Nat) (ts : List Nat) : List Nat := ts ++ List.replicate (n - ts.length) (padToken v)

/-- The sequence handed to EMBED, and whether it was truncated (R94, R95). -/
def frameEmbed (b : Binding) (v : Vocab) (ts : List Nat) : List Nat × Bool :=
  let room := b.seqLen - (bit b.leadBos + bit b.trailEos)
  ((if b.leadBos then [v.bos] else []) ++ ts.take room ++ (if b.trailEos then [v.eos] else []), decide (room < ts.length))

/-! ### Candidate prefetch (R58, R59, R68) -/

/-- The tiles of FULL that hold a candidate's full vector. One that lies in the side list, a WRITE_BACK region, is not read ahead (R58). -/
def fullTiles (s : State) (ix : Index) (n id : Nat) : List (Nat × Nat) :=
  match (liveItems ix n).find? (fun it => it.id == id) with
  | some it =>
    match it.loc with
    | .full k => (rangeTiles s ix.fullRegion (k * ix.vec) ix.vec).map (fun t => (ix.fullRegion, t))
    | .side _ => []
  | none => []

/-- The tiles of its region that a passage's prefetch moves. -/
def passageTiles (s : State) (p : Passage) (k : Nat) : List (Nat × Nat) :=
  (passageRanges s p k).flatMap (fun x => (rangeTiles s p.region x.1 x.2).map (fun t => (p.region, t)))

/-- The tiles that candidate prefetch moves for one candidate: its full vector for REFINE, its passage for RERANK and PACK, the latter only
where its region is in READ_ONLY_BELOW mode. -/
def candidateTiles (s : State) (p : Pipe) (gid : Nat) : List (Nat × Nat) :=
  let k := localId gid
  (if p.stages.contains 3 then fullTiles s (indexOf s p.index) p.snapshot k else [])
    ++ (match p.passage with
        | some store =>
          if (p.stages.contains 4 || p.stages.contains 5) && !(regionOf s store.region).writeBack then passageTiles s store k else []
        | none => [])

/-- The filter of R223 for a request. -/
def allowedBy (s : State) (p : Pipe) (id : Nat) : Bool :=
  if p.sp.filterTable = 0xFFFF then true
  else
    let t := tableOf s p.filter
    let row := id / 65536
    let on :=
      if t.rows ≤ row then false
      else
        let bs := rowBytesOf s p.sp.filterTable t row
        hasBit (bs.getD (id % 65536 / 8) 0).toNat (id % 8)
    if p.sp.filterMode = 0 then on else !on

/-- The speculation counters of prefetch (R68, R516). -/
def countPrefetch (issued used : Nat) (s : State) : State :=
  { s with trace := { s.trace with
      prefetchIssued := saturate (2 ^ 64 - 1) (s.trace.prefetchIssued + issued)
      prefetchUsed := saturate (2 ^ 64 - 1) (s.trace.prefetchUsed + used) } }

/-- The snapshot of R77, and with it the provisional list whose tiles are read ahead (R58). Each distinct tile counts as issued once, whether
several candidates share it and whether the near copy holds it already: the manual is silent on both (DESIGN CHOICE, log entry 135). The
tiles are counted as they are issued; one that carries poison is dropped without a report (R60). -/
def takeSnapshot (n : Nat) (s : State) : State :=
  match pipeOf s n with
  | none => s
  | some p =>
    if p.snapTaken then s
    else
      let ix := indexOf s p.index
      let p1 := { p with snapTaken := true, snapshot := ix.side.length, snapEpoch := ix.epoch }
      let wanted := p.prefetchDepth ≠ 0 ∧ (p.stages.contains 3 || p.stages.contains 4 || p.stages.contains 5) = true
      if wanted then
        let ids := provisionalList ix p1.snapshot s.net.pkgNum p.searchK p.prefetchDepth p.sp (allowedBy s p) p.dense
        let tiles := (ids.flatMap (candidateTiles s p1)).dedup
        let s1 := tiles.foldl (fun t x => prefetchTile x.1 x.2 t) s
        let kept := tiles.filter (fun x => (slookup (regionOf s1 x.1).near x.2).isSome)
        countPrefetch tiles.length 0
          (setPipe n { p1 with prefetched := ids, prefetchTiles := kept, prefetchIssued := tiles.length, provisional := true } s1)
      else setPipe n p1 s

/-- The prefetched tiles that the final list confirms (R59): a tile dropped for its poison is not one of them. -/
def confirmedTiles (s : State) (p : Pipe) (final : List Cand) : Nat :=
  (((p.prefetched.filter (fun g => final.any (fun c => c.id == g))).flatMap (candidateTiles s p)).dedup.filter p.prefetchTiles.contains).length

/-! ### Full vectors (R218, R220) -/

/-- The item of the snapshot that a candidate names. -/
def candItem (ix : Index) (n gid : Nat) : Option IxItem := (liveItems ix n).find? (fun it => it.id == localId gid)

/-- The full vectors of candidates, read through their regions, each tile brought up as REFINE reads it; poison stays with the request for
its commit point. -/
def takeVectors (n : Nat) (ix : Index) (snap : Nat) : List Nat → State → List (Nat × List Byte) × State
  | [], s => ([], s)
  | g :: gs, s =>
    match candItem ix snap g, pipeOf s n with
    | some it, some p =>
      let at_ := vectorPlace ix it
      let r := regionRead s at_.1 at_.2 ix.vec
      let s1 := match r.1.2 with
        | some o => setPipe n { p with poisonAt := p.poisonAt.or (some (placeOf r.2 at_.1 o)) } r.2
        | none => r.2
      let rest := takeVectors n ix snap gs s1
      ((g, r.1.1) :: rest.1, rest.2)
    | _, _ => takeVectors n ix snap gs s

/-! ### What a search reads in near memory (R210, R216, R353) -/

/-- Where an item's code lies in the region of its index's near sections: with its partition's base items, or at its side-list slot. -/
def codePlace (ix : Index) (it : IxItem) : Nat :=
  match it.loc with
  | .side j => if ix.items.contains it then basePlace else sideCodeAt ix + j * ix.code
  | .full _ => basePlace
where
  basePlace : Nat :=
    (ix.sections.getD 3 (0, 0)).1 + ix.codeOffs.getD it.part 0
      + ((ix.items.filter (fun x => x.part == it.part)).findIdx (fun x => x.id == it.id)) * ix.code

/-- Poison that a SEARCH over partitions reads: in the directory, the centroids and the codebooks, or in a code it scans. -/
def searchPoison (s : State) (ix : Index) (n : Nat) (parts : List Nat) : Option (Nat × Nat) :=
  let fixed := (ix.sections.take 3).findSome? (fun x => rangePoison s ix.nearRegion x.1 x.2)
  let codes := fun (_ : Unit) =>
    ((liveItems ix n).filter (fun it => parts.contains it.part)).findSome? (fun it => rangePoison s ix.nearRegion (codePlace ix it) ix.code)
  if (regionOf s ix.nearRegion).near.all (fun t => t.2.poison.isEmpty) then none
  else (fixed.or (codes ())).map (placeOf s ix.nearRegion)

/-- The rows of the filter table that a search over partitions reads. -/
def filterRows (ix : Index) (n : Nat) (parts : List Nat) : List Nat :=
  (((liveItems ix n).filter (fun it => parts.contains it.part)).map (fun it => it.id / 65536)).dedup

/-! ### Setting up units of operation lists -/

/-- A run of a list that begins: its inputs, the request's working space, and the counts that the logical sync numbers of the stage have reached
(R189). -/
def newRun (p : Pipe) (m : Model) (b : Binding) (parts : List (List Byte)) : RunCtx :=
  { inputs := feedInputs m b.list parts, work := p.work, workBase := p.work, sync := sgetD p.syncs b.stage [] }

/-- The counts of a stage after a unit: what each of its runs has added goes on for the request (R189; log entry 143). -/
def keepSyncs (p : Pipe) : Pipe :=
  match p.unit with
  | none => p
  | some u =>
    let base := sgetD p.syncs u.bind.stage []
    let one := fun (m : Sparse Nat) (x : Nat × Nat) =>
      sset m x.1 ((sgetD m x.1 0 + (x.2 + 2 ^ 32 - sgetD base x.1 0)) % 2 ^ 32)
    { p with syncs := sset p.syncs u.bind.stage (u.runs.foldl (fun m r => r.sync.foldl one m) base) }

def putUnit (n : Nat) (u : UnitCtx) (s : State) : State :=
  match pipeOf s n with
  | some p => setPipe n { p with unit := some u } s
  | none => s

/-- EMBED (R94). -/
def setUpEmbed (n : Nat) (s : State) : State :=
  match pipeOf s n with
  | none => s
  | some p =>
    let m := modelByOid s p.embedModel
    let v := vocabOf s p.vocab
    let b := (bindOf m 0).getD {}
    let f := frameEmbed b v p.tokens
    let run := newRun p m b [wordsOf (padTokens v b.seqLen f.1), wordsOf [f.1.length]]
    setPipe n { p with
      queryTokens := f.1.length, truncated := p.truncated || f.2
      unit := some { stage := 0, model := p.embedModel, bind := b, runs := [run] } } s

/-- A GENERIC list. -/
def setUpGeneric (n : Nat) (s : State) : State :=
  match pipeOf s n with
  | none => s
  | some p =>
    let m := modelByOid s p.embedModel
    let b := (bindOf m 5).getD {}
    let run := newRun p m b (cutInputs m (listInputs m b.list) p.text)
    putUnit n { stage := 5, model := p.embedModel, bind := b, runs := [run] } s

/-- The moving average of a RERANK binding's measured times over the times stated, 1 before the first (R53). -/
def rerankCorr (m : Model) : Rat :=
  let stated := (m.rerankTimes.map Prod.snd).sum
  if stated = 0 then 1 else ((m.rerankTimes.map Prod.fst).sum : Rat) / stated

/-- est(n) in ns without the correction: CLK_CORE at m = 16 runs at 2.0 GHz (R53). -/
def rerankEst (b : Binding) (m n : Nat) (pl : Nat × Nat) : Rat :=
  let fixed : Rat := (b.cyclesFixed : Rat) / 2
  let batch : Rat := (b.cyclesBatch : Rat) / 2 * (pl.1 : Rat) / ((pl.2 * b.seqLen : Nat) : Rat)
  (fixed + (n : Rat) / 8 * batch) * 16 / m

/-- The nearest whole number, halves up (R72). -/
def roundHalf (x : Rat) : Int := (x + 1 / 2).floor

/-- n_used of R55: RERANK_K, or the largest multiple of 8 below it whose estimate fits, and at least 8. -/
def usedCount (est : Nat → Rat) (k : Nat) (force : Bool) (remain : Option Int) : Nat :=
  match remain with
  | none => k
  | some r =>
    if force || decide (est k ≤ r) then k
    else (((List.range (k / 8)).reverse.map (fun i => 8 * (i + 1))).find? (fun n => decide (est n ≤ r))).getD 8

/-- The pair length of a query as a fraction: the sum over its first RERANK_K candidates, and their count (R263). -/
def rerankPairs (s : State) (p : Pipe) (b : Binding) : Nat × Nat :=
  pairLengthSum b p.tokens.length ((p.cands.take p.rerankK).map (fun c => candLength s p c.id))

/-- RERANK (R53 to R56, R259): n_used is fixed, the passages are read, and each candidate's pair is one run of the list. -/
def setUpRerank (n : Nat) (s : State) : State :=
  match slotOf s n, pipeOf s n with
  | some r, some p =>
    let m := modelByOid s p.rerankModel
    let v := vocabOf s p.vocab
    let b := (bindOf m 1).getD {}
    let pl := rerankPairs s p b
    let est := fun k => rerankEst b s.gov.mNow k pl * rerankCorr m
    let remain : Option Int :=
      if p.deadlineUs = 0 then none
      else some ((r.tFetch + 1000 * p.deadlineUs : Nat) - (now s : Int)
        - (if p.stages.contains 5 then 1000 * p.budgets.getD 5 0 else 0 : Nat))
    let used := usedCount est p.rerankK p.force remain
    let bad := entriesPoison s p ((p.cands.take p.rerankK).map Cand.id)
    let s1 := setPipe n { p with
      nUsed := used, estNs := (roundHalf (est p.rerankK)).toNat, remainNs := remain, poisonAt := p.poisonAt.or bad } s
    let ps := takePassages n ((p.cands.take used).map Cand.id) s1
    let runs := ps.1.map (fun t =>
      let len := validLen b p.tokens.length t.length
      { newRun p m b [wordsOf (buildPair b v p.tokens t), wordsOf [len]] with seqLen := b.seqLen, streamed := alignUp len 64 })
    putUnit n { stage := 1, model := p.rerankModel, bind := b, runs := runs } ps.2
  | _, _ => s

/-! ### Generation units (R277 to R287) -/

/-- Where generation begins: the prompt follows the conversation's context, and a grammar starts at its start configuration unless the
conversation carries one on (R106, R277, R317). -/
def startGen (s : State) (p : Pipe) : Pipe :=
  let g := p.gen
  let spans :=
    if p.stages.contains 5 then (p.spanMap.filter (fun x => decide (x.state ≤ 1))).map (fun x => (x.start, x.tokens))
    else [(0, p.prompt.length)]
  { p with
    started := true, stageStart := now s
    gen := { g with
      ctx := g.ctx ++ p.prompt, spans := spans
      grammar := if p.gp.grammarEn then some (g.grammar.getD (startConfig (grammarOf s p.grammar))) else none } }

/-- Tokens of the prompt, with the context before it, that no chunk has consumed. -/
def toPrefill (p : Pipe) : Nat :=
  if p.gen.count ≠ 0 then 0 else p.gen.ctx.length + (if p.started then 0 else p.prompt.length) - p.gen.prefilled

/-- A prefill chunk (R277). -/
def setUpPrefill (n : Nat) (s : State) : State :=
  match pipeOf s n with
  | none => s
  | some p0 =>
    let p := if p0.started then p0 else startGen s p0
    let m := modelByOid s p.genModel
    let v := vocabOf s p.vocab
    let b := (bindOf m 2).getD {}
    let at_ := p.gen.prefilled
    let ts := (p.gen.ctx.drop at_).take b.seqLen
    let run := newRun p m b
      [wordsOf (padTokens v b.seqLen ts), wordsOf [ts.length], wordsOf [at_], wordsOf (ts.getLastD 0 :: List.replicate 8 0)]
    setPipe n { p with
      unit := some
        { stage := 2, model := p.genModel, bind := b, pos := at_, chunk := ts.length, configs := p.gen.grammar.toList
          runs := [{ run with rows := ts.length, pos := at_, kv := p.gen.kvGen, kvBase := p.gen.kvGen }] } } s

/-- Drafts that may be proposed for a decode step (R281): none where neither source can propose, or without shadow pages. -/
def draftRoom (p : Pipe) : Nat :=
  if !p.gen.shadow then 0
  else if p.gp.srcCopy || (p.gp.srcModel && p.draftModel != 0) then
    min p.gp.draftLimit (min (p.gp.maxNew - p.gen.count - 1) (131071 - p.gen.ctx.length))
  else 0

/-- A decode step with its drafts (R284): drafts that the grammar rejects do not enter the pass (R112). -/
def setUpDecode (drafts : List Nat) (draftKv : List Mem) (n : Nat) (s : State) : State :=
  match pipeOf s n with
  | none => s
  | some p =>
    let m := modelByOid s p.genModel
    let b := (bindOf m 3).getD {}
    let configs := p.gen.grammar.elim [] (fun c => shadowChain (grammarOf s p.grammar) (vocabOf s p.vocab) c drafts)
    let ds := if p.gen.grammar.isSome then drafts.take (configs.length - 1) else drafts
    let rows := p.gen.ctx.getLastD 0 :: ds
    let at_ := p.gen.ctx.length - 1
    let run := newRun p m b [wordsOf (rows ++ List.replicate (9 - rows.length) 0), wordsOf [rows.length], wordsOf [at_]]
    putUnit n
      { stage := 3, model := p.genModel, bind := b, pos := at_, drafts := ds, proposed := drafts.length, draftKv := draftKv
        configs := configs
        runs := [{ run with rows := rows.length, k := ds.length, pos := at_, kv := p.gen.kvGen, kvBase := p.gen.kvGen }] } s

/-! ### Running the records of a unit (R189) -/

/-- The body of a record by its operation. -/
def recordBody (op : Nat) : Option (RecRef → RecCtx → State → State) :=
  match op with
  | 0x10 => some matmulBody
  | 0x11 => some elemwiseBody
  | 0x12 => some matmulBody
  | 0x20 => some vectorBody
  | 0x21 => some vectorBody
  | 0x30 => some gatherBody
  | 0x31 => some (runBody kvWriteRun)
  | 0x32 => some prefetchBody
  | 0x40 => some collectiveBody
  | 0x41 => some selectMergeBody
  | 0x50 => some verifyBody
  | 0x51 => some emitBody
  | _ => none

/-- Crews of one compute die (R24). -/
def dieCrews (s : State) : Nat := Config.crews s.part / Config.dies s.part

/-- The records that the stroke has placed on each core so far. -/
def placedCores (s : State) : List Nat :=
  s.srv.slots.flatMap (fun x =>
    match x.2.work with
    | .pipe p => p.unit.elim [] (fun u => u.runs.flatMap (fun r => r.ran.map Prod.snd))
    | _ => [])

/-- The compute dies for a record (R311): the home die of the HOME weights or HOME table that it reads, then the others, the least loaded first. -/
def recordDies (s : State) (p : Pipe) (m : Model) (w : BitVec 256) : List Nat :=
  let cores := placedCores s
  let loads := (List.range (Config.dies s.part)).map (fun d => (d, cores.countP (fun n => n / 9 / dieCrews s == d)))
  let order := (sortBy (fun a b => decide (a.2 < b.2)) loads).map Prod.fst
  let t := boundTable s p (recAt w 8 2)
  let home :=
    if recOp w = 0x30 then (if t.placement = 2 then [t.homeDie] else [])
    else if (recReads w).any (fun n => (descOf m n).cls == 0 && (descOf m n).placement == 2) then [m.homeDie] else []
  home ++ order

/-- A core that receives placement and holds no launch, on the first of some dies that has one (R312). -/
def idleCore (s : State) (dies : List Nat) : Option Nat :=
  dies.findSome? (fun d => ((List.range (9 * dieCrews s)).map (9 * dieCrews s * d + ·)).find?
    (fun n => coreServes s n && (coreOf s n).launch.isNone))

/-- The core for a record of a run: for a VECTOR_Q the one whose queue holds the tiles of its pass (R167), else an idle core of its dies. -/
def coreFor (s : State) (p : Pipe) (m : Model) (slot run index : Nat) : Option Nat :=
  if recOp (recOf m index) = 0x21 then
    (s.cores.find? (fun c => c.2.launch.isNone && nextOwner c.2 == some (slot, run, boundRecord m index))).map Prod.fst
  else idleCore s (recordDies s p m (recOf m index))

/-- One record of a run, where it may start. -/
def runRecord (slot run index : Nat) (s : State) : State :=
  match slotOf s slot with
  | none => s
  | some q =>
    match unitRun q run, (unitRun q run).bind (fun u => coreFor s (reqPipe q) (modelByOid s u.1.model) slot run index) with
    | some u, some core =>
      let op := recOp (recOf (modelByOid s u.1.model) index)
      let r : RecRef := ⟨slot, run, core, index⟩
      match recordBody op, recCtx s r op with
      | some body, some c => body r c s
      | _, _ => s
    | _, _ => s

/-- The records of a unit by run, in list order. -/
def unitRecords (s : State) (slot : Nat) : List (Nat × Nat) :=
  match (slotOf s slot).bind (fun q => match q.work with | .pipe p => p.unit | _ => none) with
  | none => []
  | some u =>
    let recs := listRecords (modelByOid s u.model) u.bind.list
    (List.range u.runs.length).flatMap (fun i => recs.map (fun x => (i, x)))

/-- The launches of a request that are stalled and may go on. -/
def dueCores (s : State) (slot : Nat) : List Nat :=
  (s.cores.filter (fun c =>
    match c.2.launch with
    | some l => l.slot == slot && waitDue (loadEng s c.1)
    | none => false)).map Prod.fst

/-- One round over the records of a slot's unit. -/
def runRound (slot : Nat) (s : State) : State :=
  let s1 := (unitRecords s slot).foldl (fun t x => runRecord slot x.1 x.2 t) s
  (dueCores s1 slot).foldl (fun t n => waitBody n t) s1

/-- Records of a slot's unit that have completed, and launches that it holds. -/
def unitProgress (s : State) (slot : Nat) : Nat × Nat :=
  let u := (slotOf s slot).bind (fun q => match q.work with | .pipe p => p.unit | _ => none)
  (u.elim 0 (fun x => (x.runs.map (fun r => r.done.length)).sum), s.cores.countP (fun c => c.2.launch.any (fun l => l.slot == slot)))

/-- Rounds until one changes nothing, at most f of them. -/
def runRounds (slot : Nat) : Nat → State → State
  | 0, s => s
  | f + 1, s =>
    let t := runRound slot s
    if unitProgress t slot == unitProgress s slot && (dueCores t slot).isEmpty then t else runRounds slot f t

/-- Rounds that any unit of a slot can take: each completes a record, or takes a launch past a WAIT. -/
def roundFuel (s : State) (slot : Nat) : Nat :=
  match (slotOf s slot).bind (fun q => match q.work with | .pipe p => p.unit | _ => none) with
  | none => 1
  | some u =>
    let m := modelByOid s u.model
    1 + u.runs.length * ((listRecords m u.bind.list).map (fun n =>
      let w := recOf m n
      if recOp w = 0x20 ∨ recOp w = 0x21 then
        2 + ((loopShape (descOf m (recAt w 10 2))).2.foldl (· * ·) 1) * (m.progs.getD (recAt w 8 2) []).length
      else 2)).sum

/-- Every record of a slot's unit runs that can. -/
def runUnit (slot : Nat) (s : State) : State := runRounds slot (roundFuel s slot) s

/-- Every record of a slot's unit has completed. -/
def unitDone (s : State) (slot : Nat) : Bool :=
  match (slotOf s slot).bind (fun q => match q.work with | .pipe p => p.unit | _ => none) with
  | none => true
  | some u =>
    let recs := listRecords (modelByOid s u.model) u.bind.list
    u.runs.all (fun r => recs.all r.done.contains)

/-! ### Draft runs (R283) -/

/-- The run of a slot's unit. -/
def firstRun (s : State) (slot : Nat) : RunCtx :=
  (((pipeOf s slot).bind Pipe.unit).bind (fun u => u.runs.head?)).getD {}

/-- One run of the DRAFT binding over a token at a position, with the draft model's pages kv: the logits it delivers and the pages after it. -/
def draftRun (slot tok at_ : Nat) (spec : Bool) (kv : Mem) (s : State) : (List Word × Mem) × State :=
  match pipeOf s slot with
  | none => (([], kv), s)
  | some p =>
    let m := modelByOid s p.draftModel
    let b := (bindOf m 4).getD {}
    let run := newRun p m b [wordsOf [tok], wordsOf [at_]]
    let u : UnitCtx := { stage := 4, model := p.draftModel, bind := b, pos := at_, spec := spec
                         runs := [{ run with rows := 1, pos := at_, kv := kv, kvBase := kv }] }
    let s0 := runUnit slot (putUnit slot u s)
    let r := firstRun s0 slot
    let s1 := match pipeOf s0 slot with | some q => setPipe slot (keepSyncs q) s0 | none => s0
    let logits := ((r.emits.find? (fun e => e.what == 3)).map (fun e =>
      let n := e.ext.getD 0 1
      (e.codes.drop (e.codes.length - n)).map (fun c => (toFp32 (elemNum e.fmt c)).1))).getD []
    ((logits, r.kvBase), s1)

/-- Committed tokens that the draft model has not seen are consumed, one run each. -/
def draftCatchUp (slot : Nat) : List (Nat × Nat) → Mem → State → Mem × State
  | [], kv, s => (kv, s)
  | x :: xs, kv, s =>
    let r := draftRun slot x.2 x.1 false kv s
    draftCatchUp slot xs r.1.2 r.2

/-- At most k drafts, each extending the one before; a run whose mask is empty, or that gives no finite logit, ends the chain. The pages after each
run stand beside them. -/
def draftChain (slot : Nat) (g : Grammar) (v : Vocab) : Nat → Nat → Nat → Option GConfig → Mem → State → (List Nat × List Mem) × State
  | 0, _, _, _, _, s => (([], []), s)
  | k + 1, tok, at_, c, kv, s =>
    let r := draftRun slot tok at_ true kv s
    let mask := match c with
      | some x => maskOf g v x
      | none => List.replicate v.count true
    match greedyToken r.1.1 mask with
    | none => (([], [r.1.2]), r.2)
    | some t =>
      let rest := draftChain slot g v k t (at_ + 1) (c.bind (fun x => advanceToken g v x t)) r.1.2 r.2
      ((t :: rest.1.1, r.1.2 :: rest.1.2), rest.2)

/-- The drafts of the draft model for the request in a slot (R283), with the pages after each run. -/
def modelDrafts (slot k : Nat) (s : State) : (List Nat × List Mem) × State :=
  match pipeOf s slot with
  | none => (([], []), s)
  | some p =>
    let c := p.gen.ctx.length
    let b := (bindOf (modelByOid s p.draftModel) 4).getD {}
    let unseen := ((List.range (c - 1)).drop p.gen.draftSeen).map (fun i => (i, p.gen.ctx.getD i 0))
    let s1 := draftCatchUp slot unseen p.gen.kvDraft s
    draftChain slot (grammarOf s p.grammar) (vocabOf s p.vocab) (min k b.draftMax) (p.gen.ctx.getLastD 0) (c - 1) p.gen.grammar s1.1 s1.2

/-- The drafts of a decode step and its set-up (R281 to R284): a copy first, then the draft model. -/
def startDecode (slot : Nat) (s : State) : State :=
  match pipeOf s slot with
  | none => s
  | some p =>
    let k := draftRoom p
    let copied := if p.gp.srcCopy then copyDrafts p.prompt p.gen.spans p.gen.ctx p.gp.spanMatch k else []
    if copied.isEmpty && p.gp.srcModel && p.draftModel != 0 && k != 0 then
      let r := modelDrafts slot k s
      setUpDecode r.1.1 r.1.2 slot r.2
    else setUpDecode copied [] slot s

end Sys2Proof.Machine
end

