-- ==== Sys2Proof/Machine/Compose.lean ====
section
/-!
DEFINITION. Composing a stroke (R304 to R312, R446 to R451): which requests have a unit due, their order, placement, the governor's
admission, and the start of the admitted units.
-/

namespace Sys2Proof.Machine

/-! ### Units and their order (R304, R307) -/

/-- The estimate given for a slot's next unit; a unit without one costs nothing and ends its stage. -/
def estOf (b : BoundaryData) (n : Nat) : UnitEst := (b.units.find? (fun u => u.slot == n)).getD ⟨n, [], [], false, false, true⟩

/-- Commands that run in strokes. -/
def hasUnit : Work → Bool
  | .power _ => false
  | .shellJoin => false
  | .shellEnd => false
  | .activate _ => false
  | _ => true

/-- An earlier command of the function that names the same conversation is in flight (R317). -/
def convBusy (s : State) (r : Request) : Bool :=
  convName r != 0
    && s.srv.slots.any (fun x => x.2.fn == r.fn && convName x.2 == convName r && decide (x.2.fetchSeq < r.fetchSeq))

/-- An earlier merge of the same index is in flight (R231). -/
def mergeBusy (s : State) (r : Request) : Bool :=
  match r.work with
  | .merge o _ => s.srv.slots.any (fun x => decide (x.2.fetchSeq < r.fetchSeq) && (match x.2.work with | .merge k _ => k == o | _ => false))
  | _ => false

/-- The target instant of a request's next unit (R304). -/
def targetOf (r : Request) : Option Nat :=
  match r.work with
  | .pipe p =>
    match nextStage p with
    | some k =>
      if k = 6 then
        if toPrefill p ≠ 0 then (if p.gp.ttftUs = 0 then none else some (r.tFetch + 1000 * p.gp.ttftUs))
        else if p.gp.tbtUs = 0 then none
        else p.gen.lastCommit.map (· + 1000 * p.gp.tbtUs)
      else if p.budgets.getD k 0 ≠ 0 then some (r.tFetch + 1000 * (p.budgets.take (k + 1)).sum)
      else if p.deadlineUs ≠ 0 then some (r.tFetch + 1000 * p.deadlineUs)
      else none
    | none => none
  | _ => none

/-- The order within a class: by target instant, those without one last, then by fetch order. -/
def beforeInClass (a b : Nat × Request) : Bool :=
  match targetOf a.2, targetOf b.2 with
  | some x, some y => decide (x < y) || (x == y && decide (a.2.fetchSeq < b.2.fetchSeq))
  | some _, none => true
  | none, some _ => false
  | none, none => decide (a.2.fetchSeq < b.2.fetchSeq)

/-- The classes HIGH, MEDIUM and LOW with their weights, credits and units. -/
abbrev Classes := List (Nat × Int × List (Nat × Request))

/-- Each class that still has units adds its weight to its credit. -/
def addCredits (cs : Classes) : Classes := cs.map (fun c => if c.2.2.isEmpty then c else (c.1, c.2.1 + c.1, c.2.2))

/-- The class with the greatest credit of those with units, the first of equals. -/
def bestClass (cs : Classes) : Option (Nat × Int) :=
  (cs.zipIdx).foldl (fun best x =>
    if x.1.2.2.isEmpty then best
    else
      match best with
      | some y => if y.2 < x.1.2.1 then some (x.2, x.1.2.1) else some y
      | none => some (x.2, x.1.2.1)) none

/-- Smooth weighted round robin over the classes (R307 step 2). -/
def roundRobin : Nat → Classes → List (Nat × Request)
  | 0, _ => []
  | f + 1, cs =>
    let total : Nat := ((cs.filter (fun c => !c.2.2.isEmpty)).map Prod.fst).sum
    let cs1 := addCredits cs
    match bestClass cs1 with
    | none => []
    | some (i, _) =>
      let c := cs1.getD i (0, 0, [])
      c.2.2.take 1 ++ roundRobin f (cs1.set i (c.1, c.2.1 - total, c.2.2.drop 1))

/-- Units in the order of R307: URGENT in fetch order, then the other classes merged by their weights. -/
def unitOrder (s : State) (xs : List (Nat × Request)) : List (Nat × Request) :=
  let urgent := sortBy (fun a b => decide (a.2.fetchSeq < b.2.fetchSeq)) (xs.filter (fun x => x.2.prio == 0))
  let cls := fun (k w : Nat) => (w, (0 : Int), sortBy beforeInClass (xs.filter (fun x => x.2.prio == k)))
  let a := s.port.arbWeight
  urgent ++ roundRobin xs.length [cls 1 (fieldOf a 7 0), cls 2 (fieldOf a 15 8), cls 3 (fieldOf a 23 16)]

/-! ### What the boundary finds (R301, R309, R310) -/

/-- A request that is promoted by age is URGENT from this boundary on (R396). -/
def promoteAged (r : Request) : Request :=
  if r.promote then { r with prio := 0, aged := true, promote := false } else r

/-- A slot's state and cause of waiting. -/
def setWait (n : Nat) (st : SlotState) (cause : Nat) (s : State) : State :=
  match slotOf s n with
  | some r => setSlot s n { r with st := st, wait := cause }
  | none => s

/-- The pages that hold the tokens of a request: those of its conversation with its prompt, or with the prompt's budget where PACK makes it. -/
def wholePages (p : Pipe) (ctx : Nat) : Nat := ceilDiv (ctx + (if p.stages.contains 5 then p.packTokens else p.prompt.length)) 64

/-- What a conversation brings to the request that continues it (R316, R317). Pages of another model serve for nothing. -/
def loadConv (c : Conv) (p : Pipe) : Pipe :=
  let sameGen := c.genModel == p.genModel
  let sameDraft := c.draftModel == p.draftModel && p.draftModel != 0
  { p with
    gen := { p.gen with
      conv := c.id, ctx := c.ctx, total := c.count, held := c.held
      kvGen := if sameGen then c.kvGen else [], prefilled := if sameGen then c.prefilled else 0
      genPoison := if sameGen then c.genPoison else []
      kvDraft := if sameDraft then c.kvDraft else [], draftSeen := if sameDraft then c.draftSeen else 0
      draftPoison := if sameDraft then c.draftPoison else []
      grammar := if p.gp.grammarEn && c.grammarObj == p.grammar then c.grammar else none } }

/-- A QUEUED request is READY; the answer is false when its KV pages are not free (R309). One that continues an open conversation needs no shadow
pages for that, and without them runs with no drafts (R281, R287). A request of a conversation takes it at this point (R318). -/
def readyPipe (n : Nat) (r : Request) (p : Pipe) (s : State) : Bool × State :=
  if generates p then
    let c := if p.gp.convId = 0 then none else convOf s r.fn p.gp.convId
    let pages := wholePages p (c.elim 0 (fun x => x.ctx.length))
    let p0 := match c with | some x => loadConv x p | none => p
    let continues := c.any (fun x => x.st == .open)
    let room := kvFree s r.fn + c.elim 0 (convKv s)
    let need := pages * genPageBytes s p.genModel p.draftModel
    let shadow := decide (need + shadowBytes s p ≤ room)
    let p1 := { p0 with gen := { p0.gen with pages := pages, conv := p.gp.convId, shadow := shadow } }
    if shadow || (continues && decide (need ≤ room)) then
      let s1 := setSlot s n { r with st := .ready, work := .pipe p1 }
      (true,
        match c with
        | some x => setConv { x with st := if x.st = .paused then .resuming else .active } s1
        | none =>
          if p.gp.convId = 0 then s1
          else
            setConv { fn := r.fn, id := p.gp.convId, st := .active, genModel := p.genModel, draftModel := p.draftModel, vocab := p.vocab
                      grammarObj := p.grammar }
              { s1 with srv := { s1.srv with recent := s1.srv.recent.filter (fun e => !(e.1 == r.fn && e.2.1 == p.gp.convId)) } })
    else (false, s)
  else (true, setSlot s n { r with st := .ready })

/-- A PAUSE, RELEASE or RESUME whose conversation has gone since its fetch (R317, R322). -/
def convGone (n : Nat) (r : Request) (id : Nat) (s : State) : State :=
  match convForeign s r.fn id, recentOf s r.fn id with
  | some c, _ => failRequest n (convNotOwned id c) s
  | none, some .expired => endRequest n 0x44 [] s
  | none, some .lost => endRequest n 0x48 [] s
  | none, _ => endRequest n 0x49 [] s

/-- One QUEUED request at the boundary: the answer is false when it waits for KV pages. -/
def leaveQueue (n : Nat) (s : State) : Bool × State :=
  match slotOf s n with
  | none => (true, s)
  | some r =>
    match r.work with
    | .pipe p =>
      match (if generates p then genConv r.fn p.gp.convId s else .ok none) with
      | .error x => (true, failRequest n x s)
      | .ok (some st) => (true, endRequest n st [] s)
      | .ok none => readyPipe n r p s
    | .pause id _ _ _ _ =>
      match convOf s r.fn id with
      | none => (true, convGone n r id s)
      | some c =>
        let s1 := setSlot s n { r with st := .ready }
        (true, if c.st = .open then setConv { c with st := .pausing } s1 else s1)
    | .release id =>
      match convOf s r.fn id, convForeign s r.fn id with
      | some _, _ => (true, setSlot s n { r with st := .ready })
      | none, some c => (true, failRequest n (convNotOwned id c) s)
      | none, none => (true, failRequest n (convFree id) s)
    | .resume id =>
      match convOf s r.fn id with
      | none => (true, convGone n r id s)
      | some c =>
        if c.st = .paused then
          if c.pages * genPageBytes s c.genModel c.draftModel ≤ kvFree s r.fn then
            (true, setConv { c with st := .resuming } (setSlot s n { r with st := .ready }))
          else (false, s)
        else (true, endRequest n 0 [] s)
    | w => (true, if hasUnit w then setSlot s n { r with st := .ready } else s)

/-- QUEUED requests leave their state in order; in a partition none passes one whose pages are not free (R309). -/
def leaveQueues : List (Nat × Request) → List Nat → State → State
  | [], _, s => s
  | x :: xs, blocked, s =>
    let part := partOf s x.2.fn
    let needsPages := match x.2.work with | .pipe p => generates p | .resume _ => true | _ => false
    if convBusy s x.2 || (needsPages && blocked.contains part) then leaveQueues xs blocked s
    else
      let r := leaveQueue x.1 s
      leaveQueues xs (if r.1 then blocked else part :: blocked) r.2

/-- The pages of a decode step with as many drafts as may be proposed (R310). -/
def stepPages (p : Pipe) : Nat := max p.gen.pages (ceilDiv (p.gen.ctx.length + draftRoom p) 64)

/-- The next unit is a decode step. -/
def isDecode (p : Pipe) : Bool := nextStage p == some 6 && toPrefill p == 0

/-- The shadow pages of a request that has none, where the quota has them free (R287). -/
def takeShadow (s : State) (f : Nat) (p : Pipe) : Pipe :=
  { p with gen := { p.gen with shadow := p.gen.shadow || decide (shadowBytes s p ≤ kvFree s f) } }

/-- A decode step's pages are taken (R310); the answer is false when the quota has none free. -/
def takePages (n : Nat) (s : State) : Bool × State :=
  match slotOf s n with
  | none => (true, s)
  | some r =>
    match r.work with
    | .pipe p0 =>
      let p := if isDecode p0 then takeShadow s r.fn p0 else p0
      if isDecode p then
        let k := stepPages p
        let fresh := if p0.gen.shadow then 0 else if p.gen.shadow then shadowBytes s p else 0
        if (k - p.gen.pages) * genPageBytes s p.genModel p.draftModel + fresh ≤ kvFree s r.fn ∨ k = p.gen.pages then
          (true, setSlot s n { r with holdPages := 0, work := .pipe { p with gen := { p.gen with pages := k } } })
        else (false, setSlot s n { r with st := .waiting, wait := 3 })
      else (true, s)
    | _ => (true, s)

/-- Requests that wait for a page take freed pages in order; the partitions in which one still waits (R309, R310). -/
def servePages : List (Nat × Request) → List Nat → State → List Nat × State
  | [], blocked, s => (blocked, s)
  | x :: xs, blocked, s =>
    let part := partOf s x.2.fn
    if blocked.contains part then servePages xs blocked s
    else
      let r := takePages x.1 s
      servePages xs (if r.1 then blocked else part :: blocked) (if r.1 then setWait x.1 .ready 0 r.2 else r.2)

/-- Room in the token stream (R294): none when the consumer count is not possible. -/
def streamRoom (s : State) (p : Pipe) : Option Bool :=
  let used := leNat (readBytes s.mem.host (p.gp.hdrAddr + 8) 8)
  if p.gen.producer < used ∨ p.gp.streamLen < p.gen.producer - used then none
  else some (decide (4864 ≤ p.gp.streamLen - (p.gen.producer - used)))

/-- The next unit writes a chunk: a decode step, or the last chunk of the prompt. -/
def writesChunk (s : State) (p : Pipe) : Bool :=
  nextStage p == some 6 && decide (toPrefill p ≤ ((bindOf (modelByOid s p.genModel) 2).getD {}).seqLen)

/-- Its conversation is still to be read back before the request's other units (R317). -/
def resumes (s : State) (r : Request) (p : Pipe) : Bool :=
  p.gen.conv != 0 && (convOf s r.fn p.gen.conv).any (fun c => c.st == .resuming)

/-- A READY request whose next unit cannot be placed waits (R115, R294, R308). -/
def findWait (b : BoundaryData) (n : Nat) (s : State) : State :=
  match slotOf s n with
  | none => s
  | some r =>
    let e := estOf b n
    match r.work with
    | .pipe p =>
      if e.farMissing then setWait n .waiting 4 s
      else if resumes s r p then s
      else if e.maskMissing && p.gp.grammarEn && isDecode p then setSlot s n { r with st := .waiting, wait := 2, deferred := r.deferred + 1 }
      else if nextStage p = some 6 then
        match streamRoom s p with
        | none => endRequest n 0x46 [] s
        | some true => s
        | some false => if writesChunk s p then setWait n .waiting 1 s else s
      else s
    | _ => s

/-- Slots in a state, in the order of R307. -/
def slotsIn (s : State) (ok : Request → Bool) : List (Nat × Request) := unitOrder s (s.srv.slots.filter (fun x => ok x.2 && !x.2.aborted))

/-- The requests at the boundary before placement. -/
def prepareSlots (b : BoundaryData) (s0 : State) : State :=
  let s := { s0 with srv := { s0.srv with slots := s0.srv.slots.map (fun x => (x.1, promoteAged x.2)) } }
  let again : List (Nat × Request) := s.srv.slots.filter (fun x => x.2.st == .waiting && (x.2.wait == 1 || x.2.wait == 2))
  let s1 := again.foldl (fun (t : State) (x : Nat × Request) => setWait x.1 .ready 0 t) s
  let w := servePages (slotsIn s1 (fun r => r.st == .waiting && r.wait == 3)) [] s1
  let s2 := leaveQueues (slotsIn w.2 (fun r => r.st == .queued)) w.1 w.2
  (slotsIn s2 (fun r => r.st == .ready)).foldl (fun t x => findWait b x.1 t) s2

/-! ### Placement (R308) -/

/-- The estimated time of a stroke of units at m = 16: that of the busiest compute die (R308, R446). -/
def busiestNs (us : List UnitEst) : Nat := ((List.range 8).map (fun d => ((us.map (fun u => u.dieNs.getD d 0)).sum))).foldl max 0

/-- Candidates placed in order until the busiest die's time would pass STROKE_TARGET_US. A unit that alone takes more than 8 ms ends its
request at the next commit point. -/
def placeUnits (b : BoundaryData) : List (Nat × Request) → List UnitEst → State → List UnitEst × State
  | [], placed, s => (placed, s)
  | x :: xs, placed, s =>
    let e := { estOf b x.1 with slot := x.1 }
    if 8000000 < busiestNs [e] then
      placeUnits b xs placed (match slotOf s x.1 with
        | some r => setSlot s x.1 { r with st := .ending, status := 0x4C }
        | none => s)
    else if placed.isEmpty = false ∧ 1000 * s.srv.strokeTargetUs < busiestNs (placed ++ [e]) then (placed, s)
    else
      let r := takePages x.1 s
      if r.1 then placeUnits b xs (placed ++ [e]) r.2 else placeUnits b xs placed r.2

/-- The units due: the next unit of every READY request, in the order of R307. -/
def candidates (s : State) : List (Nat × Request) := slotsIn s (fun r => r.st == .ready && !mergeBusy s r)

/-! ### The governor (R446 to R451) -/

/-- The stroke's time at ratio m in ns: t(m) of R446. -/
def strokeNs (us : List UnitEst) (m : Nat) : Rat := (busiestNs us : Rat) * 16 / m

/-- e(d, m) in µJ. -/
def dieUj (s : State) (b : BoundaryData) (us : List UnitEst) (m d : Nat) : Rat :=
  sgetD s.gov.corr d 1 * ((us.map (fun u => u.dynUj.getD d 0)).sum : Nat) + (b.staticMw.getD d 0 : Rat) * strokeNs us m / 1000000

/-- Measured power of a die over the last 1 ms in W. -/
def dieWatts (s : State) (d : Nat) : Rat := ((s.gov.dieSamples.map (fun x => x.getD d 0)).sum : Nat) / 1000

/-- A stroke of units at ratio m fits (R449). -/
def strokeFits (s : State) (b : BoundaryData) (us : List UnitEst) (m : Nat) : Bool :=
  let g := s.gov
  let t := strokeNs us m
  let ds := List.range (Config.dies s.part)
  let e := (ds.map (dieUj s b us m)).sum
  decide (e ≤ g.sustainedW * t / 1000 + g.bankUj) && decide (e ≤ g.peakW * t / 1000)
    && ds.all (fun d => decide (dieUj s b us m d ≤ (g.gTh * ((g.throttleC : Int) - dieTemp s d : Int) + dieWatts s d) * t / 1000))

/-- Ratios from M_CAP down to 8. -/
def ratios (cap : Nat) : List Nat := (List.range (cap - 7)).map (fun i => cap - i)

/-- Units added in list order while they fit. -/
def addFitting (s : State) (b : BoundaryData) (m : Nat) : List UnitEst → List UnitEst → List UnitEst
  | us, [] => us
  | us, u :: more => if strokeFits s b (us ++ [u]) m then addFitting s b m (us ++ [u]) more else us

/-- The slot's request is URGENT. -/
def isUrgent (s : State) (n : Nat) : Bool := (slotOf s n).any (fun r => r.prio == 0)

/-- The governor's decision: the ratio and the admitted units (R450, R451). -/
def governStroke (s : State) (b : BoundaryData) (placed : List UnitEst) : Nat × List UnitEst :=
  let urgent := placed.filter (fun u => isUrgent s u.slot)
  let rest := placed.filter (fun u => !isUrgent s u.slot)
  if s.gov.throttling then (8, urgent)
  else
    let m := if urgent.isEmpty then s.gov.mCap else ((ratios s.gov.mCap).find? (strokeFits s b urgent)).getD 8
    (m, addFitting s b m urgent rest)

/-! ### Starting the admitted units (R49, R52) -/

/-- The deadline has passed at the start of a front-end stage (R49). -/
def deadlineMissed (s : State) (r : Request) : Bool :=
  match r.work with
  | .pipe p =>
    !p.started && p.deadlineUs != 0 && (nextStage p).any (fun k => decide (k ≤ 5)) && decide (r.tFetch + 1000 * p.deadlineUs < now s)
  | _ => false

/-- A stage begins with its first unit (R52). -/
def beginStage (n : Nat) (s : State) : State :=
  match pipeOf s n with
  | some p => if p.started then s else setPipe n { p with started := true, stageStart := now s } s
  | none => s

/-- The regions that the unit of a request reads: its index's vectors and passages, its model's FAR tensors, the tables it has bound. -/
def pipeRegions (s : State) (p : Pipe) : List Nat :=
  let model := fun o => (modelByOid s o).farRegion
  let store := p.passage.toList.map Passage.region
  let tables := p.boundTables.map (fun x => (tableOf s x.2).region)
  let ix := indexOf s p.index
  match nextStage p with
  | some 1 => model p.embedModel :: tables
  | some 2 => [(tableOf s p.filter).region]
  | some 3 => [ix.fullRegion, ix.sideRegion] ++ (if ix.hybrid then store else [])
  | some 4 => model p.rerankModel :: tables ++ store
  | some 5 => store
  | some 6 => [model p.genModel, model p.draftModel] ++ tables
  | some 7 => model p.embedModel :: tables
  | _ => []

/-- The reads of a request's unit wait for a far-memory port that is being retrained (R347). -/
def slotWaits (s : State) (r : Request) : Bool :=
  let house := [s.srv.bhRegion]
  (match r.work with
   | .pipe p => pipeRegions s p ++ (if resumes s r p then house else [])
   | .rowRead o _ _ => [(tableOf s o).region]
   | .pause _ _ _ _ _ => house
   | .resume _ => house
   | _ => []).any (portWaits s)

/-- The sync objects of every crew for the units of a stroke: each logical number of each run takes the lowest object that stands for none, and the
count that it has reached (R171, R189). Which object it takes is the cox cores' choice (DESIGN CHOICE, log entry 143). -/
def mapSyncs (n : Nat) (s : State) : State :=
  match (pipeOf s n).bind Pipe.unit with
  | none => s
  | some u =>
    let count := recAt (recOf (modelByOid s u.model) u.bind.list) 12 2
    let names := (u.runs.zipIdx).flatMap (fun x => (List.range count).map (fun j => (x.2, j, sgetD x.1.sync j 0)))
    (crewList s).foldl (fun t c =>
      let crew := crewOf t c
      let free := (List.range 1024).filter (fun k => (slookup crew.syncMap k).isNone)
      setCrew t c ((free.zip names).foldl (fun (a : Crew) x =>
        { a with syncMap := sset a.syncMap x.1 (n, x.2.1, x.2.2.1), syncs := sset a.syncs x.1 x.2.2.2 }) crew)) s

/-- The unit of a request is set up. A stage that goes on from an earlier stroke keeps the unit it has. -/
def setUpUnit (n : Nat) (s : State) : State :=
  match slotOf s n, pipeOf s n with
  | some r, some p =>
    if resumes s r p then s
    else
      match nextStage p with
      | some 6 => if toPrefill p = 0 then startDecode n s else setUpPrefill n s
      | some k =>
        let s1 := beginStage n s
        if slotWaits s r ∨ p.unit.isSome ∨ p.snapTaken && k == 2 then s1
        else if k = 1 then setUpEmbed n s1
        else if k = 2 then takeSnapshot n s1
        else if k = 4 then setUpRerank n s1
        else if k = 7 then setUpGeneric n s1
        else s1
      | none => s
  | _, _ => s

/-- An admitted unit starts: its request is RUNNING. -/
def startUnit (e : UnitEst) (s : State) : State :=
  match slotOf s e.slot with
  | none => s
  | some r =>
    if deadlineMissed s r then endRequest e.slot 0x43 [] s
    else
      let s1 := setSlot s e.slot { r with
        st := .running, wait := 0, holdPages := 0, strokes := r.strokes + 1, firstAdmit := some (r.firstAdmit.getD (now s))
        endsStage := e.endsStage }
      mapSyncs e.slot (setUpUnit e.slot s1)

/-- A unit that the governor does not take counts (R308). -/
def deferUnit (n : Nat) (s : State) : State :=
  match slotOf s n with
  | some r => setSlot s n { r with deferred := r.deferred + 1 }
  | none => s

/-- The stroke that the governor's decision starts. -/
def startStroke (b : BoundaryData) (placed : List UnitEst) (s : State) : State :=
  let a := governStroke s b placed
  let out := (placed.map UnitEst.slot).filter (fun n => !(a.2.map UnitEst.slot).contains n)
  let g := s.gov
  let s1 := { s with
    gov := { g with
      mNow := a.1, estimateUj := (List.range (Config.dies s.part)).map (dieUj s b a.2 a.1)
      clockLowered := if a.1 < g.mCap then saturate 0xFFFF (g.clockLowered + 1) else g.clockLowered
      deferredCnt := if out.isEmpty then g.deferredCnt else saturate 0xFFFF (g.deferredCnt + 1) }
    srv := { s.srv with strokeNo := s.srv.strokeNo + 1, strokeSince := some (now s), admitted := a.2.map UnitEst.slot } }
  let s2 := out.foldl (fun t n => deferUnit n t) s1
  let s3 := a.2.foldl (fun t e => startUnit e t) s2
  traceWrite (traceOf s3 1 (s3.srv.strokeNo % 2 ^ 32) (a.2.length + 2 ^ 32 * a.1) 0) s3

/-- Composition may start: no stroke is in progress and nothing holds it (R440, R512). -/
def canCompose (s : State) : Bool :=
  clocksRun s && fwRunning s && s.gov.st == .active && s.srv.strokeSince.isNone
    && (s.net.shell != .restarting || !isLead s || (List.range s.net.memberCount).all s.net.readyMembers.contains)

/-- The first stroke after a restart: the shell serves again. -/
def afterRestart (s : State) : State :=
  if s.net.shell = .restarting then { s with net := { s.net with shell := if s.net.shellId = 0 then .solo else .formed } } else s

/-- A stroke is composed, admitted and started. -/
def composeStroke (b : BoundaryData) (s : State) : State :=
  let s0 := adoptEpoch (afterRestart s)
  let s1 := prepareSlots b { s0 with port := { s0.port with ageNow := s0.port.arbAge } }
  let p := placeUnits b (candidates s1) [] s1
  settleAll (startStroke b p.1 p.2)

end Sys2Proof.Machine
end

