-- ==== Sys2Proof/Machine/Slots.lean ====
section
/-!
DEFINITION. Slots of paused conversations (R321 to R329): where a slot lies, its bytes, and what PAUSE, RELEASE and RESUME do at their
commit point.
-/

namespace Sys2Proof.Machine

/-! ### The bytes of a slot (R321) -/

/-- Bytes of one page of a model. -/
def genPage (s : State) (m : Nat) : Nat := 64 * kvBytesOf (modelByOid s m) [2, 3]
def draftPage (s : State) (m : Nat) : Nat := if m = 0 then 0 else 64 * kvBytesOf (modelByOid s m) [4]

/-- The length of a slot: its 4 KiB header and the pages of each model. -/
def slotLen (s : State) (c : Conv) : Nat := 4096 + c.pages * genPageBytes s c.genModel c.draftModel

/-- Pages of n bytes each, in position order. -/
def pageRun (kv : Mem) (pages n : Nat) : List Byte := (List.range pages).flatMap (fun i => readBytes kv (i * kvSpan) n)

/-- The words of a slot that are poisoned: those of pages that stand from byte at_ of the slot. -/
def pageWords (poison : List Nat) (pages n at_ : Nat) : List Nat :=
  poison.filterMap (fun w =>
    let a := 32 * w
    if a / kvSpan < pages ∧ a % kvSpan < n then some ((at_ + a / kvSpan * n + a % kvSpan) / 32) else none)

/-- The pages that bytes of a slot hold. -/
def pagesFrom (bs : List Byte) (pages n : Nat) : Mem :=
  (List.range pages).foldl (fun m i => writeBytes m (i * kvSpan) (slice bs (i * n) n)) []

/-- The poisoned words of the pages that stand from byte at_ of a slot. -/
def wordsFrom (poison : List Nat) (pages n at_ : Nat) : List Nat :=
  poison.filterMap (fun w =>
    let a := 32 * w
    if at_ ≤ a ∧ a < at_ + pages * n then some (((a - at_) / n * kvSpan + (a - at_) % n) / 32) else none)

/-- The bytes of a conversation's slot. The manual gives the header no layout (log entry 12). -/
def slotImage (s : State) (c : Conv) : List Byte :=
  (List.range 4096).map Config.slotHeaderByte ++ pageRun c.kvGen c.pages (genPage s c.genModel)
    ++ pageRun c.kvDraft c.pages (draftPage s c.draftModel)

def slotPoison (s : State) (c : Conv) : List Nat :=
  let g := genPage s c.genModel
  pageWords c.genPoison c.pages g 4096 ++ pageWords c.draftPoison c.pages (draftPage s c.draftModel) (4096 + c.pages * g)

/-! ### Room in the boathouse (R326) -/

/-- Slots in the far-memory boathouse: number, offset and length. -/
def bhSlots (s : State) : List (Nat × Nat × Nat) :=
  (s.srv.convs.filter (fun c => c.slotBytes != 0 && c.tier == 0)).map (fun c => (c.slotNo, c.slotOff, c.slotBytes))

/-- The lowest offset at which n bytes lie free within SIZE. -/
def bhOffset (s : State) (n : Nat) : Option Nat :=
  let used := (bhSlots s).map Prod.snd
  let starts := sortBy (fun a b => decide (a < b)) (0 :: used.map (fun x => x.1 + x.2))
  starts.find? (fun o => decide (o + n ≤ s.srv.bhSize) && used.all (fun x => decide (o + n ≤ x.1) || decide (x.1 + x.2 ≤ o)))

/-- The lowest slot number below MAX_SLOTS that is free. -/
def bhNumber (s : State) : Option Nat := (List.range s.srv.bhMaxSlots).find? (fun n => !(bhSlots s).any (fun x => x.1 == n))

/-- The boathouse's region, slot number and offset for n bytes. -/
def bhPlace (s : State) (n : Nat) : Option (Nat × Nat × Nat) :=
  match bhNumber s, bhOffset s n with
  | some k, some o => if (regionOf s s.srv.bhRegion).serves then some (s.srv.bhRegion, k, o) else none
  | _, _ => none

/-! ### PAUSE (R321, R327) -/

/-- TTL_S of a PAUSE, 0 taking DEFAULT_TTL_S. -/
def ttlOf (s : State) (ttl : Nat) : Nat := if ttl = 0 then s.srv.bhTtl else ttl

/-- A command fetched after a place of the fetch order names the conversation: its fetch cancels the expiry (R328). -/
def namedLater (s : State) (c : Conv) (seq : Nat) : Bool :=
  s.srv.slots.any (fun x => x.2.fn == c.fn && convName x.2 == c.id && decide (seq < x.2.fetchSeq) && !x.2.silent)

/-- The conversation as its written slot leaves it: its pages go back to the quota. -/
def pausedConv (s : State) (c : Conv) (seq tier ttl addr no off : Nat) : Conv :=
  { c with
    st := .paused, kvGen := [], kvDraft := [], genPoison := [], draftPoison := [], tier := tier, slotNo := no, slotOff := off
    slotBytes := slotLen s c, hostAddr := addr, wroteSec := s.cal.sec, expirySec := s.cal.sec + ttlOf s ttl, expiryFrac := s.cal.frac
    expiryCancelled := namedLater s c seq }

/-- A slot written to host memory; its poisoned words go with EP set (R348, R352). -/
def writeHostSlot (addr : Nat) (c : Conv) (s : State) : State :=
  let s1 := hostWrite s addr (slotImage s c)
  { s1 with mem := { s1.mem with hostBad := s1.mem.hostBad ++ (slotPoison s c).map (fun w => (addr + 32 * w, 32)) } }

/-- The commit point of a PAUSE_CONVERSATION. -/
def commitPause (n : Nat) (r : Request) (id tier ttl addr len : Nat) (s : State) : State :=
  match convOf s r.fn id with
  | none => convGone n r id s
  | some c =>
    if c.st = .paused then
      endRequest n 0 (leBytes 8 c.slotBytes) (setConv { c with expirySec := c.wroteSec + ttlOf s ttl, expiryCancelled := namedLater s c r.fetchSeq } s)
    else
      let k := slotLen s c
      if tier = 1 then
        if len < k then failRequest n { status := 0x1A, off := 32 } s
        else endRequest n 0 (leBytes 8 k) (setConv (pausedConv s c r.fetchSeq 1 ttl addr 0 0) (writeHostSlot addr c s))
      else
        match bhPlace s k with
        | none => endRequest n 0x4B [] s
        | some (g, no, o) =>
          let s1 := regionStore s g o (slotImage s c) ((slotPoison s c).map (fun w => o / 32 + w))
          endRequest n 0 (leBytes 8 k) (setConv (pausedConv s c r.fetchSeq 0 ttl 0 no o) s1)

/-! ### Reading a slot back (R317, R324) -/

/-- The bytes of a paused conversation's slot, and its poisoned words. -/
def slotBack (s : State) (c : Conv) : (List Byte × List Nat) × State :=
  let ws := List.range (c.slotBytes / 32)
  if c.tier = 1 then
    ((readBytes s.mem.host c.hostAddr c.slotBytes,
      ws.filter (fun w =>
        (firstCovered (s.mem.hostFail ++ s.mem.hostBad) (c.hostAddr + 32 * w) (c.hostAddr + 32 * w + 32)).isSome)), s)
  else
    let g := s.srv.bhRegion
    let r := regionRead s g c.slotOff c.slotBytes
    ((r.1.1, if (regionOf s g).st = .failed then ws else ws.filter (fun w => regionPoison r.2 g (c.slotOff / 32 + w))), r.2)

/-- A conversation's pages are resident again and its slot is free. -/
def readBack (c : Conv) (st : ConvState) (s : State) : State :=
  let b := slotBack s c
  let g := genPage s c.genModel
  let d := draftPage s c.draftModel
  let at_ := 4096 + c.pages * g
  setConv { c with
    st := st, kvGen := pagesFrom (b.1.1.drop 4096) c.pages g, kvDraft := pagesFrom (b.1.1.drop at_) c.pages d
    genPoison := wordsFrom b.1.2 c.pages g 4096, draftPoison := wordsFrom b.1.2 c.pages d at_
    tier := 0, slotNo := 0, slotOff := 0, slotBytes := 0, hostAddr := 0 } b.2

/-- The commit point of a RESUME_CONVERSATION. -/
def commitResume (n : Nat) (r : Request) (id : Nat) (s : State) : State :=
  match convOf s r.fn id with
  | none => convGone n r id s
  | some c => endRequest n 0 [] (if c.st = .resuming then readBack c .open s else s)

/-- The commit point of a RELEASE. -/
def commitRelease (n : Nat) (r : Request) (id : Nat) (s : State) : State :=
  match convOf s r.fn id with
  | none => failRequest n (convFree id) s
  | some c => endRequest n 0 [] (endConv .released s c)

/-- The first unit of a request that continues a paused conversation (R317). -/
def commitBack (n : Nat) (r : Request) (p : Pipe) (s : State) : State :=
  match convOf s r.fn p.gen.conv with
  | none => s
  | some c =>
    let s1 := readBack c .active s
    match convOf s1 r.fn p.gen.conv with
    | some x => setSlot s1 n { r with st := .ready, work := .pipe (loadConv x p) }
    | none => s1

end Sys2Proof.Machine
end

