-- ==== Sys2Proof/Machine/Stages.lean ====
section
/-!
DEFINITION. The end of a pipeline stage at its commit point (R46 to R77, R135, R353): the flags and poison that a unit brings, what each
stage hands on, the sections of the output buffer, and the outputs of the standalone commands.
-/

namespace Sys2Proof.Machine

/-! ### Flags and poison of a unit (R66, R135, R353) -/

/-- Flags of the committed rows of a run: row 0, which stands for rows without SPEC, and rows 1 to a. -/
def rowsFlags (t : Sparse Nat) (a : Nat) : Nat := flagsOf ((t.filter (fun x => decide (x.1 ≤ a))).map Prod.snd)

/-- A committed flag under POLICY FAULT. -/
def unitFault (u : UnitCtx) (a : Nat) : Bool := u.runs.any (fun r => rowsFlags r.faultFlags a != 0)

/-- A committed flag under POLICY SATURATE. -/
def unitFlag (u : UnitCtx) (a : Nat) : Bool := u.runs.any (fun r => rowsFlags r.flags a != 0)

/-- Poison that the committed rows of a unit have read, row 0 and rows 1 to a: its space and address. That of rejected rows vanishes with
them (R353). -/
def unitPoison (u : UnitCtx) (a : Nat) : Option (Nat × Nat) :=
  u.runs.findSome? (fun r => (r.poisoned.find? (fun x => decide (x.1 ≤ a))).map Prod.snd)

/-- Poison in a text object that stands from a place of the text-object area; the text engine reads an object whole (log entry 134). -/
def textPoison (s : State) (place len : Nat) : Option (Nat × Nat) := (rangePoison s textRegion place len).map (placeOf s textRegion)

/-- Poison in the text objects that a stage uses: the vocabulary of TOKENIZE, DETOKENIZE and GENERATE, the grammar of GENERATE, the template
of PACK. -/
def stageText (s : State) (p : Pipe) (k : Nat) : Option (Nat × Nat) :=
  let v := vocabOf s p.vocab
  let g := grammarOf s p.grammar
  let t := templateOf s p.template
  if k = 0 ∨ k = 8 then textPoison s v.place v.len
  else if k = 5 then textPoison s t.place t.len
  else if k = 6 then (textPoison s v.place v.len).or (if p.gp.grammarEn then textPoison s g.place g.len else none)
  else none

/-- A request ends 0x61: the record names what consumed the poison (R353). -/
def endPoison (n consumer : Nat) (place : Nat × Nat) (s : State) : State :=
  match slotOf s n with
  | some r => endRequest n 0x61 [] (poisonRecord r.fn r.tag r.ring place.1 place.2 consumer s)
  | none => s

/-! ### What a list delivers (R184) -/

/-- Elements k up to n of what a list of the image should have delivered as WHAT: free values of the image, WHAT and element, so that equal
queries take equal ones (R78; log entry 123). -/
def missingWords (m : Model) (what k n : Nat) : List Word :=
  ((List.range n).drop k).map (Config.missingOutput (leNat m.buildId) what)

/-- A delivered tensor's values in FP32. -/
def emitWords (e : Emitted) : List Word :=
  e.codes.map (fun c => if e.fmt = 0 then BitVec.ofNat 32 c
    else if isIntFormat e.fmt || e.fmt == 12 then (sumFp32 (elemInt e.fmt c)).1 else (toFp32 (elemNum e.fmt c)).1)

/-- The first tensor that a run delivered as WHAT. -/
def emitOf (r : RunCtx) (what : Nat) : Option Emitted := r.emits.find? (fun e => e.what == what)

/-- Pairs of neighbouring codes. -/
def codePairs : List Nat → List (Nat × Nat)
  | a :: b :: l => (a, b) :: codePairs l
  | _ => []

/-- The sparse terms of EMIT WHAT 1: pairs of term id and FP32 weight in element order, unused pairs with id 0xFFFF_FFFF left out; at most
1,024, in ascending term id (R46; log entry 34). -/
def sparseTerms (e : Emitted) : List (Nat × Word) :=
  let ts := ((codePairs e.codes).map (fun x => (x.1 % 2 ^ 32, BitVec.ofNat 32 x.2))).filter (fun x => x.1 != 0xFFFFFFFF)
  sortBy (fun a b => decide (a.1 < b.1)) (ts.take 1024)

/-- The codes of a tensor packed in its own format, 4-bit codes two to a byte. -/
def packCodes (fmt : Nat) (cs : List Nat) : List Byte :=
  if elemBits fmt = 4 then pack4 cs else cs.flatMap (leBytes (elemBits fmt / 8))

/-! ### Sections of the output buffer (R70 to R74) -/

/-- A result-list entry (R71). -/
def candBytes (c : Cand) : List Byte := leBytes 6 c.id ++ leBytes 2 0 ++ leBytes 4 c.score.toNat ++ leBytes 1 c.kind ++ leBytes 3 0

/-- The result list, the packed prompt and the span map are written (R74). -/
def writeSections (p : Pipe) (s : State) : State :=
  let promptAt := 128 + c64 (16 * p.results.length)
  let spanAt := promptAt + c64 (4 * p.prompt.length)
  let s1 := hostWrite s (p.outAddr + 128) (p.results.flatMap candBytes)
  if p.stages.contains 5 then
    hostWrite (hostWrite s1 (p.outAddr + promptAt) (wordsOf p.prompt)) (p.outAddr + spanAt) (p.spanMap.flatMap spanBytes)
  else s1

/-- The last front-end stage has ended: its results stand, LATE is judged, and the sections are written (R50, R71, R74). -/
def finishFront (n : Nat) (r : Request) (p : Pipe) (s : State) : State :=
  let p1 := { p with
    results := p.cands.take p.returnK, frontWritten := true
    late := p.deadlineUs != 0 && decide (r.tFetch + 1000 * p.deadlineUs < now s) }
  writeSections p1 (setPipe n p1 s)

/-- A stage ends: the next one is due, the front end is over, or the request is. A prompt that leaves nothing to prefill generates
nothing. -/
def afterStage (n k : Nat) (p0 : Pipe) (result : List Byte) (s : State) : State :=
  match slotOf s n with
  | none => s
  | some r =>
    let p := endStage r k (now s) { keepSyncs p0 with unit := none }
    let s1 := setSlot s n { r with st := .ready, work := .pipe p }
    match nextStage p with
    | some 6 =>
      let s2 := finishFront n r p s1
      if toPrefill p = 0 then endRequest n (successStatus p) [] s2 else s2
    | some _ => s1
    | none => endRequest n (successStatus p) result (if reports r.opcode then finishFront n r p s1 else s1)

/-! ### The stages -/

/-- The tokens of a TOKENIZE with the bytes each consumes: those of its walker, and those from its position on (R92). -/
def walkTokens (v : Vocab) (p : Pipe) : List (Nat × Nat) :=
  let rest := p.text.drop p.walkPos
  p.walked ++ tokenisePairs v rest.length rest

/-- A walker at the end of a stroke with input left records its position: how far it has come is timing, a free value (R92, R115; log entry 146). -/
def walkOn (n : Nat) (p : Pipe) (s : State) : State :=
  let rest := p.text.drop p.walkPos
  let t := takeFree s
  let new := (tokenisePairs (vocabOf s p.vocab) rest.length rest).take ((Config.freeValue t.1).toNat % (rest.length + 1))
  setPipe n { p with walked := p.walked ++ new, walkPos := p.walkPos + (new.map Prod.snd).sum } t.2

/-- TOKENIZE in a QUERY, and the standalone command (R93). -/
def endTokenize (n : Nat) (r : Request) (p : Pipe) (s : State) : State :=
  let v := vocabOf s p.vocab
  if r.opcode = 0x27 then
    let ts := walkTokens v p
    let kept := ts.take (p.outLen / 4)
    afterStage n 0 { p with truncated := decide (kept.length < ts.length) }
      (leBytes 4 kept.length ++ leBytes 4 ((kept.map Prod.snd).sum)) (hostWrite s p.outAddr (wordsOf (kept.map Prod.fst)))
  else afterStage n 0 { p with tokens := (walkTokens v p).map Prod.fst } [] s

/-- EMBED: D dense values and the sparse terms (R46, R392). Values that the list does not deliver are free values. -/
def endEmbed (n : Nat) (r : Request) (p : Pipe) (u : UnitCtx) (s : State) : State :=
  let run := u.runs.headD {}
  let d := u.bind.outDim
  let got := (((emitOf run 0).map emitWords).getD []).take d
  let dense := got ++ missingWords (modelByOid s u.model) 0 got.length d
  let terms := if u.bind.sparseHead = 1 then ((emitOf run 1).map sparseTerms).getD [] else []
  let p1 := { p with dense := dense, sparse := terms, work := run.work }
  if r.opcode = 0x21 then
    let fit := terms.take ((p.outLen - 4 * d) / 8)
    let out := wordsOf (dense.map BitVec.toNat) ++ fit.flatMap (fun t => leBytes 4 t.1 ++ leBytes 4 t.2.toNat)
    afterStage n 1 p1 (leBytes 4 d ++ leBytes 4 fit.length ++ leBytes 4 p.queryTokens) (hostWrite s p.outAddr (out.take p.outLen))
  else afterStage n 1 p1 [] s

/-- Poison that a SEARCH reads: in its index's near sections, or in the filter's rows. -/
def searchBad (s0 : State) (p : Pipe) : Option (Nat × Nat) :=
  let ix := indexOf s0 p.index
  let parts := (probedParts ix p.sp (prepareQuery ix.metric p.dense)).2
  (searchPoison s0 ix p.snapshot parts).or
    (if p.sp.filterTable = 0xFFFF then none
     else (filterRows ix p.snapshot parts).findSome? (rowPoison s0 (tableOf s0 p.filter)))

/-- SEARCH (R216): the filter and the index as they stood before this commit point. -/
def endSearch (s0 : State) (n : Nat) (p : Pipe) (s : State) : State :=
  match searchBad s0 p with
  | some x => endPoison n 2 x s
  | none =>
    let l := searchList (indexOf s p.index) p.snapshot s.net.pkgNum p.searchK p.sp (allowedBy s0 p) p.dense
    let used := confirmedTiles s p l.1
    afterStage n 2
      { p with
        cands := l.1, truncated := p.truncated || decide (l.1.length < p.searchK), arith := p.arith || l.2 != 0
        prefetchUsed := used, provisional := false } []
      (countPrefetch 0 used s)

/-- REFINE (R218 to R222): each candidate's full vector is read, and for a HYBRID index its passage. -/
def endRefine (n : Nat) (p : Pipe) (s : State) : State :=
  let ix := indexOf s p.index
  let ids := p.cands.map Cand.id
  let vs := takeVectors n ix p.snapshot ids s
  let ps := if ix.hybrid then takePassages n ids vs.2 else ([], vs.2)
  let of_ := fun {α : Type} (l : List (Nat × List α)) (gid : Nat) => (l.find? (fun x => x.1 == gid)).elim [] Prod.snd
  let p1 := (pipeOf ps.2 n).getD p
  match p1.poisonAt with
  | some x => endPoison n 2 x ps.2
  | none =>
    let l := refineList ix p.snapshot p.refineK (of_ vs.1) p.sp p.sparse (of_ (ids.zip ps.1)) p.dense p.cands
    afterStage n 3 { p1 with cands := l.1, arith := p.arith || l.2 != 0 } [] ps.2

/-- The score of run i of a RERANK unit; one that the list does not deliver is a free value (log entry 123). -/
def rerankScore (m : Model) (i : Nat) (r : RunCtx) : Word :=
  (((emitOf r 2).map emitWords).bind List.head?).getD (Config.missingOutput (leNat m.buildId) 2 i)

/-- RERANK (R262): the first n_used candidates by cross-encoder score, then the rest as they came. -/
def endRerank (n : Nat) (p : Pipe) (u : UnitCtx) (s : State) : State :=
  let sc := (u.runs.zipIdx).map (fun x => rerankScore (modelByOid s u.model) x.2 x.1)
  let top := ((p.cands.take p.nUsed).zip sc).map (fun x => { x.1 with score := x.2, kind := 2 })
  afterStage n 4 { p with cands := rerankOrder top ++ p.cands.drop p.nUsed } [] s

/-- PACK (R268 to R272). Only the passages that the walk reaches are read (R256). -/
def endPack (n : Nat) (p : Pipe) (s : State) : State :=
  let all := (p.cands.take p.returnK).map Cand.id
  let t := templateOf s p.template
  let ids := all.take (packReads t p.packTokens p.tokens.length (all.zip (takePassages n all s).1))
  let ps := takePassages n ids s
  let p1 := (pipeOf ps.2 n).getD p
  match p1.poisonAt with
  | some x => endPoison n 3 x ps.2
  | none =>
    let k := packPrompt t p.packTokens p.tokens (ids.zip ps.1)
    afterStage n 5 { p1 with prompt := k.prompt, spanMap := k.spans, truncated := p.truncated || k.truncated } [] ps.2

/-- RUN_OPLIST: the tensors its list delivered, in the order of their records (log entry 35). -/
def endGeneric (n : Nat) (p : Pipe) (u : UnitCtx) (s : State) : State :=
  let run := u.runs.headD {}
  let out := (sortBy (fun a b => decide (a.record < b.record)) run.emits).flatMap (fun e => packCodes e.fmt e.codes)
  afterStage n 7 { p with emits := run.emits } [] (hostWrite s p.outAddr (out.take p.outLen))

/-- The standalone DETOKENIZE (R100). -/
def endDetokenize (n : Nat) (p : Pipe) (s : State) : State :=
  let r := detokeniseInto (vocabOf s p.vocab) p.renderSpecial p.outLen p.tokens (0, [], [])
  let out := r.2.1 ++ r.2.2
  afterStage n 8 { p with truncated := decide (r.1 < p.tokens.length) }
    (leBytes 4 r.1 ++ leBytes 4 out.length ++ leBytes 1 (bit !r.2.2.isEmpty)) (hostWrite s p.outAddr out)

/-- The commit point of the unit that ends stage k. s0 is the package before this commit point's changes. -/
def stageEnds (s0 : State) (n k : Nat) (r : Request) (p : Pipe) (s : State) : State :=
  match k, p.unit with
  | 0, _ => endTokenize n r p s
  | 1, some u => endEmbed n r p u s
  | 2, _ => endSearch s0 n p s
  | 3, _ => endRefine n p s
  | 4, some u => endRerank n p u s
  | 5, _ => endPack n p s
  | 7, some u => endGeneric n p u s
  | 8, _ => endDetokenize n p s
  | _, _ => s

end Sys2Proof.Machine
end

