-- ==== Sys2Proof/Machine/Stream.lean ====
section
/-!
DEFINITION. The commit point of a generating unit (R277 to R295, R305): the tokens it commits, the KV pages, the grammar configuration and
the held bytes that advance with them, and the chunks of the token stream.
-/

namespace Sys2Proof.Machine

/-! ### The token stream (R291 to R293, R402) -/

/-- A stream vector is raised for a chunk, or waits for the end of its window (R402). -/
def raiseStream (r : Request) (v : Nat) (s : State) : State :=
  let k := 32 * r.fn + v
  let window := 1000 * (ringOf s (cqOf s ⟨r.fn, r.ring⟩)).modTime
  match slookup s.port.streamAt k with
  | some t =>
    if now s - t < window then
      { s with port := { s.port with streamDue := if s.port.streamDue.contains k then s.port.streamDue else s.port.streamDue ++ [k] } }
    else raiseMsix r.fn v { s with port := { s.port with
      streamAt := sset s.port.streamAt k (now s), streamDue := s.port.streamDue.filter (· != k) } }
  | none => raiseMsix r.fn v { s with port := { s.port with streamAt := sset s.port.streamAt k (now s) } }

/-- A chunk is written, after a PAD chunk where it would cross the end of the ring, and the header's PRODUCER with it. -/
def writeChunk (n : Nat) (c : Chunk) (s : State) : State :=
  match slotOf s n, pipeOf s n with
  | some r, some p =>
    let g := p.gp
    let at_ := p.gen.producer % g.streamLen
    let size := (chunkBytes c).length
    let pad := if g.streamLen < at_ + size then g.streamLen - at_ else 0
    let c1 := { c with seq := if pad = 0 then p.gen.seq else p.gen.seq + 1 }
    let s1 := if pad = 0 then s else hostWrite s (g.streamAddr + at_) (padChunk { c with seq := p.gen.seq } pad)
    let producer := p.gen.producer + pad + size
    let s2 := hostWrite s1 (g.streamAddr + (p.gen.producer + pad) % g.streamLen) (chunkBytes c1)
    let s3 := hostWrite s2 g.hdrAddr (leBytes 8 producer)
    let s4 := setPipe n { p with gen := { p.gen with producer := producer, seq := c1.seq + 1 } } s3
    if g.streamVector = 0xFFFF then s4 else raiseStream r g.streamVector s4
  | _, _ => s

/-! ### Committed state -/

/-- The committed pages with the shadow rows of the committed drafts copied into them (R287). -/
def commitKv (m : Model) (run : RunCtx) (a : Nat) : Mem :=
  ((run.kvShadow.filter (fun x => decide (x.1 ≤ a))).foldl (fun r x => putCode m r x.2.1 x.2.2.1 x.2.2.2) { run with kv := run.kvBase }).kv

/-- The working space that a commit point keeps: what the run wrote for rows without SPEC and for the committed drafts, in the order it wrote it, over
what it began with. Values of rejected rows, and of tensors that are speculative as a whole, are discarded (R66, R544). -/
def commitWork (run : RunCtx) (a : Nat) : Mem :=
  if run.k = 0 then run.work
  else (run.written.filter (fun w => decide (w.row ≤ a))).foldl (fun mem w => writeCode mem (w.addr, w.bit) w.bits w.code) run.workBase

/-- A configuration advanced by committed tokens (R113). -/
def advanceAll (g : Grammar) (v : Vocab) (c : Option GConfig) (ts : List Nat) : Option GConfig :=
  ts.foldl (fun x t => x.bind (fun y => advanceToken g v y t)) c

/-- What a generating unit commits: its tokens with their END_REASON, the drafts accepted, the configuration after them and whether its mask
is empty, and the bytes released and held (R285 to R289). -/
structure Committed where
  tokens : List Nat
  reason : Nat
  accepted : Nat
  grammar : Option GConfig
  dead : Bool
  released : List Byte
  held : List Byte
  deriving DecidableEq, Repr

def committedOf (s : State) (p : Pipe) (u : UnitCtx) (ver : Nat × Option Nat) : Committed :=
  let v := vocabOf s p.vocab
  let g := p.gen
  let c := commitTokens p.gp v.eos (u.drafts.take ver.1 ++ ver.2.toList) g.count g.ctx.length
  let gram := grammarOf s p.grammar
  let conf := advanceAll gram v g.grammar c.1
  let d := detokenise v p.gp.renderSpecial c.1 g.held
  { tokens := c.1, reason := c.2, accepted := min ver.1 c.1.length, grammar := conf
    dead := p.gp.grammarEn && c.2 == 0 && conf.elim true (deadEnd gram v), released := d.1, held := d.2 }

/-- The drafts' shadow pages of the draft model become committed as far as they were accepted (R283, R287). -/
def draftAfter (g : GenState) (u : UnitCtx) (accepted : Nat) : Mem × Nat :=
  match u.draftKv with
  | [] => (g.kvDraft, g.draftSeen)
  | kvs =>
    let i := min accepted (kvs.length - 1)
    (kvs.getD i [], g.ctx.length + i)

/-- The generation state after a commit point that commits tokens (R288, R305). -/
def genAfter (p : Pipe) (u : UnitCtx) (m : Model) (run : RunCtx) (c : Committed) (time : Nat) : GenState :=
  let g := p.gen
  let d := draftAfter g u c.accepted
  let gap := g.lastCommit.elim 0 (fun t => time - t)
  let keep := p.gp.cont && c.reason == 3
  { g with
    ctx := g.ctx ++ c.tokens
    prefilled := g.ctx.length + c.accepted
    count := g.count + c.tokens.length, total := g.total + c.tokens.length
    kvGen := commitKv m run c.accepted, kvDraft := d.1, draftSeen := d.2
    grammar := if c.reason = 0 || keep then c.grammar else none
    held := if c.reason = 0 || keep then c.held else []
    lastCommit := some time, firstAt := g.firstAt.or (some time)
    tbtMaxNs := max g.tbtMaxNs gap
    tbtMisses := if p.gp.tbtUs ≠ 0 ∧ 1000 * p.gp.tbtUs < gap then g.tbtMisses + 1 else g.tbtMisses
    endReason := if c.dead then 5 else c.reason
    proposed := g.proposed + u.proposed, accepted := g.accepted + c.accepted }

/-- The chunk of a commit point (R292, R293, R295). -/
def tokenChunk (r : Request) (p : Pipe) (g : GenState) (c : Committed) (time : Nat) : Chunk :=
  let ends := c.reason != 0
  let flush := ends && !(p.gp.cont && c.reason == 3)
  { seq := 0, tag := r.tag, index := p.gen.count, tokens := c.tokens
    text := if flush then c.released ++ c.held else c.released
    first := p.gen.count == 0, last := ends, partialUtf8 := flush && !c.held.isEmpty, endReason := c.reason, time := time
    proposed := if ends then g.proposed else 0, accepted := if ends then g.accepted else 0, conv := p.gp.convId }

/-- The LAST chunk of a dead end: no token, and so not generated token 0, and the bytes held (R292, R295). -/
def deadChunk (r : Request) (p : Pipe) (g : GenState) (time : Nat) : Chunk :=
  { seq := 0, tag := r.tag, index := g.count, tokens := [], text := g.held, first := false, last := true
    partialUtf8 := !g.held.isEmpty, endReason := 5, time := time, proposed := g.proposed, accepted := g.accepted, conv := p.gp.convId }

/-- STAGE_END[6]: ns to the posting of the first chunk (R72). -/
def firstEnd (r : Request) (p : Pipe) (time : Nat) : List Nat :=
  if p.gen.count = 0 then
    (if p.stageEnd.isEmpty then List.replicate 7 0xFFFFFFFF else p.stageEnd).set 6 (min (time - r.tFetch) 0xFFFFFFFE)
  else p.stageEnd

/-- The request ends 0x42 with its LAST chunk (R111, R295). -/
def endDead (n : Nat) (s : State) : State :=
  match slotOf s n, pipeOf s n with
  | some r, some p =>
    let s1 := writeChunk n (deadChunk r p p.gen (now s)) s
    let p1 := (pipeOf s1 n).getD p
    let p2 := { p1 with gen := { p1.gen with held := [], grammar := none, endReason := 5 } }
    endRequest n 0x42 [] (saveConv r.fn p2 (setPipe n p2 s1))
  | _, _ => s

/-- The tokens of a unit are committed and delivered, and generation ends where they say so (R286, R288, R290, R293). -/
def deliverTokens (n : Nat) (u : UnitCtx) (c : Committed) (s : State) : State :=
  match slotOf s n, pipeOf s n with
  | some r, some p =>
    let run := u.runs.headD {}
    let g := genAfter p u (modelByOid s u.model) run c (now s)
    let p1 := { keepSyncs p with
      gen := g, unit := none, work := commitWork run c.accepted, arith := p.arith || unitFlag u c.accepted, stageEnd := firstEnd r p (now s)
      truncated := p.truncated || c.reason == 4, lastStage := if c.reason = 0 then p.lastStage else 6 }
    let s1 := { s with trace := { s.trace with
      draftsProposed := saturate (2 ^ 64 - 1) (s.trace.draftsProposed + u.proposed)
      draftsAccepted := saturate (2 ^ 64 - 1) (s.trace.draftsAccepted + c.accepted) } }
    let s2 := writeChunk n (tokenChunk r p g c (now s)) (setSlot s1 n { r with st := .ready, work := .pipe p1 })
    let s3 := saveConv r.fn ((pipeOf s2 n).getD p1) s2
    if c.reason ≠ 0 then endRequest n (successStatus p1) [] s3 else if c.dead then endDead n s3 else s3
  | _, _ => s

/-- A unit that gave no token: its mask was empty, or no allowed token had a finite logit (R111, R280). -/
def noToken (n : Nat) (p : Pipe) (s : State) : State :=
  let empty := p.gp.grammarEn && p.gen.grammar.elim true (deadEnd (grammarOf s p.grammar) (vocabOf s p.vocab))
  if empty then endDead n s else endRequest n 0x41 [] s

/-- The drafts accepted and the token after them, as VERIFY left them. -/
def verdictOf (u : UnitCtx) : Nat × Option Nat := ((u.runs.head?).bind RunCtx.verified).getD (0, none)

/-- Poisoned words of pages that a unit reads: the near address of a page is the placement's (R353; log entry 17). -/
def kvPoison (p : Pipe) (u : UnitCtx) (accepted : Nat) (s : State) : Option (Nat × Nat) × State :=
  if !p.gen.genPoison.isEmpty || (!p.gen.draftPoison.isEmpty && !u.draftKv.isEmpty && accepted != 0) then
    let t := takeFree s
    (some (1, (Config.freeValue t.1).toNat), t.2)
  else (none, s)

/-- The commit point of a prefill chunk or of a decode step. -/
def commitGen (s0 : State) (n : Nat) (p : Pipe) (u : UnitCtx) (s : State) : State :=
  let ver := verdictOf u
  let last := u.stage == 3 || decide (p.gen.ctx.length ≤ p.gen.prefilled + u.chunk)
  let c := committedOf s p u (if last then ver else (0, none))
  let kp := kvPoison p u c.accepted s
  match ((unitPoison u c.accepted).or kp.1).or (stageText s0 p 6) with
  | some x => endPoison n 1 x kp.2
  | none =>
    if unitFault u c.accepted then endRequest n 0x41 [] s
    else if !last then
      let run := u.runs.headD {}
      match slotOf s n with
      | some r =>
        setSlot s n { r with
          st := .ready
          work := .pipe { keepSyncs p with
            unit := none, work := commitWork run 0, arith := p.arith || unitFlag u 0
            gen := { p.gen with prefilled := p.gen.prefilled + u.chunk, kvGen := run.kvBase } } }
      | none => s
    else if c.tokens.isEmpty then noToken n p s
    else deliverTokens n u c s

end Sys2Proof.Machine
end

