-- ==== Sys2Proof/Machine/Commit.lean ====
section
/-!
DEFINITION. The commit point of a stroke (R63, R135, R288, R301, R390): what each request's unit commits, the installing commands, the
governor's correction (R447) and the check samples (R465, R466), and the rows of the serving loop.
-/

namespace Sys2Proof.Machine

/-! ### Commands that change objects (R225 to R231, R373 to R377) -/

/-- The result of an installing command. -/
def installResult (i : Install) (s : State) : List Byte :=
  match i with
  | .model _ => leBytes 2 s.obj.lastHandle
  | .index _ (some ix) => leBytes 8 ix.epoch
  | _ => []

/-- A boathouse that has become busy since the fetch keeps its REGION, SIZE and MAX_SLOTS (R326). -/
def commitInstall (n : Nat) (i : Install) (s : State) : State :=
  let s1 := applyInstall i s
  match i with
  | .boathouse g _ size slots =>
    if boathouseBusy s g size slots then failRequest n { status := 0x1D, block := 3 } s else endRequest n 0 (installResult i s1) s1
  | _ => endRequest n 0 (installResult i s1) s1

/-- INDEX_MERGE (R229, R231). -/
def commitMerge (n o upTo : Nat) (s : State) : State :=
  let ix := indexOf s o
  if nearRoom s < mergeNeed ix (min upTo ix.side.length) then failRequest n { status := 0x1C } s
  else endRequest n 0 (leBytes 8 (ix.epoch + 1)) (installMerge o upTo s)

/-- Items inserted in order over the live ids: how many replace one that is live (R226). -/
def countReplaced : List Nat → List IxItem → Nat
  | _, [] => 0
  | live, it :: its => (if live.contains it.id then 1 else 0) + countReplaced (it.id :: live) its

/-- The code and the vector of an inserted item pass through the write buffer on the way to its slot (R227, R355). -/
def publishItem (ix : Index) (s : State) (x : IxItem × List Byte × Nat) : State :=
  publishBytes ix.sideRegion (x.2.2 * ix.vec) x.2.1 (publishBytes ix.nearRegion (sideCodeAt ix + x.2.2 * ix.code) x.1.code s)

/-- The byte of the deletion state that holds an id's bit: a bit is 1 for an id that some item has had and that is not live (R210). -/
def deletionByte (ix : Index) (id : Nat) : Byte :=
  let live := liveItems ix ix.side.length
  let had := ix.items.map IxItem.id ++ ix.side.filterMap (fun e => match e with | .insert it => some it.id | .delete _ => none)
  BitVec.ofNat 8 (((List.range 8).map (fun i =>
    let k := id / 8 * 8 + i
    if had.contains k && !live.any (fun it => it.id == k) then 2 ^ i else 0)).sum)

/-- INDEX_INSERT (R225 to R228). -/
def commitInsert (n o : Nat) (items : List (IxItem × List Byte)) (s : State) : State :=
  let ix := indexOf s o
  if sideLimit < ix.side.length + items.length then endRequest n 0x45 [] s
  else
    let live := (liveItems ix ix.side.length).map IxItem.id
    let used := (s.obj.indexes.filter (fun x => x.sideRegion == ix.sideRegion)).flatMap usedSlots
    let slots := freeSlots used (used.length + items.length) items.length 0
    let put := (items.zip slots).map (fun x => ({ x.1.1 with loc := .side x.2 }, x.1.2, x.2))
    endRequest n 0 (leBytes 4 items.length ++ leBytes 4 (countReplaced live (items.map Prod.fst)))
      (setIndex { ix with side := ix.side ++ put.map (fun x => SideEntry.insert x.1) } (put.foldl (publishItem ix) s))

/-- INDEX_DELETE. -/
def commitDelete (n o : Nat) (ids : List Nat) (s : State) : State :=
  let ix := indexOf s o
  let d := applyDeletes (liveItems ix ix.side.length) ids
  if sideLimit < ix.side.length + d.1.length then endRequest n 0x45 [] s
  else
    let ix1 := { ix with side := ix.side ++ d.1 }
    endRequest n 0 (leBytes 4 d.2.1 ++ leBytes 4 d.2.2) (setIndex ix1
      (ids.foldl (fun t id => publishBytes ix.nearRegion (deletionAt ix + id / 8) [deletionByte ix1 id] t) s))

/-- TABLE_ROW_WRITE: all rows at once, published through the write buffer (R355, R374). -/
def commitRowWrite (n o : Nat) (rows : List (Nat × List Byte)) (s : State) : State :=
  let t := tableOf s o
  endRequest n 0 [] (rows.foldl (fun u x => publishBytes t.region (rowAt t x.1) x.2 u) s)

/-- TABLE_ROW_READ: the rows as they stood before this commit point (R375, R377). -/
def commitRowRead (s0 : State) (n o : Nat) (rows : List Nat) (out : Nat) (s : State) : State :=
  let t := tableOf s0 o
  let s1 := rows.foldl (fun u r => touchRow t r u) s
  match rows.findSome? (rowPoison s0 t) with
  | some x => endPoison n 4 x s1
  | none => endRequest n 0 [] (hostWrite s1 out (rows.flatMap (rowBytesOf s0 0 t)))

/-! ### One request (R301, R302) -/

/-- A unit that goes on in a later stroke; the records it ran in this one are counted (R465). -/
def countedRuns (w : Work) : Work :=
  match w with
  | .pipe p => .pipe { p with unit := p.unit.map (fun u => { u with runs := u.runs.map (fun c => { c with ran := [] }) }) }
  | x => x

/-- The unit of a request that goes on: the request is READY again, and its stage with it. Flags that its committed rows have raised under SATURATE
reach the request at this commit point (R135). -/
def keepUnit (n : Nat) (r : Request) (s : State) : State :=
  let w := match r.work with
    | .pipe p => .pipe { p with arith := p.arith || p.unit.any (fun u => unitFlag u 0) }
    | x => x
  setSlot s n { r with st := .ready, work := countedRuns w }

/-- The commit point of a pipeline unit. Poison read and flags under FAULT end the request whether or not the unit ends its stage. -/
def commitPipe (s0 : State) (n : Nat) (r : Request) (p : Pipe) (s : State) : State :=
  if resumes s r p then commitBack n r p s
  else
    match nextStage p, p.unit with
    | some 6, some u => commitGen s0 n p u s
    | some k, unit =>
      match ((unit.bind (fun u => unitPoison u 0)).or p.poisonAt).or (stageText s0 p k) with
      | some x => endPoison n 1 x s
      | none =>
        if unit.any (fun u => unitFault u 0) then endRequest n 0x41 [] s
        else if r.endsStage then stageEnds s0 n k r { p with arith := p.arith || unit.any (fun u => unitFlag u 0) } s
        else
          let s1 := keepUnit n r s
          if k = 0 then (match pipeOf s1 n with | some q => walkOn n q s1 | none => s1) else s1
    | none, _ => s

/-- The commit point of a RUNNING request. One whose reads wait for a far-memory port goes on in a later stroke (R347). -/
def commitUnit (s0 : State) (n : Nat) (r : Request) (s : State) : State :=
  if slotWaits s0 r then keepUnit n r s
  else
  match r.work with
  | .pipe p => commitPipe s0 n r p s
  | .install i => if r.endsStage then commitInstall n i s else keepUnit n r s
  | .merge o k => if r.endsStage then commitMerge n o k s else keepUnit n r s
  | .insert o xs => if r.endsStage then commitInsert n o xs s else keepUnit n r s
  | .delete o xs => if r.endsStage then commitDelete n o xs s else keepUnit n r s
  | .rowWrite o xs => if r.endsStage then commitRowWrite n o xs s else keepUnit n r s
  | .rowRead o xs out => if r.endsStage then commitRowRead s0 n o xs out s else keepUnit n r s
  | .pause id tier ttl addr len => if r.endsStage then commitPause n r id tier ttl addr len s else keepUnit n r s
  | .release id => if r.endsStage then commitRelease n r id s else keepUnit n r s
  | .resume id => if r.endsStage then commitResume n r id s else keepUnit n r s
  | .power _ => s
  | .shellJoin => s
  | .shellEnd => s
  | .activate _ => s

/-- A stroke that a request has waited for a KV page (R310). -/
def countHold (n : Nat) (r : Request) (s : State) : State :=
  if r.st = .waiting ∧ r.wait = 3 then setSlot s n { r with holdPages := r.holdPages + 1 } else s

/-- What a commit point does to the request in a slot: an aborted one ends, one whose end was decided ends with its status, and a RUNNING
one commits its unit. -/
def commitSlot (s0 : State) (n : Nat) (s : State) : State :=
  match slotOf s n with
  | none => s
  | some r0 =>
    let s1 := settleHolds r0.fetchSeq s.srv.holds.length s
    if r0.aborted || r0.silent then endRequest n 0x80 [] s1
    else if r0.st = .ending then endRequest n r0.status [] s1
    else if r0.st = .running then commitUnit s0 n r0 s1
    else countHold n r0 s1

/-! ### The governor (R447) -/

/-- corr[d] after a stroke that measured e µJ on die d. -/
def nextCorr (old estimated : Rat) (e : Nat) : Rat :=
  if estimated ≤ 0 then old
  else
    let c := old + ((e : Rat) / estimated - old) / 16
    min (max c (4 / 5)) (8 / 5)

/-- The correction factors of every die. -/
def updateCorr (measured : List Nat) (s : State) : State :=
  { s with gov := { s.gov with
      corr := (List.range (Config.dies s.part)).foldl (fun c d =>
        sset c d (nextCorr (sgetD c d 1) (s.gov.estimateUj.getD d 0) (measured.getD d 0))) s.gov.corr } }

/-! ### Check samples (R465, R466) -/

/-- An operation instance that may be sampled: a 64-column output tile of a MATMUL or EXPERT_MATMUL, or a launch. -/
structure OpInstance where
  slot : Nat
  run : Nat
  index : Nat
  core : Nat
  tile : Option Nat
  deriving DecidableEq, Repr

/-- The core of a 64-column tile: of SPLIT_N weights, tile c lies on compute die c mod D (R197), and a core there runs it. -/
def tileCore (s : State) (m : Model) (w : BitVec 256) (core t : Nat) : Nat :=
  if (recReads w).any (fun n => (descOf m n).cls == 0 && (descOf m n).placement == 1) then
    let k := 9 * dieCrews s
    (((List.range k).map (k * (t % Config.dies s.part) + ·)).find? (coreServes s)).getD core
  else core

/-- The instances of one record that a core ran. -/
def recInstances (s : State) (m : Model) (slot run : Nat) (x : Nat × Nat) : List OpInstance :=
  let w := recOf m x.1
  if recOp w = 0x10 ∨ recOp w = 0x12 then
    (List.range (ceilDiv ((descOf m (recAt w 10 2)).e 1) 64)).map (fun t => ⟨slot, run, x.1, tileCore s m w x.2 t, some t⟩)
  else if recOp w = 0x20 ∨ recOp w = 0x21 then [⟨slot, run, x.1, x.2, none⟩]
  else []

/-- The committed instances of the stroke, in slot and run order. -/
def strokeInstances (s : State) : List OpInstance :=
  s.srv.slots.flatMap (fun x =>
    match x.2.work with
    | .pipe p =>
      match p.unit with
      | some u =>
        if x.2.st = .running ∧ x.2.aborted = false then
          (u.runs.zipIdx).flatMap (fun y => y.1.ran.flatMap (recInstances s (modelByOid s u.model) x.1 y.2))
        else []
      | none => []
    | _ => [])

/-- Output bytes of an instance, one 64-bit word for each element it wrote. -/
def sampleOut (m : Model) (c : RunCtx) (o : OpInstance) : Mem :=
  (((recWrites (recOf m o.index)).flatMap (fun n =>
    ((allIndices (descOf m n)).filter (fun ix => o.tile.elim true (fun t => ixAt ix 0 / 64 == t))).map (elemCode m c n))).zipIdx).foldl
      (fun mem x => writeBytes mem (8 * x.2) (leBytes 8 x.1)) []

/-- Bytes of the check buffer that an instance takes: its inputs and outputs, and a byte of flags for each of nine rows. -/
def sampleSize (m : Model) (o : OpInstance) : Nat :=
  let w := recOf m o.index
  ((recReads w ++ recWrites w).map (fun n => inputBytes (descOf m n))).sum + 9

/-- A sample is copied into the check buffer of 256 MiB; a full buffer skips it (R466). -/
def captureSample (o : OpInstance) (s : State) : State :=
  match (slotOf s o.slot).bind (fun q => (unitRun q o.run).map (fun u => (q, u))) with
  | none => s
  | some (q, u, c) =>
    let m := modelByOid s u.model
    let k := sampleSize m o
    if 2 ^ 28 < (s.flt.samples.map Sample.bytes).sum + k then s
    else
      { s with flt := { s.flt with
          nextSample := s.flt.nextSample + 1
          samples := s.flt.samples ++
            [{ id := s.flt.nextSample, core := o.core, slot := o.slot, fn := q.fn, tag := q.tag, ring := q.ring, model := u.model
               recIdx := o.index, outputs := sampleOut m c o, bytes := k, takenAt := now s, checker := none, rowsDiffer := [] }] } }

/-- The i-th of the instances counted from 0 is one of rate in every 65,536. -/
def rateTakes (rate i : Nat) : Bool := (i + 1) * rate / 65536 != i * rate / 65536

/-- An instance is counted, and sampled by REPEAT_RATE, by its core's WATCH_RATE while it is in WATCH, or where its crew has had no sample
for a second (R465). -/
def countInstance (o : OpInstance) (s : State) : State :=
  let c := crewOf s (o.core / 9)
  let k := o.core % 9
  let watched := hasBit c.watch k
  let count := sgetD c.instances k 0 + 1
  let rate := fieldOf s.flt.ctl 47 40
  let byRepeat := rateTakes (fieldOf s.flt.ctl 63 48) s.flt.instances
  let byWatch := watched && rate != 0 && decide (rate ≤ count)
  let bySecond := decide (c.sampledAt + 1000000000 ≤ now s)
  let takes := byRepeat || byWatch || bySecond
  let s1 := setCrew { s with flt := { s.flt with instances := (s.flt.instances + 1) % 65536 } } (o.core / 9)
    { c with
      instances := if watched then sset c.instances k (if byWatch then 0 else count) else serase c.instances k
      sampledAt := if takes then now s else c.sampledAt }
  if takes then captureSample o s1 else s1

/-! ### The commit point -/

/-- Every record of the stroke's units runs that has not run yet (R189, R302). -/
def runStroke (s : State) : State :=
  s.srv.admitted.foldl (fun t n => if (slotOf t n).any (fun r => r.st == .running && !slotWaits t r) then runUnit n t else t) s

/-- A unit that must be whole at this commit point is not: a WAIT is open, or another member's part has not come (R173). -/
def strokeOpen (s : State) : Bool :=
  s.srv.slots.any (fun x =>
    x.2.st == .running && !x.2.aborted && !x.2.silent && !unitDone s x.1
      && (x.2.endsStage || (match x.2.work with | .pipe p => nextStage p == some 6 | _ => false)))

/-- SHELL_END commands complete, and the shell ends (R442). -/
def commitShellEnd (s : State) : State :=
  let ends := (slotsInOrder s).filter (fun x => x.2.work == .shellEnd)
  endShell (ends.foldl (fun (t : State) (x : Nat × Request) => endRequest x.1 0 [] t) s)

/-- The RERANK units of a model that a stroke has run, with the time their binding states for the pairs that ran (R53). -/
def rerankStated (s : State) (m : Model) : List Rat :=
  s.srv.slots.filterMap (fun x =>
    match x.2.work with
    | .pipe p =>
      match p.unit with
      | some u =>
        let pairs := u.runs.countP (fun r => !r.ran.isEmpty)
        if u.stage = 1 ∧ u.model = m.oid ∧ x.2.st = .running ∧ pairs ≠ 0 then
          some (rerankEst u.bind s.gov.mNow pairs (rerankPairs s p u.bind))
        else none
      | none => none
    | _ => none)

/-- The time of a stroke joins the moving average of each RERANK binding that it ran, beside the time stated for its pairs: one entry for each
stroke, the last 64 (R53; log entry 120). -/
def rerankMeasured (t s : State) : State :=
  t.obj.models.foldl (fun u m =>
    let xs := rerankStated t m
    if xs.isEmpty then u
    else
      let m1 := modelByOid u m.oid
      setModel { m1 with rerankTimes := ((now t - t.srv.strokeSince.getD (now t), (roundHalf xs.sum).toNat) :: m1.rerankTimes).take 64 } u) s

/-- Tiles still in the queues of requests that hold no unit any more, and those of passes that ended with them, are dropped; the rest keep their
order. -/
def requeue (s : State) (c : Core) : Core :=
  let live := fun (t : OutTile) => t.owner.all (fun o => ((pipeOf s o.1).bind Pipe.unit).isSome)
  let held := (List.range 16).filterMap (fun i =>
    let q := sgetD c.queue ((c.readAt + i) % 16) {}
    q.tile.bind (fun t => if live t then some q else none))
  let outs := c.outTiles.filter live
  if held.length = (c.queue.filter (fun x => x.2.tile.isSome)).length ∧ outs.length = c.outTiles.length then c
  else
    startFilling { c with
      queue := (held.zipIdx).foldl (fun m x => sset m ((c.readAt + x.2) % 16) x.1) [], fillAt := (c.readAt + held.length) % 16, outTiles := outs }

/-- T0 and T1 after a stroke: what it wrote in tile stores and crew SRAM does not outlive it (R333). -/
def endTiers (s : State) : State :=
  { s with
    cores := s.cores.map (fun x => (x.1, requeue s { x.2 with tileStore := [], tsPoison := [] }))
    crews := s.crews.map (fun x => (x.1, { x.2 with sram := [], sramPoison := [], syncMap := [] })) }

/-- The commit point of the stroke in progress: measured gives each die's energy in µJ. -/
def commitStroke (measured : List Nat) (s : State) : State :=
  if s.net.shell = .ending then drainCheck (commitShellEnd s)
  else
    let t := runStroke s
    if strokeOpen t then s
    else
      let t1 := (strokeInstances t).foldl (fun u o => countInstance o u) t
      let t2 := (slotsInOrder t1).foldl (fun (u : State) (x : Nat × Request) => commitSlot t1 x.1 u) t1
      let t3 := updateCorr measured (rerankMeasured t t2)
      settle <| moveVectors <| endTiers { endDummy t3 with
        gov := { t3.gov with estimateUj := [] }
        srv := { t3.srv with strokeSince := none, admitted := [] } }

/-- STROKE_COMMIT. -/
def execStrokeCommit (measured : List Nat) (s : State) : Host.Outcome State Fault Refusal :=
  finish s (if clocksRun s && fwRunning s && s.srv.strokeSince.isSome then commitStroke measured s else s)

/-- STROKE_BOUNDARY (R304 to R312, R449 to R451). -/
def execStrokeBoundary (b : BoundaryData) (s : State) : Host.Outcome State Fault Refusal :=
  finish s (if canCompose s then composeStroke b s else s)

/-! ### Rows about one request -/

/-- KV_POOL_EXHAUSTED (R310): a request has waited PAGE_WAIT_STROKES strokes for a page. -/
def execKvPoolExhausted (slot : Nat) (s : State) : Host.Outcome State Fault Refusal :=
  match slotOf s slot with
  | none => finish s s
  | some r =>
    finish s (if clocksRun s && r.st == .waiting && r.wait == 3 && decide (s.srv.pageWait ≤ r.holdPages) then
      settle (endRequest slot 0x47 [] s) else s)

/-- The age limit of a class in ns: AGE_HIGH, AGE_MEDIUM and AGE_LOW count 10 µs each, as they stood at the last
stroke boundary (R396). -/
def ageLimit (s : State) (prio : Nat) : Nat := 10000 * fieldOf s.port.ageNow (16 * prio - 1) (16 * (prio - 1))

/-- AGEING_PROMOTION (R396): it takes effect at the next stroke boundary. -/
def execAgeingPromotion (slot : Nat) (s : State) : Host.Outcome State Fault Refusal :=
  match slotOf s slot with
  | none => finish s s
  | some r =>
    finish s (if clocksRun s && decide (1 ≤ r.prio) && (r.st == .ready || r.st == .waiting) && !r.aged
        && decide (r.tFetch + ageLimit s r.prio ≤ now s) then
      setSlot s slot { r with promote := true } else s)

/-- FAR_TILE_RESIDENT (R308): the FAR tiles of a WAITING request's unit have come. -/
def execFarTileResident (slot : Nat) (s : State) : Host.Outcome State Fault Refusal :=
  match slotOf s slot with
  | none => finish s s
  | some r => finish s (if clocksRun s && r.st == .waiting && r.wait == 4 then setSlot s slot { r with st := .ready, wait := 0 } else s)

end Sys2Proof.Machine
end

