-- ==== Sys2Proof/Machine/Manage.lean ====
section
/-!
DEFINITION. The board-management endpoint (R477 to R479, R501, R511, R517, R537), boundary scan (R539) and the GPIO pulse (R524).
-/

namespace Sys2Proof.Machine

/-- The endpoint's answer. -/
def answer (bs : List Byte) (s : State) : State := { s with pins := { s.pins with bmcOut := bs } }

/-- PLDM_FW_SLOT_UPDATE (R511): the slot that is not running takes an image. -/
def execPldmFwSlotUpdate (img : FwImage) (s : State) : Host.Outcome State Fault Refusal :=
  if img.slot < 2 then
    finish s (if clocksRun s && img.slot != s.boot.activeSlot then { s with boot := { s.boot with slots := sset s.boot.slots img.slot img } } else s)
  else .refused .illFormed

/-- PLDM_BOOTCFG_UPDATE (R501): the copy that is not in use is rewritten with GENERATION raised by 1; copy 0 when neither is. -/
def execPldmBootcfgUpdate (prefSlot spread : Nat) (s : State) : Host.Outcome State Fault Refusal :=
  if prefSlot < 2 ∧ spread < 3 then
    if clocksRun s then
      let use0 := s.boot.cfg0.valid && (!s.boot.cfg1.valid || decide (s.boot.cfg1.generation ≤ s.boot.cfg0.generation))
      let new : BootCfg := { valid := true, generation := ((bootCfg s).generation + 1) % 2 ^ 32, prefSlot := prefSlot, spread := spread }
      finish s { s with boot := if use0 then { s.boot with cfg1 := new } else { s.boot with cfg0 := new } }
    else finish s s
  else .refused .illFormed

/-- Measured package power in W over the last 1 ms (GOV_STATUS.POWER_W). -/
def powerW (s : State) : Nat := s.gov.samples.sum / 1000

/-- A field of TEMP[d]: 0 DIE_C, 1 STACK0_C, 2 STACK1_C, 3 TRAIN_C, 4 VALID. -/
def tempField (s : State) (d which : Nat) : Nat :=
  let t := tempOf s d
  match which with
  | 0 => codeOf 8 t.dieC
  | 1 => codeOf 8 t.stack0C
  | 2 => codeOf 8 t.stack1C
  | 3 => codeOf 8 t.trainC
  | _ => bit t.valid

/-- A sensor of R517, as the number its register field holds. -/
def sensorValue (s : State) : Sensor → Nat
  | .powerW => powerW s
  | .energyMj => s.gov.energyUj / 1000
  | .temp d which => tempField s d which
  | .healthLevel => s.boot.level
  | .bootStage => s.boot.stage

def sensorKnown : Sensor → Bool
  | .temp d which => decide (d < 9) && decide (which < 5)
  | _ => true

/-- PLDM_SENSOR_READ (R517). -/
def execPldmSensorRead (x : Sensor) (s : State) : Host.Outcome State Fault Refusal :=
  if sensorKnown x then finish s (if clocksRun s then answer (leBytes 8 (sensorValue s x)) s else s) else .refused .illFormed

/-! ### CPER (R477, R478) -/

/-- The 64-byte failure signature (R477). -/
def signatureBytes (h : HistRec) : List Byte :=
  let r := h.record
  let g := h.sig
  leBytes 2 r.code ++ leBytes 1 r.unitKind ++ leBytes 1 r.verdict ++ leBytes 2 r.unit ++ leBytes 2 g.crewActive ++ leBytes 4 g.eventsTotal
    ++ leBytes 4 g.eventsWindow ++ leBytes 8 g.firstCal ++ leBytes 8 g.lastCal ++ leBytes 2 g.serviceable ++ leBytes 1 g.health
    ++ leBytes 29 0

/-- The Casgal GUID, and the UEFI notification types PCI Express and Boot, as UEFI stores GUIDs. -/
def casgalGuid : List Byte := leBytes 4 0x7C5D21A0 ++ leBytes 2 0x3E94 ++ leBytes 2 0x4B6F ++ leBytes 8 0xB7E5C4F3A681029D
def pcieGuid : List Byte := leBytes 4 0xCF93C01F ++ leBytes 2 0x1A16 ++ leBytes 2 0x4DFC ++ leBytes 8 0x04C167AF4D9CBCB8
def bootGuid : List Byte := leBytes 4 0x3D61A466 ++ leBytes 2 0xAB40 ++ leBytes 2 0x409A ++ leBytes 8 0x8FB364D462F398A6

/-- Two decimal digits as BCD. -/
def bcd (n : Nat) : Nat := n / 10 % 10 * 16 + n % 10

/-- Year, month and day of a day count since 1970-01-01. -/
def civilDate (days : Nat) : Nat × Nat × Nat :=
  let z := days + 719468
  let era := z / 146097
  let doe := z % 146097
  let yoe := (doe - doe / 1460 + doe / 36524 - doe / 146096) / 365
  let doy := doe - (365 * yoe + yoe / 4 - yoe / 100)
  let mp := (5 * doy + 2) / 153
  let m := if mp < 10 then mp + 3 else mp - 9
  (yoe + era * 400 + (if m ≤ 2 then 1 else 0), m, doy - (153 * mp + 2) / 5 + 1)

/-- The UEFI timestamp of a calendar time, marked precise. -/
def cperTime (sec : Nat) : List Byte :=
  let d := civilDate (sec / 86400)
  (([sec % 60, sec / 60 % 60, sec / 3600 % 24].map bcd) ++ [1] ++ ([d.2.2, d.2.1, d.1 % 100, d.1 / 100 % 100].map bcd)).flatMap (leBytes 1)

/-- ASCII decimal digits of a number below 1,000. -/
def decimal (n : Nat) : List Byte :=
  ((if 100 ≤ n then [n / 100 % 10] else []) ++ (if 10 ≤ n then [n / 10 % 10] else []) ++ [n % 10]).map (fun d => BitVec.ofNat 8 (48 + d))

/-- "CREW" and "CORE". -/
def crewWord : List Byte := [0x43#8, 0x52#8, 0x45#8, 0x57#8]
def coreWord : List Byte := [0x43#8, 0x4F#8, 0x52#8, 0x45#8]

/-- The 20 bytes of FRU text: a core and a crew as the manual's example spells them, another unit left open. -/
def fruText (kind unit : Nat) : List Byte :=
  match kind with
  | 3 => slice (crewWord ++ decimal (unit / 9) ++ [0x2E#8] ++ coreWord ++ decimal (unit % 9)) 0 20
  | 2 => slice (crewWord ++ decimal unit) 0 20
  | _ => (List.range 20).map (Config.fruByte kind unit)

/-- Severity by CLASS: 3 informational, 2 corrected, 0 recoverable, 1 fatal. -/
def cperSeverity (cls : Nat) : Nat := [3, 2, 0, 1].getD cls 0

/-- The 328 bytes of a CPER record (R478). Fields that R478 does not name follow UEFI and are 0 where not valid. -/
def cperBytes (h : HistRec) (startups : Nat) : List Byte :=
  let r := h.record
  let sev := leBytes 4 (cperSeverity r.cls)
  leBytes 4 0x52455043 ++ leBytes 2 0x0101 ++ leBytes 4 0xFFFFFFFF ++ leBytes 2 1 ++ sev ++ leBytes 4 (if h.calValid then 2 else 0)
    ++ leBytes 4 328 ++ (if h.calValid then cperTime h.calSec else leBytes 8 0) ++ leBytes 32 0 ++ casgalGuid
    ++ (if h.startup < startups then bootGuid else pcieGuid) ++ leBytes 4 r.seq ++ leBytes 4 h.startup ++ leBytes 24 0
    ++ leBytes 4 200 ++ leBytes 4 128 ++ leBytes 2 0 ++ leBytes 1 2 ++ leBytes 1 0 ++ leBytes 4 1 ++ casgalGuid ++ leBytes 16 0 ++ sev
    ++ fruText r.unitKind r.unit
    ++ recordBytes r ++ signatureBytes h

/-- CPER_EXPORT (R479): a record of the history, counted from the newest. -/
def execCperExport (n : Nat) (s : State) : Host.Outcome State Fault Refusal :=
  match s.flt.history[n]? with
  | some h => finish s (if clocksRun s then answer (cperBytes h s.flt.startups) s else s)
  | none => finish s s

/-- SETDASA (R537): static address 0x4D. -/
def execSetdasa (static dynamic : Nat) (s : State) : Host.Outcome State Fault Refusal :=
  if static < 128 ∧ dynamic < 128 then
    finish s (if clocksRun s && static == 0x4D then { s with pins := { s.pins with i3cAddr := some dynamic } } else s)
  else .refused .illFormed

/-! ### Boundary scan (R539) -/

/-- The controller of IEEE 1149.1: 0 Test-Logic-Reset, 1 Run-Test/Idle, 2 to 8 Select, Capture, Shift, Exit1, Pause, Exit2 and Update of
the data register, 9 to 15 the same of the instruction register. -/
def tapNext (st : Nat) (tms : Bool) : Nat :=
  match st with
  | 0 => if tms then 0 else 1
  | 1 => if tms then 2 else 1
  | 2 => if tms then 9 else 3
  | 3 => if tms then 5 else 4
  | 4 => if tms then 5 else 4
  | 5 => if tms then 8 else 6
  | 6 => if tms then 7 else 6
  | 7 => if tms then 8 else 4
  | 8 => if tms then 2 else 1
  | 9 => if tms then 0 else 10
  | 10 => if tms then 12 else 11
  | 11 => if tms then 12 else 11
  | 12 => if tms then 15 else 13
  | 13 => if tms then 14 else 13
  | 14 => if tms then 15 else 11
  | _ => if tms then 2 else 1

/-- BOUNDARY_SCAN: one TCK with its TMS and TDI; TRST_N low resets the controller. BYPASS captures 0 and shifts TDI. -/
def execBoundaryScan (tms tdi trstN : Bool) (s : State) : Host.Outcome State Fault Refusal :=
  if s.pins.pwrok then
    let p := s.pins
    finish s { s with pins :=
      if trstN then
        { p with
          tapState := tapNext p.tapState tms
          tapBypass := if p.tapState = 3 then false else if p.tapState = 4 then tdi else p.tapBypass }
      else { p with tapState := 0, tapBypass := false } }
  else finish s s

/-- GPIO3_PULSE_END (R524). -/
def execGpio3PulseEnd (s : State) : Host.Outcome State Fault Refusal :=
  finish s { s with pins := { s.pins with gpio3 := false } }

end Sys2Proof.Machine
end

