-- ==== Sys2Proof/Machine/Registers.lean ====
section
/-!
DEFINITION. The register map of window 0 (R518) as a write sees it: REGISTER_WRITE at any offset, field by field (R14 to R17), with the
registers that have a behaviour of their own handled by the same meanings as their own commands; and VF Enable (R383).
-/

namespace Sys2Proof.Machine

/-! ### Ring set-up -/

/-- A write to FN_DOORBELL_BASE, FN_SUMMARY_ADDR or FN_SWEEP of a function. -/
def writeFnReg (which : Nat) (w : RegAccess) (s : State) : State :=
  let r := fnRegs s w.fn
  match which with
  | 0 => setFnRegs s w.fn { r with doorbell := rwField r.doorbell w 63 12 anyVal r.doorbell }
  | 1 => setFnRegs s w.fn { r with summary := rwField r.summary w 63 7 anyVal r.summary }
  | _ =>
    let x := [(39, 30), (29, 20), (19, 10), (9, 0)].foldl (fun a f => rwField r.sweep w f.1 f.2 (within 1 512) a) r.sweep
    setFnRegs s w.fn { r with sweep := x }

/-- A write to ARB_WEIGHT or ARB_AGE. -/
def writeArb (age : Bool) (w : RegAccess) (s : State) : State :=
  if age then
    let x := [(47, 32), (31, 16), (15, 0)].foldl (fun a f => rwField s.port.arbAge w f.1 f.2 (within 1 65535) a) s.port.arbAge
    { s with port := { s.port with arbAge := x } }
  else
    let x := [(23, 16), (15, 8), (7, 0)].foldl (fun a f => rwField s.port.arbWeight w f.1 f.2 (within 1 255) a) s.port.arbWeight
    { s with port := { s.port with arbWeight := x } }

/-- A write to SQ_BASE, RING_CFG or CQ_BASE, which takes effect only while the pair is DISABLED (R384). -/
def writeRingReg (q : RingRef) (which : Nat) (w : RegAccess) (s : State) : State :=
  let r := ringOf s q
  if r.st ≠ .disabled then s
  else
    match which with
    | 0 => setRing s q { r with sqBase := rwField r.sqBase w 63 12 anyVal r.sqBase }
    | 1 => setRing s q { r with cfg := rwField r.cfg w 49 6 anyVal r.cfg }
    | _ => setRing s q { r with cqBase := rwField r.cqBase w 63 12 anyVal r.cqBase }

/-- The state that a ring command leaves. -/
def outState (s : State) : Host.Outcome State Fault Refusal → State
  | .next t => t
  | _ => s

/-- A write to RING_CMD. -/
def writeRingCmd (q : RingRef) (w : RegAccess) (s : State) : State :=
  if !covers w 3 0 then s
  else
    match fieldOf (written w) 3 0 with
    | 1 => outState s (execRingEnable q s)
    | 2 => outState s (execRingDisable q s)
    | 3 => outState s (execRingResume q s)
    | 4 => outState s (execRingReset q s)
    | _ => s

/-- A write in the ring block of a function: pair n at 0x40 × n. -/
def writeRingBlock (o : Nat) (w : RegAccess) (s : State) : State :=
  let q : RingRef := ⟨w.fn, o / 64⟩
  if !ringExists s q then s
  else
    match o % 64 with
    | 0 => writeRingReg q 0 w s
    | 8 => writeRingReg q 1 w s
    | 16 => writeRingReg q 2 w s
    | 24 => writeRingCmd q w s
    | _ => s

/-! ### MSI-X (R381; layout as PCIe defines) -/

/-- A write to entry v of the MSI-X table: message address, data and the mask bit. An entry that is unmasked with its pending bit set
sends its message. -/
def writeMsix (v o : Nat) (w : RegAccess) (s : State) : State :=
  let e := msixOf s w.fn v
  if o = 0 then setMsix s w.fn v { e with addr := (merged (BitVec.ofNat 64 e.addr) w).toNat }
  else
    let r := merged (BitVec.ofNat 64 (e.data + 2 ^ 32 * bit e.masked)) w
    let e1 := { e with data := fieldOf r 31 0, masked := bitOf r 32 }
    if !e1.masked && e1.pending then raiseMsix w.fn v (setMsix s w.fn v { e1 with pending := false }) else setMsix s w.fn v e1

/-! ### Other registers of the physical function -/

/-- A write to FLT_CTL. -/
def writeFltCtl (w : RegAccess) (s : State) : State :=
  let c := s.flt.ctl
  let x := [(63, 48, 0), (47, 40, 1), (39, 28, 1), (27, 24, 1), (23, 16, 1), (15, 8, 1), (5, 1, 0), (0, 0, 0)].foldl
    (fun a (f : Nat × Nat × Nat) => rwField c w f.1 f.2.1 (fun v => decide (f.2.2 ≤ v)) a) c
  { s with flt := { s.flt with ctl := x } }

/-- A write to TRACE_CTL or TRACE_RD. -/
def writeTrace (page : Bool) (w : RegAccess) (s : State) : State :=
  let t := s.trace
  if page then
    let old : Reg := BitVec.ofNat 64 (128 * t.page)
    { s with trace := { t with page := fieldOf (rwField old w 22 7 anyVal old) 22 7 } }
  else
    { s with trace := { t with ctl := rwField t.ctl w 15 8 anyVal (rwField t.ctl w 1 1 anyVal (rwField t.ctl w 0 0 anyVal t.ctl)) } }

/-- A write to CLKGEN_CTL: SPREAD 3 is reserved. -/
def writeSpread (w : RegAccess) (s : State) : State :=
  let old : Reg := BitVec.ofNat 64 s.clk.spread
  { s with clk := { s.clk with spread := fieldOf (rwField old w 1 0 (fun v => decide (v < 3)) old) 1 0 } }

/-- A write to ROUTE[d]. -/
def writeRoute (d : Nat) (w : RegAccess) (s : State) : State :=
  let old : Reg := BitVec.ofNat 64 (sgetD s.net.route d 0)
  { s with net := { s.net with route := sset s.net.route d (fieldOf (rwField old w 8 0 anyVal old) 8 0) } }

/-- A write to REGION_CMD: OP and REGION; a reserved OP does nothing. -/
def writeRegionCmd (w : RegAccess) (s : State) : State :=
  let op := fieldOf (written w) 11 8
  if covers w 11 0 && decide (1 ≤ op) && decide (op ≤ 4) then regionCmd op (fieldOf (written w) 7 0) s else s

/-- A write to REGION_CMD_STATUS: two RW1C bits. -/
def writeRegionStatus (w : RegAccess) (s : State) : State :=
  { s with mem := { s.mem with cfgIgnored := s.mem.cfgIgnored && !wrote w 3, cmdIgnored := s.mem.cmdIgnored && !wrote w 2 } }

/-- A write to a register of a region. -/
def writeRegionBlock (o : Nat) (w : RegAccess) (s : State) : State :=
  match o % 32 with
  | 0 => writeRegion (o / 32) .base w s
  | 8 => writeRegion (o / 32) .size w s
  | 16 => writeRegion (o / 32) .cfg w s
  | _ => s

/-- A write to a register of a DMA channel. -/
def writeDmaBlock (o : Nat) (w : RegAccess) (s : State) : State :=
  let ch := o / 64
  match o % 64 with
  | 0 => writeDmaReg ch 0 w s
  | 8 => writeDmaReg ch 1 w s
  | 16 => writeDmaReg ch 2 w s
  | 24 => writeDmaCtl ch w s
  | 32 => writeDmaReg ch 3 w s
  | 40 => writeDmaStatus ch w s
  | _ => s

/-- A write to a register of the physical function's window. -/
def writePf (o : Nat) (w : RegAccess) (s : State) : State :=
  if o = 0x10020 then writeArb false w s
  else if o = 0x10028 then writeArb true w s
  else if 0x10100 ≤ o ∧ o < 0x10300 then outState s (execRingAllocWrite ((o - 0x10100) / 8) w s)
  else if 0x30000 ≤ o ∧ o < 0x30400 then writeDmaBlock (o - 0x30000) w s
  else if o = 0x60000 then writeGovCtl w s
  else if o = 0x70000 then writeMemCtl w s
  else if o = 0x70010 then writeRegionCmd w s
  else if o = 0x70018 then writeRegionStatus w s
  else if 0x70100 ≤ o ∧ o < 0x70200 ∧ o % 64 = 0 then
    (if (o - 0x70100) / 64 < Config.farPorts s.part then writeFmpCtl ((o - 0x70100) / 64) w s else s)
  else if 0x71000 ≤ o ∧ o < 0x73000 then writeRegionBlock (o - 0x71000) w s
  else if o = 0x80000 then writeFltCtl w s
  else if 0x90000 ≤ o ∧ o < 0x90200 ∧ o % 64 = 0 then nlWrite ((o - 0x90000) / 64) w s
  else if o = 0x91000 then writeRegattaCtl w s
  else if 0x92000 ≤ o ∧ o < 0x96000 then writeRoute ((o - 0x92000) / 8) w s
  else if o = 0xA0000 then writeSpread w s
  else if o = 0xA0008 then { s with clk := { s.clk with refLost := s.clk.refLost && !wrote w 3 } }
  else if o = 0xB0000 then writeTrace false w s
  else if o = 0xB0010 then writeTrace true w s
  else s

/-- A write to a register of the backup domain (R488, R494): the set registers, CAL_CTL and scratch. -/
def writeBackup (o : Nat) (w : RegAccess) (c : Cal) : Cal :=
  if o = 0x50010 then
    let old : Reg := BitVec.ofNat 64 c.setSec
    { c with setSec := fieldOf (rwField old w 39 0 anyVal old) 39 0 }
  else if o = 0x50018 then
    let old : Reg := BitVec.ofNat 64 c.setFrac
    { c with setFrac := fieldOf (rwField old w 15 0 anyVal old) 15 0 }
  else if o = 0x50020 then writeCalCtl w c
  else
    let i := (o - 0x50100) / 8
    { c with scratch := sset c.scratch i (merged (sgetD c.scratch i 0) w) }

/-- Offsets of the calendar's writable registers. -/
def isBackup (o : Nat) : Bool :=
  o == 0x50010 || o == 0x50018 || o == 0x50020 || (decide (0x50100 ≤ o) && decide (o < 0x50200))

/-- A write to a register that every function has; of the rest, the physical function's. A mailbox answers where the ring pairs from 960
up would lie (R518). -/
def writeAny (o : Nat) (w : RegAccess) (s : State) : State :=
  if o = 0x10000 then writeFnReg 0 w s
  else if o = 0x10008 then writeFnReg 1 w s
  else if o = 0x10018 then writeFnReg 2 w s
  else if 0x20000 ≤ o ∧ o < 0x20400 then writeH2dSlot (o - 0x20000) w s
  else if o = 0x20800 then writeMbIdx w s
  else if o = 0x20808 then writeMbDb w s
  else if o = 0x20810 then writeMbCfg w s
  else if o = 0x20818 then writeMbStatus w s
  else if 0x20400 ≤ o ∧ o < 0x20800 then s
  else if 0x11000 ≤ o ∧ o < 0x21000 then writeRingBlock (o - 0x11000) w s
  else if 0x40000 ≤ o ∧ o < 0x40200 then writeMsix ((o - 0x40000) / 16) (o % 16) w s
  else if w.fn = 0 then writePf o w s
  else s

/-- REGISTER_WRITE (R17, R379, R518): a write at a register's offset in the window of function w.fn. -/
def execRegisterWrite (offset : Nat) (w : RegAccess) (s : State) : Host.Outcome State Fault Refusal :=
  if w.fn < 64 ∧ offset < 2 ^ 26 then
    if offset % 8 ≠ 0 then .fault .misalignedAccess
    else if !(hostUp s && fnPresent s w.fn) then finish s s
    else if isBackup offset && w.fn == 0 then
      (if s.cal.powered then finishCal s (writeBackup offset w s.cal) (expireAfter (withCal (writeBackup offset w s.cal) s)) else finish s s)
    else finish s (writeAny offset w s)
  else .refused .illFormed

/-! ### VF Enable (R379, R383) -/

/-- SRIOV_VF_ENABLE: NumVFs takes effect with VF Enable. Clearing it takes the virtual functions away, and each is reset as by a
function-level reset. -/
def execSriovVfEnable (enable : Bool) (numVfs : Nat) (s : State) : Host.Outcome State Fault Refusal :=
  if numVfs < 64 then
    if s.port.trained && !s.clk.stopped then
      let gone := if s.port.vfEnable && !enable then (List.range 63).map (· + 1) else []
      let s1 := gone.foldl (fun t f => resetFunction f t) s
      finish s { s1 with port := { s1.port with vfEnable := enable, numVfs := if s.port.vfEnable && enable then s.port.numVfs else numVfs } }
    else finish s s
  else .refused .illFormed

end Sys2Proof.Machine
end

