-- ==== Sys2Proof/Machine/Dispatch.lean ====
section
/-!
DEFINITION. The meaning of every command: one arm for each constructor of Instr, each a direct call of the command's own
meaning.
-/

namespace Sys2Proof.Machine

open Sys2Proof

def exec (i : Instr) (s : State) : Host.Outcome State Fault Refusal :=
  match i with
  | .loadModel q e => Sys2Proof.Machine.execLoadModel q e s
  | .unloadModel q e => Sys2Proof.Machine.execUnloadModel q e s
  | .loadVocab q e => Sys2Proof.Machine.execLoadVocab q e s
  | .loadGrammar q e => Sys2Proof.Machine.execLoadGrammar q e s
  | .indexCreate q e => Sys2Proof.Machine.execIndexCreate q e s
  | .indexMerge q e => Sys2Proof.Machine.execIndexMerge q e s
  | .abort q e => Sys2Proof.Machine.execAbort q e s
  | .enterPowerStateStandby q e => Sys2Proof.Machine.execEnterPowerStateStandby q e s
  | .enterPowerStateRetain q e => Sys2Proof.Machine.execEnterPowerStateRetain q e s
  | .enterPowerStateActive q e => Sys2Proof.Machine.execEnterPowerStateActive q e s
  | .getLogErrorPage q e => Sys2Proof.Machine.execGetLogErrorPage q e s
  | .getLogErrorRecords q e => Sys2Proof.Machine.execGetLogErrorRecords q e s
  | .setFeatureArbitration q e => Sys2Proof.Machine.execSetFeatureArbitration q e s
  | .setFeatureServing q e => Sys2Proof.Machine.execSetFeatureServing q e s
  | .setFeaturePartition q e => Sys2Proof.Machine.execSetFeaturePartition q e s
  | .setFeatureBoathouse q e => Sys2Proof.Machine.execSetFeatureBoathouse q e s
  | .setFeaturePackTemplate q e => Sys2Proof.Machine.execSetFeaturePackTemplate q e s
  | .setFeaturePassageStore q e => Sys2Proof.Machine.execSetFeaturePassageStore q e s
  | .setFeatureGet q e => Sys2Proof.Machine.execSetFeatureGet q e s
  | .shellJoin q e => Sys2Proof.Machine.execShellJoin q e s
  | .firmwareActivate q e => Sys2Proof.Machine.execFirmwareActivate q e s
  | .tableCreate q e => Sys2Proof.Machine.execTableCreate q e s
  | .tableDelete q e => Sys2Proof.Machine.execTableDelete q e s
  | .shellEnd q e => Sys2Proof.Machine.execShellEnd q e s
  | .query q e => Sys2Proof.Machine.execQuery q e s
  | .embed q e => Sys2Proof.Machine.execEmbed q e s
  | .search q e => Sys2Proof.Machine.execSearch q e s
  | .rerank q e => Sys2Proof.Machine.execRerank q e s
  | .pack q e => Sys2Proof.Machine.execPack q e s
  | .generate q e => Sys2Proof.Machine.execGenerate q e s
  | .pauseConversation q e => Sys2Proof.Machine.execPauseConversation q e s
  | .release q e => Sys2Proof.Machine.execRelease q e s
  | .resumeConversation q e => Sys2Proof.Machine.execResumeConversation q e s
  | .tokenize q e => Sys2Proof.Machine.execTokenize q e s
  | .detokenize q e => Sys2Proof.Machine.execDetokenize q e s
  | .indexInsert q e => Sys2Proof.Machine.execIndexInsert q e s
  | .indexDelete q e => Sys2Proof.Machine.execIndexDelete q e s
  | .tableRowWrite q e => Sys2Proof.Machine.execTableRowWrite q e s
  | .tableRowRead q e => Sys2Proof.Machine.execTableRowRead q e s
  | .runOplist q e => Sys2Proof.Machine.execRunOplist q e s
  | .fence q e => Sys2Proof.Machine.execFence q e s
  | .sweep fn => Sys2Proof.Machine.execSweep fn s
  | .doorbellErrorCompletion q => Sys2Proof.Machine.execDoorbellErrorCompletion q s
  | .ringEnable q => Sys2Proof.Machine.execRingEnable q s
  | .ringDisable q => Sys2Proof.Machine.execRingDisable q s
  | .ringResume q => Sys2Proof.Machine.execRingResume q s
  | .ringReset q => Sys2Proof.Machine.execRingReset q s
  | .ringStopped q => Sys2Proof.Machine.execRingStopped q s
  | .ringAllocWrite f w => Sys2Proof.Machine.execRingAllocWrite f w s
  | .interruptModerationTimeout q stream => Sys2Proof.Machine.execInterruptModerationTimeout q stream s
  | .functionLevelReset fn => Sys2Proof.Machine.execFunctionLevelReset fn s
  | .strokeBoundary b => Sys2Proof.Machine.execStrokeBoundary b s
  | .strokeCommit measured => Sys2Proof.Machine.execStrokeCommit measured s
  | .syncTimeout crew obj => Sys2Proof.Machine.execSyncTimeout crew obj s
  | .kvPoolExhausted slot => Sys2Proof.Machine.execKvPoolExhausted slot s
  | .ageingPromotion slot => Sys2Proof.Machine.execAgeingPromotion slot s
  | .farTileResident slot => Sys2Proof.Machine.execFarTileResident slot s
  | .pass core p => Sys2Proof.Machine.execPass core p s
  | .tileOffered core => Sys2Proof.Machine.execTileOffered core s
  | .dummyGap core => Sys2Proof.Machine.execDummyGap core s
  | .dummyDutyStep core => Sys2Proof.Machine.execDummyDutyStep core s
  | .matmul r => Sys2Proof.Machine.execMatmul r s
  | .elemwise r => Sys2Proof.Machine.execElemwise r s
  | .expertMatmul r => Sys2Proof.Machine.execExpertMatmul r s
  | .vector r => Sys2Proof.Machine.execVector r s
  | .vectorQ r => Sys2Proof.Machine.execVectorQ r s
  | .gather r => Sys2Proof.Machine.execGather r s
  | .kvWrite r => Sys2Proof.Machine.execKvWrite r s
  | .prefetch r => Sys2Proof.Machine.execPrefetch r s
  | .collective r => Sys2Proof.Machine.execCollective r s
  | .selectMerge r => Sys2Proof.Machine.execSelectMerge r s
  | .verify r => Sys2Proof.Machine.execVerify r s
  | .emit r => Sys2Proof.Machine.execEmit r s
  | .nop core f => Sys2Proof.Machine.execNop core f s
  | .add core f => Sys2Proof.Machine.execAdd core f s
  | .sub core f => Sys2Proof.Machine.execSub core f s
  | .mul core f => Sys2Proof.Machine.execMul core f s
  | .fma core f => Sys2Proof.Machine.execFma core f s
  | .min core f => Sys2Proof.Machine.execMin core f s
  | .max core f => Sys2Proof.Machine.execMax core f s
  | .abs core f => Sys2Proof.Machine.execAbs core f s
  | .neg core f => Sys2Proof.Machine.execNeg core f s
  | .div core f => Sys2Proof.Machine.execDiv core f s
  | .cmpeq core f => Sys2Proof.Machine.execCmpeq core f s
  | .cmplt core f => Sys2Proof.Machine.execCmplt core f s
  | .cmple core f => Sys2Proof.Machine.execCmple core f s
  | .sel core f => Sys2Proof.Machine.execSel core f s
  | .mov core f => Sys2Proof.Machine.execMov core f s
  | .and core f => Sys2Proof.Machine.execAnd core f s
  | .or core f => Sys2Proof.Machine.execOr core f s
  | .xor core f => Sys2Proof.Machine.execXor core f s
  | .shl core f => Sys2Proof.Machine.execShl core f s
  | .shra core f => Sys2Proof.Machine.execShra core f s
  | .shrl core f => Sys2Proof.Machine.execShrl core f s
  | .cvtfi core f => Sys2Proof.Machine.execCvtfi core f s
  | .cvtif core f => Sys2Proof.Machine.execCvtif core f s
  | .rcp core f => Sys2Proof.Machine.execRcp core f s
  | .sqrt core f => Sys2Proof.Machine.execSqrt core f s
  | .rsqrt core f => Sys2Proof.Machine.execRsqrt core f s
  | .exp2 core f => Sys2Proof.Machine.execExp2 core f s
  | .log2 core f => Sys2Proof.Machine.execLog2 core f s
  | .sinpi core f => Sys2Proof.Machine.execSinpi core f s
  | .cospi core f => Sys2Proof.Machine.execCospi core f s
  | .tanh core f => Sys2Proof.Machine.execTanh core f s
  | .rsum core f => Sys2Proof.Machine.execRsum core f s
  | .rmax core f => Sys2Proof.Machine.execRmax core f s
  | .rmin core f => Sys2Proof.Machine.execRmin core f s
  | .bcast core f => Sys2Proof.Machine.execBcast core f s
  | .iota core f => Sys2Proof.Machine.execIota core f s
  | .sget core f => Sys2Proof.Machine.execSget core f s
  | .ld core f => Sys2Proof.Machine.execLd core f s
  | .st core f => Sys2Proof.Machine.execSt core f s
  | .popq core f => Sys2Proof.Machine.execPopq core f s
  | .selpush core f => Sys2Proof.Machine.execSelpush core f s
  | .signal core f => Sys2Proof.Machine.execSignal core f s
  | .wait core f => Sys2Proof.Machine.execWait core f s
  | .waitComplete core => Sys2Proof.Machine.execWaitComplete core s
  | .regionEnable fn region => Sys2Proof.Machine.execRegionEnable fn region s
  | .regionDisable fn region => Sys2Proof.Machine.execRegionDisable fn region s
  | .regionFlush fn region => Sys2Proof.Machine.execRegionFlush fn region s
  | .regionInvalidate fn region => Sys2Proof.Machine.execRegionInvalidate fn region s
  | .regionCmdComplete => Sys2Proof.Machine.execRegionCmdComplete s
  | .regionConfigWrite region which w => Sys2Proof.Machine.execRegionConfigWrite region which w s
  | .memCtlWrite w => Sys2Proof.Machine.execMemCtlWrite w s
  | .fmpRetrain port w => Sys2Proof.Machine.execFmpRetrain port w s
  | .fmpLinkLoss port => Sys2Proof.Machine.execFmpLinkLoss port s
  | .fmpRetrainEnd port sameExpander => Sys2Proof.Machine.execFmpRetrainEnd port sameExpander s
  | .fmpReadTimeout port addr latencyNs => Sys2Proof.Machine.execFmpReadTimeout port addr latencyNs s
  | .patrolScrub v => Sys2Proof.Machine.execPatrolScrub v s
  | .ceRate u events => Sys2Proof.Machine.execCeRate u events s
  | .writeBufferDrain => Sys2Proof.Machine.execWriteBufferDrain s
  | .dmaStart ch w => Sys2Proof.Machine.execDmaStart ch w s
  | .dmaPause ch w => Sys2Proof.Machine.execDmaPause ch w s
  | .dmaResume ch w => Sys2Proof.Machine.execDmaResume ch w s
  | .dmaAbort ch w => Sys2Proof.Machine.execDmaAbort ch w s
  | .dmaUnitMoved ch => Sys2Proof.Machine.execDmaUnitMoved ch s
  | .mbH2dPost w => Sys2Proof.Machine.execMbH2dPost w s
  | .mbD2hConsume w => Sys2Proof.Machine.execMbD2hConsume w s
  | .mbDbRing w => Sys2Proof.Machine.execMbDbRing w s
  | .mailboxResponse ch => Sys2Proof.Machine.execMailboxResponse ch s
  | .mbD2hPost ch => Sys2Proof.Machine.execMbD2hPost ch s
  | .calCommit w => Sys2Proof.Machine.execCalCommit w s
  | .calTimeRead a h => Sys2Proof.Machine.execCalTimeRead a h s
  | .calSubsecRead a h => Sys2Proof.Machine.execCalSubsecRead a h s
  | .timestampRead h => Sys2Proof.Machine.execTimestampRead h s
  | .calendarTick => Sys2Proof.Machine.execCalendarTick s
  | .trimWindowEnd => Sys2Proof.Machine.execTrimWindowEnd s
  | .oscFail => Sys2Proof.Machine.execOscFail s
  | .battLow => Sys2Proof.Machine.execBattLow s
  | .backupPowerLoss => Sys2Proof.Machine.execBackupPowerLoss s
  | .boathouseExpiry fn conv => Sys2Proof.Machine.execBoathouseExpiry fn conv s
  | .pwrokRise slew => Sys2Proof.Machine.execPwrokRise slew s
  | .pwrokFall => Sys2Proof.Machine.execPwrokFall s
  | .warmRstN => Sys2Proof.Machine.execWarmRstN s
  | .perstNAssert => Sys2Proof.Machine.execPerstNAssert s
  | .perstNRelease => Sys2Proof.Machine.execPerstNRelease s
  | .refLost => Sys2Proof.Machine.execRefLost s
  | .cdcTimeout crossing committed => Sys2Proof.Machine.execCdcTimeout crossing committed s
  | .clocksDone failedRails unlockedPlls => Sys2Proof.Machine.execClocksDone failedRails unlockedPlls s
  | .authDone refused => Sys2Proof.Machine.execAuthDone refused s
  | .hubDone => Sys2Proof.Machine.execHubDone s
  | .nearTrainDone failedStacks => Sys2Proof.Machine.execNearTrainDone failedStacks s
  | .arrayTestDone failedCores failedSram => Sys2Proof.Machine.execArrayTestDone failedCores failedSram s
  | .farMemoryDone xs => Sys2Proof.Machine.execFarMemoryDone xs s
  | .ready => Sys2Proof.Machine.execReady s
  | .powerDrainTimeout => Sys2Proof.Machine.execPowerDrainTimeout s
  | .powerStateEntered => Sys2Proof.Machine.execPowerStateEntered s
  | .powerStateExited refCountNs => Sys2Proof.Machine.execPowerStateExited refCountNs s
  | .sensorSample d => Sys2Proof.Machine.execSensorSample d s
  | .peakEvent => Sys2Proof.Machine.execPeakEvent s
  | .overSustainedWindow => Sys2Proof.Machine.execOverSustainedWindow s
  | .thermtrip sensor temp => Sys2Proof.Machine.execThermtrip sensor temp s
  | .govCtlWrite w => Sys2Proof.Machine.execGovCtlWrite w s
  | .pmbAlert fault => Sys2Proof.Machine.execPmbAlert fault s
  | .join w => Sys2Proof.Machine.execJoin w s
  | .leave w => Sys2Proof.Machine.execLeave w s
  | .joinNoPort => Sys2Proof.Machine.execJoinNoPort s
  | .regattaFormAlone => Sys2Proof.Machine.execRegattaFormAlone s
  | .epochStart => Sys2Proof.Machine.execEpochStart s
  | .nlEnable port w => Sys2Proof.Machine.execNlEnable port w s
  | .nlRetrain port w => Sys2Proof.Machine.execNlRetrain port w s
  | .clrCnt port w => Sys2Proof.Machine.execClrCnt port w s
  | .nlPortTrained port t => Sys2Proof.Machine.execNlPortTrained port t s
  | .dataFrame port f => Sys2Proof.Machine.execDataFrame port f s
  | .ackFrame port f => Sys2Proof.Machine.execAckFrame port f s
  | .controlFrame port f => Sys2Proof.Machine.execControlFrame port f s
  | .timeFrame port f rxStamp => Sys2Proof.Machine.execTimeFrame port f rxStamp s
  | .frameForward port f => Sys2Proof.Machine.execFrameForward port f s
  | .retransmit dst seq => Sys2Proof.Machine.execRetransmit dst seq s
  | .timeExchange offsetNs => Sys2Proof.Machine.execTimeExchange offsetNs s
  | .heartbeat => Sys2Proof.Machine.execHeartbeat s
  | .memberLost pkg => Sys2Proof.Machine.execMemberLost pkg s
  | .shellFormed => Sys2Proof.Machine.execShellFormed s
  | .shellJoinTimeout => Sys2Proof.Machine.execShellJoinTimeout s
  | .shellRestart f => Sys2Proof.Machine.execShellRestart f s
  | .restartFrame port f => Sys2Proof.Machine.execRestartFrame port f s
  | .memberReady member => Sys2Proof.Machine.execMemberReady member s
  | .restartReadyTimeout => Sys2Proof.Machine.execRestartReadyTimeout s
  | .repeatCheckComplete c => Sys2Proof.Machine.execRepeatCheckComplete c s
  | .arbiterComplete a => Sys2Proof.Machine.execArbiterComplete a s
  | .checkSampleDropped sample => Sys2Proof.Machine.execCheckSampleDropped sample s
  | .directedTestComplete u passed => Sys2Proof.Machine.execDirectedTestComplete u passed s
  | .watchdog cox => Sys2Proof.Machine.execWatchdog cox s
  | .activationHold => Sys2Proof.Machine.execActivationHold s
  | .activationResume => Sys2Proof.Machine.execActivationResume s
  | .activationBusyTimeout => Sys2Proof.Machine.execActivationBusyTimeout s
  | .startFailed => Sys2Proof.Machine.execStartFailed s
  | .pldmFwSlotUpdate img => Sys2Proof.Machine.execPldmFwSlotUpdate img s
  | .pldmBootcfgUpdate prefSlot spread => Sys2Proof.Machine.execPldmBootcfgUpdate prefSlot spread s
  | .pldmSensorRead sensor => Sys2Proof.Machine.execPldmSensorRead sensor s
  | .cperExport record => Sys2Proof.Machine.execCperExport record s
  | .setdasa static dynamic => Sys2Proof.Machine.execSetdasa static dynamic s
  | .boundaryScan tms tdi trstN => Sys2Proof.Machine.execBoundaryScan tms tdi trstN s
  | .gpio3PulseEnd => Sys2Proof.Machine.execGpio3PulseEnd s
  | .registerWrite offset w => Sys2Proof.Machine.execRegisterWrite offset w s
  | .backupDomainPowerUp => Sys2Proof.Machine.execBackupDomainPowerUp s
  | .battLowCleared => Sys2Proof.Machine.execBattLowCleared s
  | .nlLinkLost port => Sys2Proof.Machine.execNlLinkLost port s
  | .fmpPortInService port x => Sys2Proof.Machine.execFmpPortInService port x s
  | .sriovVfEnable enable numVfs => Sys2Proof.Machine.execSriovVfEnable enable numVfs s

end Sys2Proof.Machine
end

