-- ==== Sys2Proof/Laws/Ops.lean ====
section
/-!
SUPPORT. The laws of Machine/Ops.lean: reading a sparse map after a write, the canonical form of byte memories, which every memory operation
keeps, and the two ways in which a command answers.
-/

namespace Sys2Proof.Machine

open Sys2Proof

/-! ### Sparse maps -/

theorem risingKeys_cons {α : Type} (k : Nat) (v : α) (m : Sparse α) :
    risingKeys ((k, v) :: m) = true ↔ (∀ x ∈ m, k < x.1) ∧ risingKeys m = true := by
  induction m generalizing k v with
  | nil => simp [risingKeys]
  | cons x m ih =>
    obtain ⟨l, w⟩ := x
    simp only [risingKeys, Bool.and_eq_true, decide_eq_true_eq, List.mem_cons, forall_eq_or_imp]
    constructor
    · rintro ⟨h, hr⟩
      exact ⟨⟨h, fun y hy => Nat.lt_trans h (((ih l w).1 hr).1 y hy)⟩, hr⟩
    · rintro ⟨⟨h, -⟩, hr⟩
      exact ⟨h, hr⟩

theorem slookup_none_of_above {α : Type} (m : Sparse α) (a : Nat) (h : ∀ x ∈ m, a < x.1) : slookup m a = none := by
  cases m with
  | nil => rfl
  | cons x m =>
    obtain ⟨k, v⟩ := x
    have hk : a < k := h (k, v) (by simp)
    simp [slookup, hk, Nat.ne_of_lt hk]

@[simp] theorem slookup_sset_self {α : Type} (m : Sparse α) (a : Nat) (v : α) : slookup (sset m a v) a = some v := by
  induction m with
  | nil => simp [sset, slookup]
  | cons x m ih =>
    obtain ⟨k, w⟩ := x
    simp only [sset]
    split
    · simp [slookup]
    · split
      · rename_i h; simp [slookup, h]
      · simp [slookup, *]

theorem slookup_sset_other {α : Type} (m : Sparse α) (a b : Nat) (v : α) (h : b ≠ a) : slookup (sset m a v) b = slookup m b := by
  induction m with
  | nil => simp [sset, slookup, h]
  | cons x m ih =>
    obtain ⟨k, w⟩ := x
    simp only [sset]
    split
    · rename_i hk
      by_cases hb : b < a
      · have h1 : b < k := Nat.lt_trans hb hk
        simp [slookup, h, hb, h1, Nat.ne_of_lt h1]
      · simp [slookup, h, hb]
    · split
      · rename_i hk; subst hk; simp [slookup, h]
      · simp [slookup, ih]

@[simp] theorem sgetD_sset_self {α : Type} (m : Sparse α) (a : Nat) (v d : α) : sgetD (sset m a v) a d = v := by simp [sgetD]

theorem sgetD_sset_other {α : Type} (m : Sparse α) (a b : Nat) (v d : α) (h : b ≠ a) : sgetD (sset m a v) b d = sgetD m b d := by
  simp [sgetD, slookup_sset_other m a b v h]

theorem mem_sset {α : Type} (m : Sparse α) (a : Nat) (v : α) (x : Nat × α) (h : x ∈ sset m a v) : x = (a, v) ∨ x ∈ m := by
  induction m with
  | nil => simpa [sset] using h
  | cons y m ih =>
    obtain ⟨k, w⟩ := y
    simp only [sset] at h
    split at h
    · simpa using h
    · split at h
      · rename_i hk; subst hk
        rcases List.mem_cons.1 h with h | h
        · exact .inl h
        · exact .inr (List.mem_cons_of_mem _ h)
      · rcases List.mem_cons.1 h with h | h
        · exact .inr (h ▸ List.mem_cons_self)
        · exact (ih h).imp_right (List.mem_cons_of_mem _)

theorem mem_serase {α : Type} (m : Sparse α) (a : Nat) (x : Nat × α) (h : x ∈ serase m a) : x ∈ m := by
  induction m with
  | nil => simp [serase] at h
  | cons y m ih =>
    obtain ⟨k, w⟩ := y
    simp only [serase] at h
    split at h
    · exact h
    · split at h
      · exact List.mem_cons_of_mem _ h
      · rcases List.mem_cons.1 h with h | h
        · exact h ▸ List.mem_cons_self
        · exact List.mem_cons_of_mem _ (ih h)

theorem risingKeys_sset {α : Type} (m : Sparse α) (a : Nat) (v : α) (h : risingKeys m = true) : risingKeys (sset m a v) = true := by
  induction m with
  | nil => rfl
  | cons y m ih =>
    obtain ⟨k, w⟩ := y
    have hc := (risingKeys_cons k w m).1 h
    simp only [sset]
    split
    · rename_i hk
      refine (risingKeys_cons a v _).2 ⟨?_, h⟩
      intro x hx
      rcases List.mem_cons.1 hx with hx | hx
      · subst hx; exact hk
      · exact Nat.lt_trans hk (hc.1 x hx)
    · split
      · exact (risingKeys_cons k v m).2 hc
      · refine (risingKeys_cons k w _).2 ⟨?_, ih hc.2⟩
        intro x hx
        rcases mem_sset m a v x hx with hx | hx
        · subst hx; show k < a; omega
        · exact hc.1 x hx

theorem risingKeys_serase {α : Type} (m : Sparse α) (a : Nat) (h : risingKeys m = true) : risingKeys (serase m a) = true := by
  induction m with
  | nil => rfl
  | cons y m ih =>
    obtain ⟨k, w⟩ := y
    have hc := (risingKeys_cons k w m).1 h
    simp only [serase]
    split
    · exact h
    · split
      · exact hc.2
      · exact (risingKeys_cons k w _).2 ⟨fun x hx => hc.1 x (mem_serase m a x hx), ih hc.2⟩

theorem slookup_serase_self {α : Type} (m : Sparse α) (a : Nat) (h : risingKeys m = true) : slookup (serase m a) a = none := by
  induction m with
  | nil => rfl
  | cons y m ih =>
    obtain ⟨k, w⟩ := y
    have hc := (risingKeys_cons k w m).1 h
    simp only [serase]
    split
    · rename_i hk; simp [slookup, hk, Nat.ne_of_lt hk]
    · split
      · rename_i hk; subst hk; exact slookup_none_of_above m a hc.1
      · simp [slookup, *]

theorem slookup_serase_other {α : Type} (m : Sparse α) (a b : Nat) (h : risingKeys m = true) (hb : b ≠ a) :
    slookup (serase m a) b = slookup m b := by
  induction m with
  | nil => rfl
  | cons y m ih =>
    obtain ⟨k, w⟩ := y
    have hc := (risingKeys_cons k w m).1 h
    simp only [serase]
    split
    · rfl
    · split
      · rename_i hk; subst hk
        by_cases hlt : b < a
        · simp only [slookup, hb, hlt, if_false, if_true]
          exact slookup_none_of_above m b (fun x hx => Nat.lt_trans hlt (hc.1 x hx))
        · simp [slookup, hb, hlt]
      · simp [slookup, ih hc.2]

/-! ### Byte memories -/

theorem memory_wf_nil : Memory.wf [] = true := rfl

theorem memory_wf_iff (m : Mem) : Memory.wf m = true ↔ risingKeys m = true ∧ ∀ x ∈ m, x.2 ≠ 0 := by
  simp [Memory.wf]

/-- Writing a byte keeps the canonical form. -/
theorem writeByte_wf (m : Mem) (a : Nat) (b : Byte) (h : Memory.wf m = true) : Memory.wf (writeByte m a b) = true := by
  rw [memory_wf_iff] at h ⊢
  unfold writeByte
  split
  · exact ⟨risingKeys_serase m a h.1, fun x hx => h.2 x (mem_serase m a x hx)⟩
  · rename_i hb
    refine ⟨risingKeys_sset m a b h.1, fun x hx => ?_⟩
    rcases mem_sset m a b x hx with hx | hx
    · subst hx; exact hb
    · exact h.2 x hx

/-- Writing bytes keeps the canonical form. -/
theorem writeBytes_wf (bs : List Byte) (m : Mem) (a : Nat) (h : Memory.wf m = true) : Memory.wf (writeBytes m a bs) = true := by
  induction bs generalizing m a with
  | nil => exact h
  | cons b bs ih => exact ih _ _ (writeByte_wf m a b h)

theorem readByte_writeByte_self (m : Mem) (a : Nat) (b : Byte) (h : Memory.wf m = true) : readByte (writeByte m a b) a = b := by
  have hr := ((memory_wf_iff m).1 h).1
  unfold readByte writeByte
  split
  · rename_i hb; simp [sgetD, slookup_serase_self m a hr, hb]
  · simp

theorem readByte_writeByte_other (m : Mem) (a c : Nat) (b : Byte) (h : Memory.wf m = true) (hc : c ≠ a) :
    readByte (writeByte m a b) c = readByte m c := by
  have hr := ((memory_wf_iff m).1 h).1
  unfold readByte writeByte
  split
  · simp [sgetD, slookup_serase_other m a c hr hc]
  · exact sgetD_sset_other m a c b 0 hc

/-- A byte outside the bytes written reads as before. -/
theorem readByte_writeBytes_other (bs : List Byte) (m : Mem) (a c : Nat) (h : Memory.wf m = true) (hc : c < a ∨ a + bs.length ≤ c) :
    readByte (writeBytes m a bs) c = readByte m c := by
  induction bs generalizing m a with
  | nil => rfl
  | cons b bs ih =>
    simp only [List.length_cons] at hc
    rw [writeBytes, ih _ _ (writeByte_wf m a b h) (by omega), readByte_writeByte_other m a c b h (by omega)]

/-- The bytes written read back. -/
theorem readBytes_writeBytes_self (bs : List Byte) (m : Mem) (a : Nat) (h : Memory.wf m = true) :
    readBytes (writeBytes m a bs) a bs.length = bs := by
  induction bs generalizing m a with
  | nil => rfl
  | cons b bs ih =>
    simp only [List.length_cons, readBytes, writeBytes]
    rw [ih _ _ (writeByte_wf m a b h), readByte_writeBytes_other bs _ _ _ (writeByte_wf m a b h) (.inl (by omega)),
      readByte_writeByte_self m a b h]

/-- A write to host memory keeps its canonical form. -/
theorem hostWrite_wf (s : State) (a : Nat) (bs : List Byte) (h : Memory.wf s.mem.host = true) :
    Memory.wf (hostWrite s a bs).mem.host = true := writeBytes_wf bs _ _ h

theorem reset_host_wf : Memory.wf State.reset.mem.host = true := rfl

theorem leBytes_length (n v : Nat) : (leBytes n v).length = n := by
  induction n generalizing v with
  | zero => rfl
  | succ n ih => simp [leBytes, ih]

theorem slice_length (bs : List Byte) (o n : Nat) : (slice bs o n).length = n := by
  simp [slice]

/-! ### Answers -/

/-- Everything finish says: it answers a next state, with the queue, the part and the backup domain of the state before and all else of the
effect. -/
theorem finish_next (s t u : State) (h : finish s t = .next u) : u = { t with pending := s.pending, part := s.part, cal := s.cal } := by
  cases h; rfl

theorem finish_keeps (s t u : State) (h : finish s t = .next u) : u.pending = s.pending ∧ u.part = s.part ∧ u.cal = s.cal := by
  cases h; exact ⟨rfl, rfl, rfl⟩

/-- Everything finishCal says: as finish, with the backup domain at c. -/
theorem finishCal_next (s : State) (c : Cal) (t u : State) (h : finishCal s c t = .next u) :
    u = { t with pending := s.pending, part := s.part, cal := c } := by
  cases h; rfl

/-- A command that changes nothing. -/
theorem finish_self (s : State) : finish s s = .next s := rfl

end Sys2Proof.Machine
end

