-- ==== Sys2Proof/Laws/State.lean ====
section
/-!
SUPPORT. One lemma for each field of State after each named update of Machine/Ops.lean: the field written holds what was written, every other
field is as it was. A proof cites these and unfolds no record update.
-/

namespace Sys2Proof.Machine

open Sys2Proof

/-! ### setFnRegs -/

@[simp] theorem setFnRegs_part (s : State) (f : Nat) (r : FnRegs) : (setFnRegs s f r).part = s.part := rfl
@[simp] theorem setFnRegs_pins (s : State) (f : Nat) (r : FnRegs) : (setFnRegs s f r).pins = s.pins := rfl
@[simp] theorem setFnRegs_boot (s : State) (f : Nat) (r : FnRegs) : (setFnRegs s f r).boot = s.boot := rfl
@[simp] theorem setFnRegs_clk (s : State) (f : Nat) (r : FnRegs) : (setFnRegs s f r).clk = s.clk := rfl
@[simp] theorem setFnRegs_cal (s : State) (f : Nat) (r : FnRegs) : (setFnRegs s f r).cal = s.cal := rfl
@[simp] theorem setFnRegs_gov (s : State) (f : Nat) (r : FnRegs) : (setFnRegs s f r).gov = s.gov := rfl
@[simp] theorem setFnRegs_mem (s : State) (f : Nat) (r : FnRegs) : (setFnRegs s f r).mem = s.mem := rfl
@[simp] theorem setFnRegs_port_fns (s : State) (f : Nat) (r : FnRegs) : (setFnRegs s f r).port.fns = sset s.port.fns f r := rfl
@[simp] theorem setFnRegs_port_rings (s : State) (f : Nat) (r : FnRegs) : (setFnRegs s f r).port.rings = s.port.rings := rfl
@[simp] theorem setFnRegs_port_alloc (s : State) (f : Nat) (r : FnRegs) : (setFnRegs s f r).port.alloc = s.port.alloc := rfl
@[simp] theorem setFnRegs_port_arbWeight (s : State) (f : Nat) (r : FnRegs) : (setFnRegs s f r).port.arbWeight = s.port.arbWeight := rfl
@[simp] theorem setFnRegs_port_arbAge (s : State) (f : Nat) (r : FnRegs) : (setFnRegs s f r).port.arbAge = s.port.arbAge := rfl
@[simp] theorem setFnRegs_port_vfEnable (s : State) (f : Nat) (r : FnRegs) : (setFnRegs s f r).port.vfEnable = s.port.vfEnable := rfl
@[simp] theorem setFnRegs_port_numVfs (s : State) (f : Nat) (r : FnRegs) : (setFnRegs s f r).port.numVfs = s.port.numVfs := rfl
@[simp] theorem setFnRegs_port_msix (s : State) (f : Nat) (r : FnRegs) : (setFnRegs s f r).port.msix = s.port.msix := rfl
@[simp] theorem setFnRegs_port_streamAt (s : State) (f : Nat) (r : FnRegs) : (setFnRegs s f r).port.streamAt = s.port.streamAt := rfl
@[simp] theorem setFnRegs_port_streamDue (s : State) (f : Nat) (r : FnRegs) : (setFnRegs s f r).port.streamDue = s.port.streamDue := rfl
@[simp] theorem setFnRegs_port_trained (s : State) (f : Nat) (r : FnRegs) : (setFnRegs s f r).port.trained = s.port.trained := rfl
@[simp] theorem setFnRegs_port_readData (s : State) (f : Nat) (r : FnRegs) : (setFnRegs s f r).port.readData = s.port.readData := rfl
@[simp] theorem setFnRegs_port_ageNow (s : State) (f : Nat) (r : FnRegs) : (setFnRegs s f r).port.ageNow = s.port.ageNow := rfl
@[simp] theorem setFnRegs_mbox (s : State) (f : Nat) (r : FnRegs) : (setFnRegs s f r).mbox = s.mbox := rfl
@[simp] theorem setFnRegs_dma (s : State) (f : Nat) (r : FnRegs) : (setFnRegs s f r).dma = s.dma := rfl
@[simp] theorem setFnRegs_net (s : State) (f : Nat) (r : FnRegs) : (setFnRegs s f r).net = s.net := rfl
@[simp] theorem setFnRegs_flt (s : State) (f : Nat) (r : FnRegs) : (setFnRegs s f r).flt = s.flt := rfl
@[simp] theorem setFnRegs_trace (s : State) (f : Nat) (r : FnRegs) : (setFnRegs s f r).trace = s.trace := rfl
@[simp] theorem setFnRegs_obj (s : State) (f : Nat) (r : FnRegs) : (setFnRegs s f r).obj = s.obj := rfl
@[simp] theorem setFnRegs_srv (s : State) (f : Nat) (r : FnRegs) : (setFnRegs s f r).srv = s.srv := rfl
@[simp] theorem setFnRegs_cores (s : State) (f : Nat) (r : FnRegs) : (setFnRegs s f r).cores = s.cores := rfl
@[simp] theorem setFnRegs_crews (s : State) (f : Nat) (r : FnRegs) : (setFnRegs s f r).crews = s.crews := rfl
@[simp] theorem setFnRegs_freeCtr (s : State) (f : Nat) (r : FnRegs) : (setFnRegs s f r).freeCtr = s.freeCtr := rfl
@[simp] theorem setFnRegs_pending (s : State) (f : Nat) (r : FnRegs) : (setFnRegs s f r).pending = s.pending := rfl

/-! ### setRing -/

@[simp] theorem setRing_part (s : State) (q : RingRef) (r : RingPair) : (setRing s q r).part = s.part := rfl
@[simp] theorem setRing_pins (s : State) (q : RingRef) (r : RingPair) : (setRing s q r).pins = s.pins := rfl
@[simp] theorem setRing_boot (s : State) (q : RingRef) (r : RingPair) : (setRing s q r).boot = s.boot := rfl
@[simp] theorem setRing_clk (s : State) (q : RingRef) (r : RingPair) : (setRing s q r).clk = s.clk := rfl
@[simp] theorem setRing_cal (s : State) (q : RingRef) (r : RingPair) : (setRing s q r).cal = s.cal := rfl
@[simp] theorem setRing_gov (s : State) (q : RingRef) (r : RingPair) : (setRing s q r).gov = s.gov := rfl
@[simp] theorem setRing_mem (s : State) (q : RingRef) (r : RingPair) : (setRing s q r).mem = s.mem := rfl
@[simp] theorem setRing_port_fns (s : State) (q : RingRef) (r : RingPair) : (setRing s q r).port.fns = s.port.fns := rfl
@[simp] theorem setRing_port_rings (s : State) (q : RingRef) (r : RingPair) : (setRing s q r).port.rings = sset s.port.rings (ringKey q) r := rfl
@[simp] theorem setRing_port_alloc (s : State) (q : RingRef) (r : RingPair) : (setRing s q r).port.alloc = s.port.alloc := rfl
@[simp] theorem setRing_port_arbWeight (s : State) (q : RingRef) (r : RingPair) : (setRing s q r).port.arbWeight = s.port.arbWeight := rfl
@[simp] theorem setRing_port_arbAge (s : State) (q : RingRef) (r : RingPair) : (setRing s q r).port.arbAge = s.port.arbAge := rfl
@[simp] theorem setRing_port_vfEnable (s : State) (q : RingRef) (r : RingPair) : (setRing s q r).port.vfEnable = s.port.vfEnable := rfl
@[simp] theorem setRing_port_numVfs (s : State) (q : RingRef) (r : RingPair) : (setRing s q r).port.numVfs = s.port.numVfs := rfl
@[simp] theorem setRing_port_msix (s : State) (q : RingRef) (r : RingPair) : (setRing s q r).port.msix = s.port.msix := rfl
@[simp] theorem setRing_port_streamAt (s : State) (q : RingRef) (r : RingPair) : (setRing s q r).port.streamAt = s.port.streamAt := rfl
@[simp] theorem setRing_port_streamDue (s : State) (q : RingRef) (r : RingPair) : (setRing s q r).port.streamDue = s.port.streamDue := rfl
@[simp] theorem setRing_port_trained (s : State) (q : RingRef) (r : RingPair) : (setRing s q r).port.trained = s.port.trained := rfl
@[simp] theorem setRing_port_readData (s : State) (q : RingRef) (r : RingPair) : (setRing s q r).port.readData = s.port.readData := rfl
@[simp] theorem setRing_port_ageNow (s : State) (q : RingRef) (r : RingPair) : (setRing s q r).port.ageNow = s.port.ageNow := rfl
@[simp] theorem setRing_mbox (s : State) (q : RingRef) (r : RingPair) : (setRing s q r).mbox = s.mbox := rfl
@[simp] theorem setRing_dma (s : State) (q : RingRef) (r : RingPair) : (setRing s q r).dma = s.dma := rfl
@[simp] theorem setRing_net (s : State) (q : RingRef) (r : RingPair) : (setRing s q r).net = s.net := rfl
@[simp] theorem setRing_flt (s : State) (q : RingRef) (r : RingPair) : (setRing s q r).flt = s.flt := rfl
@[simp] theorem setRing_trace (s : State) (q : RingRef) (r : RingPair) : (setRing s q r).trace = s.trace := rfl
@[simp] theorem setRing_obj (s : State) (q : RingRef) (r : RingPair) : (setRing s q r).obj = s.obj := rfl
@[simp] theorem setRing_srv (s : State) (q : RingRef) (r : RingPair) : (setRing s q r).srv = s.srv := rfl
@[simp] theorem setRing_cores (s : State) (q : RingRef) (r : RingPair) : (setRing s q r).cores = s.cores := rfl
@[simp] theorem setRing_crews (s : State) (q : RingRef) (r : RingPair) : (setRing s q r).crews = s.crews := rfl
@[simp] theorem setRing_freeCtr (s : State) (q : RingRef) (r : RingPair) : (setRing s q r).freeCtr = s.freeCtr := rfl
@[simp] theorem setRing_pending (s : State) (q : RingRef) (r : RingPair) : (setRing s q r).pending = s.pending := rfl

/-! ### setMsix -/

@[simp] theorem setMsix_part (s : State) (f v : Nat) (e : MsixEntry) : (setMsix s f v e).part = s.part := rfl
@[simp] theorem setMsix_pins (s : State) (f v : Nat) (e : MsixEntry) : (setMsix s f v e).pins = s.pins := rfl
@[simp] theorem setMsix_boot (s : State) (f v : Nat) (e : MsixEntry) : (setMsix s f v e).boot = s.boot := rfl
@[simp] theorem setMsix_clk (s : State) (f v : Nat) (e : MsixEntry) : (setMsix s f v e).clk = s.clk := rfl
@[simp] theorem setMsix_cal (s : State) (f v : Nat) (e : MsixEntry) : (setMsix s f v e).cal = s.cal := rfl
@[simp] theorem setMsix_gov (s : State) (f v : Nat) (e : MsixEntry) : (setMsix s f v e).gov = s.gov := rfl
@[simp] theorem setMsix_mem (s : State) (f v : Nat) (e : MsixEntry) : (setMsix s f v e).mem = s.mem := rfl
@[simp] theorem setMsix_port_fns (s : State) (f v : Nat) (e : MsixEntry) : (setMsix s f v e).port.fns = s.port.fns := rfl
@[simp] theorem setMsix_port_rings (s : State) (f v : Nat) (e : MsixEntry) : (setMsix s f v e).port.rings = s.port.rings := rfl
@[simp] theorem setMsix_port_alloc (s : State) (f v : Nat) (e : MsixEntry) : (setMsix s f v e).port.alloc = s.port.alloc := rfl
@[simp] theorem setMsix_port_arbWeight (s : State) (f v : Nat) (e : MsixEntry) : (setMsix s f v e).port.arbWeight = s.port.arbWeight := rfl
@[simp] theorem setMsix_port_arbAge (s : State) (f v : Nat) (e : MsixEntry) : (setMsix s f v e).port.arbAge = s.port.arbAge := rfl
@[simp] theorem setMsix_port_vfEnable (s : State) (f v : Nat) (e : MsixEntry) : (setMsix s f v e).port.vfEnable = s.port.vfEnable := rfl
@[simp] theorem setMsix_port_numVfs (s : State) (f v : Nat) (e : MsixEntry) : (setMsix s f v e).port.numVfs = s.port.numVfs := rfl
@[simp] theorem setMsix_port_msix (s : State) (f v : Nat) (e : MsixEntry) : (setMsix s f v e).port.msix = sset s.port.msix (32 * f + v) e := rfl
@[simp] theorem setMsix_port_streamAt (s : State) (f v : Nat) (e : MsixEntry) : (setMsix s f v e).port.streamAt = s.port.streamAt := rfl
@[simp] theorem setMsix_port_streamDue (s : State) (f v : Nat) (e : MsixEntry) : (setMsix s f v e).port.streamDue = s.port.streamDue := rfl
@[simp] theorem setMsix_port_trained (s : State) (f v : Nat) (e : MsixEntry) : (setMsix s f v e).port.trained = s.port.trained := rfl
@[simp] theorem setMsix_port_readData (s : State) (f v : Nat) (e : MsixEntry) : (setMsix s f v e).port.readData = s.port.readData := rfl
@[simp] theorem setMsix_port_ageNow (s : State) (f v : Nat) (e : MsixEntry) : (setMsix s f v e).port.ageNow = s.port.ageNow := rfl
@[simp] theorem setMsix_mbox (s : State) (f v : Nat) (e : MsixEntry) : (setMsix s f v e).mbox = s.mbox := rfl
@[simp] theorem setMsix_dma (s : State) (f v : Nat) (e : MsixEntry) : (setMsix s f v e).dma = s.dma := rfl
@[simp] theorem setMsix_net (s : State) (f v : Nat) (e : MsixEntry) : (setMsix s f v e).net = s.net := rfl
@[simp] theorem setMsix_flt (s : State) (f v : Nat) (e : MsixEntry) : (setMsix s f v e).flt = s.flt := rfl
@[simp] theorem setMsix_trace (s : State) (f v : Nat) (e : MsixEntry) : (setMsix s f v e).trace = s.trace := rfl
@[simp] theorem setMsix_obj (s : State) (f v : Nat) (e : MsixEntry) : (setMsix s f v e).obj = s.obj := rfl
@[simp] theorem setMsix_srv (s : State) (f v : Nat) (e : MsixEntry) : (setMsix s f v e).srv = s.srv := rfl
@[simp] theorem setMsix_cores (s : State) (f v : Nat) (e : MsixEntry) : (setMsix s f v e).cores = s.cores := rfl
@[simp] theorem setMsix_crews (s : State) (f v : Nat) (e : MsixEntry) : (setMsix s f v e).crews = s.crews := rfl
@[simp] theorem setMsix_freeCtr (s : State) (f v : Nat) (e : MsixEntry) : (setMsix s f v e).freeCtr = s.freeCtr := rfl
@[simp] theorem setMsix_pending (s : State) (f v : Nat) (e : MsixEntry) : (setMsix s f v e).pending = s.pending := rfl

/-! ### withRead -/

@[simp] theorem withRead_part (s : State) (v : Nat) : (withRead v s).part = s.part := rfl
@[simp] theorem withRead_pins (s : State) (v : Nat) : (withRead v s).pins = s.pins := rfl
@[simp] theorem withRead_boot (s : State) (v : Nat) : (withRead v s).boot = s.boot := rfl
@[simp] theorem withRead_clk (s : State) (v : Nat) : (withRead v s).clk = s.clk := rfl
@[simp] theorem withRead_cal (s : State) (v : Nat) : (withRead v s).cal = s.cal := rfl
@[simp] theorem withRead_gov (s : State) (v : Nat) : (withRead v s).gov = s.gov := rfl
@[simp] theorem withRead_mem (s : State) (v : Nat) : (withRead v s).mem = s.mem := rfl
@[simp] theorem withRead_port_fns (s : State) (v : Nat) : (withRead v s).port.fns = s.port.fns := rfl
@[simp] theorem withRead_port_rings (s : State) (v : Nat) : (withRead v s).port.rings = s.port.rings := rfl
@[simp] theorem withRead_port_alloc (s : State) (v : Nat) : (withRead v s).port.alloc = s.port.alloc := rfl
@[simp] theorem withRead_port_arbWeight (s : State) (v : Nat) : (withRead v s).port.arbWeight = s.port.arbWeight := rfl
@[simp] theorem withRead_port_arbAge (s : State) (v : Nat) : (withRead v s).port.arbAge = s.port.arbAge := rfl
@[simp] theorem withRead_port_vfEnable (s : State) (v : Nat) : (withRead v s).port.vfEnable = s.port.vfEnable := rfl
@[simp] theorem withRead_port_numVfs (s : State) (v : Nat) : (withRead v s).port.numVfs = s.port.numVfs := rfl
@[simp] theorem withRead_port_msix (s : State) (v : Nat) : (withRead v s).port.msix = s.port.msix := rfl
@[simp] theorem withRead_port_streamAt (s : State) (v : Nat) : (withRead v s).port.streamAt = s.port.streamAt := rfl
@[simp] theorem withRead_port_streamDue (s : State) (v : Nat) : (withRead v s).port.streamDue = s.port.streamDue := rfl
@[simp] theorem withRead_port_trained (s : State) (v : Nat) : (withRead v s).port.trained = s.port.trained := rfl
@[simp] theorem withRead_port_readData (s : State) (v : Nat) : (withRead v s).port.readData = BitVec.ofNat 64 v := rfl
@[simp] theorem withRead_port_ageNow (s : State) (v : Nat) : (withRead v s).port.ageNow = s.port.ageNow := rfl
@[simp] theorem withRead_mbox (s : State) (v : Nat) : (withRead v s).mbox = s.mbox := rfl
@[simp] theorem withRead_dma (s : State) (v : Nat) : (withRead v s).dma = s.dma := rfl
@[simp] theorem withRead_net (s : State) (v : Nat) : (withRead v s).net = s.net := rfl
@[simp] theorem withRead_flt (s : State) (v : Nat) : (withRead v s).flt = s.flt := rfl
@[simp] theorem withRead_trace (s : State) (v : Nat) : (withRead v s).trace = s.trace := rfl
@[simp] theorem withRead_obj (s : State) (v : Nat) : (withRead v s).obj = s.obj := rfl
@[simp] theorem withRead_srv (s : State) (v : Nat) : (withRead v s).srv = s.srv := rfl
@[simp] theorem withRead_cores (s : State) (v : Nat) : (withRead v s).cores = s.cores := rfl
@[simp] theorem withRead_crews (s : State) (v : Nat) : (withRead v s).crews = s.crews := rfl
@[simp] theorem withRead_freeCtr (s : State) (v : Nat) : (withRead v s).freeCtr = s.freeCtr := rfl
@[simp] theorem withRead_pending (s : State) (v : Nat) : (withRead v s).pending = s.pending := rfl

/-! ### setChannel -/

@[simp] theorem setChannel_part (s : State) (c : Nat) (x : Channel) : (setChannel s c x).part = s.part := rfl
@[simp] theorem setChannel_pins (s : State) (c : Nat) (x : Channel) : (setChannel s c x).pins = s.pins := rfl
@[simp] theorem setChannel_boot (s : State) (c : Nat) (x : Channel) : (setChannel s c x).boot = s.boot := rfl
@[simp] theorem setChannel_clk (s : State) (c : Nat) (x : Channel) : (setChannel s c x).clk = s.clk := rfl
@[simp] theorem setChannel_cal (s : State) (c : Nat) (x : Channel) : (setChannel s c x).cal = s.cal := rfl
@[simp] theorem setChannel_gov (s : State) (c : Nat) (x : Channel) : (setChannel s c x).gov = s.gov := rfl
@[simp] theorem setChannel_mem (s : State) (c : Nat) (x : Channel) : (setChannel s c x).mem = s.mem := rfl
@[simp] theorem setChannel_port (s : State) (c : Nat) (x : Channel) : (setChannel s c x).port = s.port := rfl
@[simp] theorem setChannel_mbox (s : State) (c : Nat) (x : Channel) : (setChannel s c x).mbox = sset s.mbox c x := rfl
@[simp] theorem setChannel_dma (s : State) (c : Nat) (x : Channel) : (setChannel s c x).dma = s.dma := rfl
@[simp] theorem setChannel_net (s : State) (c : Nat) (x : Channel) : (setChannel s c x).net = s.net := rfl
@[simp] theorem setChannel_flt (s : State) (c : Nat) (x : Channel) : (setChannel s c x).flt = s.flt := rfl
@[simp] theorem setChannel_trace (s : State) (c : Nat) (x : Channel) : (setChannel s c x).trace = s.trace := rfl
@[simp] theorem setChannel_obj (s : State) (c : Nat) (x : Channel) : (setChannel s c x).obj = s.obj := rfl
@[simp] theorem setChannel_srv (s : State) (c : Nat) (x : Channel) : (setChannel s c x).srv = s.srv := rfl
@[simp] theorem setChannel_cores (s : State) (c : Nat) (x : Channel) : (setChannel s c x).cores = s.cores := rfl
@[simp] theorem setChannel_crews (s : State) (c : Nat) (x : Channel) : (setChannel s c x).crews = s.crews := rfl
@[simp] theorem setChannel_freeCtr (s : State) (c : Nat) (x : Channel) : (setChannel s c x).freeCtr = s.freeCtr := rfl
@[simp] theorem setChannel_pending (s : State) (c : Nat) (x : Channel) : (setChannel s c x).pending = s.pending := rfl

/-! ### setDma -/

@[simp] theorem setDma_part (s : State) (c : Nat) (x : Dma) : (setDma s c x).part = s.part := rfl
@[simp] theorem setDma_pins (s : State) (c : Nat) (x : Dma) : (setDma s c x).pins = s.pins := rfl
@[simp] theorem setDma_boot (s : State) (c : Nat) (x : Dma) : (setDma s c x).boot = s.boot := rfl
@[simp] theorem setDma_clk (s : State) (c : Nat) (x : Dma) : (setDma s c x).clk = s.clk := rfl
@[simp] theorem setDma_cal (s : State) (c : Nat) (x : Dma) : (setDma s c x).cal = s.cal := rfl
@[simp] theorem setDma_gov (s : State) (c : Nat) (x : Dma) : (setDma s c x).gov = s.gov := rfl
@[simp] theorem setDma_mem (s : State) (c : Nat) (x : Dma) : (setDma s c x).mem = s.mem := rfl
@[simp] theorem setDma_port (s : State) (c : Nat) (x : Dma) : (setDma s c x).port = s.port := rfl
@[simp] theorem setDma_mbox (s : State) (c : Nat) (x : Dma) : (setDma s c x).mbox = s.mbox := rfl
@[simp] theorem setDma_dma (s : State) (c : Nat) (x : Dma) : (setDma s c x).dma = sset s.dma c x := rfl
@[simp] theorem setDma_net (s : State) (c : Nat) (x : Dma) : (setDma s c x).net = s.net := rfl
@[simp] theorem setDma_flt (s : State) (c : Nat) (x : Dma) : (setDma s c x).flt = s.flt := rfl
@[simp] theorem setDma_trace (s : State) (c : Nat) (x : Dma) : (setDma s c x).trace = s.trace := rfl
@[simp] theorem setDma_obj (s : State) (c : Nat) (x : Dma) : (setDma s c x).obj = s.obj := rfl
@[simp] theorem setDma_srv (s : State) (c : Nat) (x : Dma) : (setDma s c x).srv = s.srv := rfl
@[simp] theorem setDma_cores (s : State) (c : Nat) (x : Dma) : (setDma s c x).cores = s.cores := rfl
@[simp] theorem setDma_crews (s : State) (c : Nat) (x : Dma) : (setDma s c x).crews = s.crews := rfl
@[simp] theorem setDma_freeCtr (s : State) (c : Nat) (x : Dma) : (setDma s c x).freeCtr = s.freeCtr := rfl
@[simp] theorem setDma_pending (s : State) (c : Nat) (x : Dma) : (setDma s c x).pending = s.pending := rfl

/-! ### setRegion -/

@[simp] theorem setRegion_part (s : State) (n : Nat) (r : Region) : (setRegion s n r).part = s.part := rfl
@[simp] theorem setRegion_pins (s : State) (n : Nat) (r : Region) : (setRegion s n r).pins = s.pins := rfl
@[simp] theorem setRegion_boot (s : State) (n : Nat) (r : Region) : (setRegion s n r).boot = s.boot := rfl
@[simp] theorem setRegion_clk (s : State) (n : Nat) (r : Region) : (setRegion s n r).clk = s.clk := rfl
@[simp] theorem setRegion_cal (s : State) (n : Nat) (r : Region) : (setRegion s n r).cal = s.cal := rfl
@[simp] theorem setRegion_gov (s : State) (n : Nat) (r : Region) : (setRegion s n r).gov = s.gov := rfl
@[simp] theorem setRegion_mem_ctl (s : State) (n : Nat) (r : Region) : (setRegion s n r).mem.ctl = s.mem.ctl := rfl
@[simp] theorem setRegion_mem_nearTrained (s : State) (n : Nat) (r : Region) : (setRegion s n r).mem.nearTrained = s.mem.nearTrained := rfl
@[simp] theorem setRegion_mem_mapValid (s : State) (n : Nat) (r : Region) : (setRegion s n r).mem.mapValid = s.mem.mapValid := rfl
@[simp] theorem setRegion_mem_fallback (s : State) (n : Nat) (r : Region) : (setRegion s n r).mem.fallback = s.mem.fallback := rfl
@[simp] theorem setRegion_mem_mapPorts (s : State) (n : Nat) (r : Region) : (setRegion s n r).mem.mapPorts = s.mem.mapPorts := rfl
@[simp] theorem setRegion_mem_mapInterleaved (s : State) (n : Nat) (r : Region) : (setRegion s n r).mem.mapInterleaved = s.mem.mapInterleaved := rfl
@[simp] theorem setRegion_mem_lastRegion (s : State) (n : Nat) (r : Region) : (setRegion s n r).mem.lastRegion = s.mem.lastRegion := rfl
@[simp] theorem setRegion_mem_result (s : State) (n : Nat) (r : Region) : (setRegion s n r).mem.result = s.mem.result := rfl
@[simp] theorem setRegion_mem_cfgIgnored (s : State) (n : Nat) (r : Region) : (setRegion s n r).mem.cfgIgnored = s.mem.cfgIgnored := rfl
@[simp] theorem setRegion_mem_cmdIgnored (s : State) (n : Nat) (r : Region) : (setRegion s n r).mem.cmdIgnored = s.mem.cmdIgnored := rfl
@[simp] theorem setRegion_mem_busy (s : State) (n : Nat) (r : Region) : (setRegion s n r).mem.busy = s.mem.busy := rfl
@[simp] theorem setRegion_mem_cmd (s : State) (n : Nat) (r : Region) : (setRegion s n r).mem.cmd = s.mem.cmd := rfl
@[simp] theorem setRegion_mem_regions (s : State) (n : Nat) (r : Region) : (setRegion s n r).mem.regions = sset s.mem.regions n r := rfl
@[simp] theorem setRegion_mem_ports (s : State) (n : Nat) (r : Region) : (setRegion s n r).mem.ports = s.mem.ports := rfl
@[simp] theorem setRegion_mem_far (s : State) (n : Nat) (r : Region) : (setRegion s n r).mem.far = s.mem.far := rfl
@[simp] theorem setRegion_mem_farPoison (s : State) (n : Nat) (r : Region) : (setRegion s n r).mem.farPoison = s.mem.farPoison := rfl
@[simp] theorem setRegion_mem_wb (s : State) (n : Nat) (r : Region) : (setRegion s n r).mem.wb = s.mem.wb := rfl
@[simp] theorem setRegion_mem_useClock (s : State) (n : Nat) (r : Region) : (setRegion s n r).mem.useClock = s.mem.useClock := rfl
@[simp] theorem setRegion_mem_host (s : State) (n : Nat) (r : Region) : (setRegion s n r).mem.host = s.mem.host := rfl
@[simp] theorem setRegion_mem_hostBad (s : State) (n : Nat) (r : Region) : (setRegion s n r).mem.hostBad = s.mem.hostBad := rfl
@[simp] theorem setRegion_mem_hostFail (s : State) (n : Nat) (r : Region) : (setRegion s n r).mem.hostFail = s.mem.hostFail := rfl
@[simp] theorem setRegion_port (s : State) (n : Nat) (r : Region) : (setRegion s n r).port = s.port := rfl
@[simp] theorem setRegion_mbox (s : State) (n : Nat) (r : Region) : (setRegion s n r).mbox = s.mbox := rfl
@[simp] theorem setRegion_dma (s : State) (n : Nat) (r : Region) : (setRegion s n r).dma = s.dma := rfl
@[simp] theorem setRegion_net (s : State) (n : Nat) (r : Region) : (setRegion s n r).net = s.net := rfl
@[simp] theorem setRegion_flt (s : State) (n : Nat) (r : Region) : (setRegion s n r).flt = s.flt := rfl
@[simp] theorem setRegion_trace (s : State) (n : Nat) (r : Region) : (setRegion s n r).trace = s.trace := rfl
@[simp] theorem setRegion_obj (s : State) (n : Nat) (r : Region) : (setRegion s n r).obj = s.obj := rfl
@[simp] theorem setRegion_srv (s : State) (n : Nat) (r : Region) : (setRegion s n r).srv = s.srv := rfl
@[simp] theorem setRegion_cores (s : State) (n : Nat) (r : Region) : (setRegion s n r).cores = s.cores := rfl
@[simp] theorem setRegion_crews (s : State) (n : Nat) (r : Region) : (setRegion s n r).crews = s.crews := rfl
@[simp] theorem setRegion_freeCtr (s : State) (n : Nat) (r : Region) : (setRegion s n r).freeCtr = s.freeCtr := rfl
@[simp] theorem setRegion_pending (s : State) (n : Nat) (r : Region) : (setRegion s n r).pending = s.pending := rfl

/-! ### setFarPort -/

@[simp] theorem setFarPort_part (s : State) (p : Nat) (x : FarPort) : (setFarPort s p x).part = s.part := rfl
@[simp] theorem setFarPort_pins (s : State) (p : Nat) (x : FarPort) : (setFarPort s p x).pins = s.pins := rfl
@[simp] theorem setFarPort_boot (s : State) (p : Nat) (x : FarPort) : (setFarPort s p x).boot = s.boot := rfl
@[simp] theorem setFarPort_clk (s : State) (p : Nat) (x : FarPort) : (setFarPort s p x).clk = s.clk := rfl
@[simp] theorem setFarPort_cal (s : State) (p : Nat) (x : FarPort) : (setFarPort s p x).cal = s.cal := rfl
@[simp] theorem setFarPort_gov (s : State) (p : Nat) (x : FarPort) : (setFarPort s p x).gov = s.gov := rfl
@[simp] theorem setFarPort_mem_ctl (s : State) (p : Nat) (x : FarPort) : (setFarPort s p x).mem.ctl = s.mem.ctl := rfl
@[simp] theorem setFarPort_mem_nearTrained (s : State) (p : Nat) (x : FarPort) : (setFarPort s p x).mem.nearTrained = s.mem.nearTrained := rfl
@[simp] theorem setFarPort_mem_mapValid (s : State) (p : Nat) (x : FarPort) : (setFarPort s p x).mem.mapValid = s.mem.mapValid := rfl
@[simp] theorem setFarPort_mem_fallback (s : State) (p : Nat) (x : FarPort) : (setFarPort s p x).mem.fallback = s.mem.fallback := rfl
@[simp] theorem setFarPort_mem_mapPorts (s : State) (p : Nat) (x : FarPort) : (setFarPort s p x).mem.mapPorts = s.mem.mapPorts := rfl
@[simp] theorem setFarPort_mem_mapInterleaved (s : State) (p : Nat) (x : FarPort) : (setFarPort s p x).mem.mapInterleaved = s.mem.mapInterleaved := rfl
@[simp] theorem setFarPort_mem_lastRegion (s : State) (p : Nat) (x : FarPort) : (setFarPort s p x).mem.lastRegion = s.mem.lastRegion := rfl
@[simp] theorem setFarPort_mem_result (s : State) (p : Nat) (x : FarPort) : (setFarPort s p x).mem.result = s.mem.result := rfl
@[simp] theorem setFarPort_mem_cfgIgnored (s : State) (p : Nat) (x : FarPort) : (setFarPort s p x).mem.cfgIgnored = s.mem.cfgIgnored := rfl
@[simp] theorem setFarPort_mem_cmdIgnored (s : State) (p : Nat) (x : FarPort) : (setFarPort s p x).mem.cmdIgnored = s.mem.cmdIgnored := rfl
@[simp] theorem setFarPort_mem_busy (s : State) (p : Nat) (x : FarPort) : (setFarPort s p x).mem.busy = s.mem.busy := rfl
@[simp] theorem setFarPort_mem_cmd (s : State) (p : Nat) (x : FarPort) : (setFarPort s p x).mem.cmd = s.mem.cmd := rfl
@[simp] theorem setFarPort_mem_regions (s : State) (p : Nat) (x : FarPort) : (setFarPort s p x).mem.regions = s.mem.regions := rfl
@[simp] theorem setFarPort_mem_ports (s : State) (p : Nat) (x : FarPort) : (setFarPort s p x).mem.ports = sset s.mem.ports p x := rfl
@[simp] theorem setFarPort_mem_far (s : State) (p : Nat) (x : FarPort) : (setFarPort s p x).mem.far = s.mem.far := rfl
@[simp] theorem setFarPort_mem_farPoison (s : State) (p : Nat) (x : FarPort) : (setFarPort s p x).mem.farPoison = s.mem.farPoison := rfl
@[simp] theorem setFarPort_mem_wb (s : State) (p : Nat) (x : FarPort) : (setFarPort s p x).mem.wb = s.mem.wb := rfl
@[simp] theorem setFarPort_mem_useClock (s : State) (p : Nat) (x : FarPort) : (setFarPort s p x).mem.useClock = s.mem.useClock := rfl
@[simp] theorem setFarPort_mem_host (s : State) (p : Nat) (x : FarPort) : (setFarPort s p x).mem.host = s.mem.host := rfl
@[simp] theorem setFarPort_mem_hostBad (s : State) (p : Nat) (x : FarPort) : (setFarPort s p x).mem.hostBad = s.mem.hostBad := rfl
@[simp] theorem setFarPort_mem_hostFail (s : State) (p : Nat) (x : FarPort) : (setFarPort s p x).mem.hostFail = s.mem.hostFail := rfl
@[simp] theorem setFarPort_port (s : State) (p : Nat) (x : FarPort) : (setFarPort s p x).port = s.port := rfl
@[simp] theorem setFarPort_mbox (s : State) (p : Nat) (x : FarPort) : (setFarPort s p x).mbox = s.mbox := rfl
@[simp] theorem setFarPort_dma (s : State) (p : Nat) (x : FarPort) : (setFarPort s p x).dma = s.dma := rfl
@[simp] theorem setFarPort_net (s : State) (p : Nat) (x : FarPort) : (setFarPort s p x).net = s.net := rfl
@[simp] theorem setFarPort_flt (s : State) (p : Nat) (x : FarPort) : (setFarPort s p x).flt = s.flt := rfl
@[simp] theorem setFarPort_trace (s : State) (p : Nat) (x : FarPort) : (setFarPort s p x).trace = s.trace := rfl
@[simp] theorem setFarPort_obj (s : State) (p : Nat) (x : FarPort) : (setFarPort s p x).obj = s.obj := rfl
@[simp] theorem setFarPort_srv (s : State) (p : Nat) (x : FarPort) : (setFarPort s p x).srv = s.srv := rfl
@[simp] theorem setFarPort_cores (s : State) (p : Nat) (x : FarPort) : (setFarPort s p x).cores = s.cores := rfl
@[simp] theorem setFarPort_crews (s : State) (p : Nat) (x : FarPort) : (setFarPort s p x).crews = s.crews := rfl
@[simp] theorem setFarPort_freeCtr (s : State) (p : Nat) (x : FarPort) : (setFarPort s p x).freeCtr = s.freeCtr := rfl
@[simp] theorem setFarPort_pending (s : State) (p : Nat) (x : FarPort) : (setFarPort s p x).pending = s.pending := rfl

/-! ### setCore -/

@[simp] theorem setCore_part (s : State) (n : Nat) (c : Core) : (setCore s n c).part = s.part := rfl
@[simp] theorem setCore_pins (s : State) (n : Nat) (c : Core) : (setCore s n c).pins = s.pins := rfl
@[simp] theorem setCore_boot (s : State) (n : Nat) (c : Core) : (setCore s n c).boot = s.boot := rfl
@[simp] theorem setCore_clk (s : State) (n : Nat) (c : Core) : (setCore s n c).clk = s.clk := rfl
@[simp] theorem setCore_cal (s : State) (n : Nat) (c : Core) : (setCore s n c).cal = s.cal := rfl
@[simp] theorem setCore_gov (s : State) (n : Nat) (c : Core) : (setCore s n c).gov = s.gov := rfl
@[simp] theorem setCore_mem (s : State) (n : Nat) (c : Core) : (setCore s n c).mem = s.mem := rfl
@[simp] theorem setCore_port (s : State) (n : Nat) (c : Core) : (setCore s n c).port = s.port := rfl
@[simp] theorem setCore_mbox (s : State) (n : Nat) (c : Core) : (setCore s n c).mbox = s.mbox := rfl
@[simp] theorem setCore_dma (s : State) (n : Nat) (c : Core) : (setCore s n c).dma = s.dma := rfl
@[simp] theorem setCore_net (s : State) (n : Nat) (c : Core) : (setCore s n c).net = s.net := rfl
@[simp] theorem setCore_flt (s : State) (n : Nat) (c : Core) : (setCore s n c).flt = s.flt := rfl
@[simp] theorem setCore_trace (s : State) (n : Nat) (c : Core) : (setCore s n c).trace = s.trace := rfl
@[simp] theorem setCore_obj (s : State) (n : Nat) (c : Core) : (setCore s n c).obj = s.obj := rfl
@[simp] theorem setCore_srv (s : State) (n : Nat) (c : Core) : (setCore s n c).srv = s.srv := rfl
@[simp] theorem setCore_cores (s : State) (n : Nat) (c : Core) : (setCore s n c).cores = sset s.cores n c := rfl
@[simp] theorem setCore_crews (s : State) (n : Nat) (c : Core) : (setCore s n c).crews = s.crews := rfl
@[simp] theorem setCore_freeCtr (s : State) (n : Nat) (c : Core) : (setCore s n c).freeCtr = s.freeCtr := rfl
@[simp] theorem setCore_pending (s : State) (n : Nat) (c : Core) : (setCore s n c).pending = s.pending := rfl

/-! ### setCrew -/

@[simp] theorem setCrew_part (s : State) (n : Nat) (c : Crew) : (setCrew s n c).part = s.part := rfl
@[simp] theorem setCrew_pins (s : State) (n : Nat) (c : Crew) : (setCrew s n c).pins = s.pins := rfl
@[simp] theorem setCrew_boot (s : State) (n : Nat) (c : Crew) : (setCrew s n c).boot = s.boot := rfl
@[simp] theorem setCrew_clk (s : State) (n : Nat) (c : Crew) : (setCrew s n c).clk = s.clk := rfl
@[simp] theorem setCrew_cal (s : State) (n : Nat) (c : Crew) : (setCrew s n c).cal = s.cal := rfl
@[simp] theorem setCrew_gov (s : State) (n : Nat) (c : Crew) : (setCrew s n c).gov = s.gov := rfl
@[simp] theorem setCrew_mem (s : State) (n : Nat) (c : Crew) : (setCrew s n c).mem = s.mem := rfl
@[simp] theorem setCrew_port (s : State) (n : Nat) (c : Crew) : (setCrew s n c).port = s.port := rfl
@[simp] theorem setCrew_mbox (s : State) (n : Nat) (c : Crew) : (setCrew s n c).mbox = s.mbox := rfl
@[simp] theorem setCrew_dma (s : State) (n : Nat) (c : Crew) : (setCrew s n c).dma = s.dma := rfl
@[simp] theorem setCrew_net (s : State) (n : Nat) (c : Crew) : (setCrew s n c).net = s.net := rfl
@[simp] theorem setCrew_flt (s : State) (n : Nat) (c : Crew) : (setCrew s n c).flt = s.flt := rfl
@[simp] theorem setCrew_trace (s : State) (n : Nat) (c : Crew) : (setCrew s n c).trace = s.trace := rfl
@[simp] theorem setCrew_obj (s : State) (n : Nat) (c : Crew) : (setCrew s n c).obj = s.obj := rfl
@[simp] theorem setCrew_srv (s : State) (n : Nat) (c : Crew) : (setCrew s n c).srv = s.srv := rfl
@[simp] theorem setCrew_cores (s : State) (n : Nat) (c : Crew) : (setCrew s n c).cores = s.cores := rfl
@[simp] theorem setCrew_crews (s : State) (n : Nat) (c : Crew) : (setCrew s n c).crews = sset s.crews n c := rfl
@[simp] theorem setCrew_freeCtr (s : State) (n : Nat) (c : Crew) : (setCrew s n c).freeCtr = s.freeCtr := rfl
@[simp] theorem setCrew_pending (s : State) (n : Nat) (c : Crew) : (setCrew s n c).pending = s.pending := rfl

/-! ### setNlPort -/

@[simp] theorem setNlPort_part (s : State) (p : Nat) (x : NlPort) : (setNlPort s p x).part = s.part := rfl
@[simp] theorem setNlPort_pins (s : State) (p : Nat) (x : NlPort) : (setNlPort s p x).pins = s.pins := rfl
@[simp] theorem setNlPort_boot (s : State) (p : Nat) (x : NlPort) : (setNlPort s p x).boot = s.boot := rfl
@[simp] theorem setNlPort_clk (s : State) (p : Nat) (x : NlPort) : (setNlPort s p x).clk = s.clk := rfl
@[simp] theorem setNlPort_cal (s : State) (p : Nat) (x : NlPort) : (setNlPort s p x).cal = s.cal := rfl
@[simp] theorem setNlPort_gov (s : State) (p : Nat) (x : NlPort) : (setNlPort s p x).gov = s.gov := rfl
@[simp] theorem setNlPort_mem (s : State) (p : Nat) (x : NlPort) : (setNlPort s p x).mem = s.mem := rfl
@[simp] theorem setNlPort_port (s : State) (p : Nat) (x : NlPort) : (setNlPort s p x).port = s.port := rfl
@[simp] theorem setNlPort_mbox (s : State) (p : Nat) (x : NlPort) : (setNlPort s p x).mbox = s.mbox := rfl
@[simp] theorem setNlPort_dma (s : State) (p : Nat) (x : NlPort) : (setNlPort s p x).dma = s.dma := rfl
@[simp] theorem setNlPort_net_ports (s : State) (p : Nat) (x : NlPort) : (setNlPort s p x).net.ports = sset s.net.ports p x := rfl
@[simp] theorem setNlPort_net_regattaId (s : State) (p : Nat) (x : NlPort) : (setNlPort s p x).net.regattaId = s.net.regattaId := rfl
@[simp] theorem setNlPort_net_timeMaster (s : State) (p : Nat) (x : NlPort) : (setNlPort s p x).net.timeMaster = s.net.timeMaster := rfl
@[simp] theorem setNlPort_net_pkgNum (s : State) (p : Nat) (x : NlPort) : (setNlPort s p x).net.pkgNum = s.net.pkgNum := rfl
@[simp] theorem setNlPort_net_epoch (s : State) (p : Nat) (x : NlPort) : (setNlPort s p x).net.epoch = s.net.epoch := rfl
@[simp] theorem setNlPort_net_members (s : State) (p : Nat) (x : NlPort) : (setNlPort s p x).net.members = s.net.members := rfl
@[simp] theorem setNlPort_net_leader (s : State) (p : Nat) (x : NlPort) : (setNlPort s p x).net.leader = s.net.leader := rfl
@[simp] theorem setNlPort_net_joinResult (s : State) (p : Nat) (x : NlPort) : (setNlPort s p x).net.joinResult = s.net.joinResult := rfl
@[simp] theorem setNlPort_net_st (s : State) (p : Nat) (x : NlPort) : (setNlPort s p x).net.st = s.net.st := rfl
@[simp] theorem setNlPort_net_joinAt (s : State) (p : Nat) (x : NlPort) : (setNlPort s p x).net.joinAt = s.net.joinAt := rfl
@[simp] theorem setNlPort_net_masters (s : State) (p : Nat) (x : NlPort) : (setNlPort s p x).net.masters = s.net.masters := rfl
@[simp] theorem setNlPort_net_changes (s : State) (p : Nat) (x : NlPort) : (setNlPort s p x).net.changes = s.net.changes := rfl
@[simp] theorem setNlPort_net_nextEpoch (s : State) (p : Nat) (x : NlPort) : (setNlPort s p x).net.nextEpoch = s.net.nextEpoch := rfl
@[simp] theorem setNlPort_net_stepped (s : State) (p : Nat) (x : NlPort) : (setNlPort s p x).net.stepped = s.net.stepped := rfl
@[simp] theorem setNlPort_net_shellId (s : State) (p : Nat) (x : NlPort) : (setNlPort s p x).net.shellId = s.net.shellId := rfl
@[simp] theorem setNlPort_net_memberCount (s : State) (p : Nat) (x : NlPort) : (setNlPort s p x).net.memberCount = s.net.memberCount := rfl
@[simp] theorem setNlPort_net_myMember (s : State) (p : Nat) (x : NlPort) : (setNlPort s p x).net.myMember = s.net.myMember := rfl
@[simp] theorem setNlPort_net_shell (s : State) (p : Nat) (x : NlPort) : (setNlPort s p x).net.shell = s.net.shell := rfl
@[simp] theorem setNlPort_net_shellPkgs (s : State) (p : Nat) (x : NlPort) : (setNlPort s p x).net.shellPkgs = s.net.shellPkgs := rfl
@[simp] theorem setNlPort_net_joined (s : State) (p : Nat) (x : NlPort) : (setNlPort s p x).net.joined = s.net.joined := rfl
@[simp] theorem setNlPort_net_joinLimit (s : State) (p : Nat) (x : NlPort) : (setNlPort s p x).net.joinLimit = s.net.joinLimit := rfl
@[simp] theorem setNlPort_net_readyMembers (s : State) (p : Nat) (x : NlPort) : (setNlPort s p x).net.readyMembers = s.net.readyMembers := rfl
@[simp] theorem setNlPort_net_restarts (s : State) (p : Nat) (x : NlPort) : (setNlPort s p x).net.restarts = s.net.restarts := rfl
@[simp] theorem setNlPort_net_offsetNs (s : State) (p : Nat) (x : NlPort) : (setNlPort s p x).net.offsetNs = s.net.offsetNs := rfl
@[simp] theorem setNlPort_net_master (s : State) (p : Nat) (x : NlPort) : (setNlPort s p x).net.master = s.net.master := rfl
@[simp] theorem setNlPort_net_locked (s : State) (p : Nat) (x : NlPort) : (setNlPort s p x).net.locked = s.net.locked := rfl
@[simp] theorem setNlPort_net_goodExchanges (s : State) (p : Nat) (x : NlPort) : (setNlPort s p x).net.goodExchanges = s.net.goodExchanges := rfl
@[simp] theorem setNlPort_net_route (s : State) (p : Nat) (x : NlPort) : (setNlPort s p x).net.route = s.net.route := rfl
@[simp] theorem setNlPort_net_rotate (s : State) (p : Nat) (x : NlPort) : (setNlPort s p x).net.rotate = s.net.rotate := rfl
@[simp] theorem setNlPort_net_txSeq (s : State) (p : Nat) (x : NlPort) : (setNlPort s p x).net.txSeq = s.net.txSeq := rfl
@[simp] theorem setNlPort_net_rxSeq (s : State) (p : Nat) (x : NlPort) : (setNlPort s p x).net.rxSeq = s.net.rxSeq := rfl
@[simp] theorem setNlPort_net_unacked (s : State) (p : Nat) (x : NlPort) : (setNlPort s p x).net.unacked = s.net.unacked := rfl
@[simp] theorem setNlPort_net_early (s : State) (p : Nat) (x : NlPort) : (setNlPort s p x).net.early = s.net.early := rfl
@[simp] theorem setNlPort_net_delivered (s : State) (p : Nat) (x : NlPort) : (setNlPort s p x).net.delivered = s.net.delivered := rfl
@[simp] theorem setNlPort_net_sent (s : State) (p : Nat) (x : NlPort) : (setNlPort s p x).net.sent = s.net.sent := rfl
@[simp] theorem setNlPort_net_learned (s : State) (p : Nat) (x : NlPort) : (setNlPort s p x).net.learned = s.net.learned := rfl
@[simp] theorem setNlPort_net_heard (s : State) (p : Nat) (x : NlPort) : (setNlPort s p x).net.heard = s.net.heard := rfl
@[simp] theorem setNlPort_net_timeStamps (s : State) (p : Nat) (x : NlPort) : (setNlPort s p x).net.timeStamps = s.net.timeStamps := rfl
@[simp] theorem setNlPort_flt (s : State) (p : Nat) (x : NlPort) : (setNlPort s p x).flt = s.flt := rfl
@[simp] theorem setNlPort_trace (s : State) (p : Nat) (x : NlPort) : (setNlPort s p x).trace = s.trace := rfl
@[simp] theorem setNlPort_obj (s : State) (p : Nat) (x : NlPort) : (setNlPort s p x).obj = s.obj := rfl
@[simp] theorem setNlPort_srv (s : State) (p : Nat) (x : NlPort) : (setNlPort s p x).srv = s.srv := rfl
@[simp] theorem setNlPort_cores (s : State) (p : Nat) (x : NlPort) : (setNlPort s p x).cores = s.cores := rfl
@[simp] theorem setNlPort_crews (s : State) (p : Nat) (x : NlPort) : (setNlPort s p x).crews = s.crews := rfl
@[simp] theorem setNlPort_freeCtr (s : State) (p : Nat) (x : NlPort) : (setNlPort s p x).freeCtr = s.freeCtr := rfl
@[simp] theorem setNlPort_pending (s : State) (p : Nat) (x : NlPort) : (setNlPort s p x).pending = s.pending := rfl

/-! ### setSlot -/

@[simp] theorem setSlot_part (s : State) (n : Nat) (r : Request) : (setSlot s n r).part = s.part := rfl
@[simp] theorem setSlot_pins (s : State) (n : Nat) (r : Request) : (setSlot s n r).pins = s.pins := rfl
@[simp] theorem setSlot_boot (s : State) (n : Nat) (r : Request) : (setSlot s n r).boot = s.boot := rfl
@[simp] theorem setSlot_clk (s : State) (n : Nat) (r : Request) : (setSlot s n r).clk = s.clk := rfl
@[simp] theorem setSlot_cal (s : State) (n : Nat) (r : Request) : (setSlot s n r).cal = s.cal := rfl
@[simp] theorem setSlot_gov (s : State) (n : Nat) (r : Request) : (setSlot s n r).gov = s.gov := rfl
@[simp] theorem setSlot_mem (s : State) (n : Nat) (r : Request) : (setSlot s n r).mem = s.mem := rfl
@[simp] theorem setSlot_port (s : State) (n : Nat) (r : Request) : (setSlot s n r).port = s.port := rfl
@[simp] theorem setSlot_mbox (s : State) (n : Nat) (r : Request) : (setSlot s n r).mbox = s.mbox := rfl
@[simp] theorem setSlot_dma (s : State) (n : Nat) (r : Request) : (setSlot s n r).dma = s.dma := rfl
@[simp] theorem setSlot_net (s : State) (n : Nat) (r : Request) : (setSlot s n r).net = s.net := rfl
@[simp] theorem setSlot_flt (s : State) (n : Nat) (r : Request) : (setSlot s n r).flt = s.flt := rfl
@[simp] theorem setSlot_trace (s : State) (n : Nat) (r : Request) : (setSlot s n r).trace = s.trace := rfl
@[simp] theorem setSlot_obj (s : State) (n : Nat) (r : Request) : (setSlot s n r).obj = s.obj := rfl
@[simp] theorem setSlot_srv_slots (s : State) (n : Nat) (r : Request) : (setSlot s n r).srv.slots = sset s.srv.slots n r := rfl
@[simp] theorem setSlot_srv_fetchSeq (s : State) (n : Nat) (r : Request) : (setSlot s n r).srv.fetchSeq = s.srv.fetchSeq := rfl
@[simp] theorem setSlot_srv_holds (s : State) (n : Nat) (r : Request) : (setSlot s n r).srv.holds = s.srv.holds := rfl
@[simp] theorem setSlot_srv_strokeTargetUs (s : State) (n : Nat) (r : Request) : (setSlot s n r).srv.strokeTargetUs = s.srv.strokeTargetUs := rfl
@[simp] theorem setSlot_srv_pageWait (s : State) (n : Nat) (r : Request) : (setSlot s n r).srv.pageWait = s.srv.pageWait := rfl
@[simp] theorem setSlot_srv_partitions (s : State) (n : Nat) (r : Request) : (setSlot s n r).srv.partitions = s.srv.partitions := rfl
@[simp] theorem setSlot_srv_kvPoolMib (s : State) (n : Nat) (r : Request) : (setSlot s n r).srv.kvPoolMib = s.srv.kvPoolMib := rfl
@[simp] theorem setSlot_srv_bhRegion (s : State) (n : Nat) (r : Request) : (setSlot s n r).srv.bhRegion = s.srv.bhRegion := rfl
@[simp] theorem setSlot_srv_bhTtl (s : State) (n : Nat) (r : Request) : (setSlot s n r).srv.bhTtl = s.srv.bhTtl := rfl
@[simp] theorem setSlot_srv_bhSize (s : State) (n : Nat) (r : Request) : (setSlot s n r).srv.bhSize = s.srv.bhSize := rfl
@[simp] theorem setSlot_srv_bhMaxSlots (s : State) (n : Nat) (r : Request) : (setSlot s n r).srv.bhMaxSlots = s.srv.bhMaxSlots := rfl
@[simp] theorem setSlot_srv_convs (s : State) (n : Nat) (r : Request) : (setSlot s n r).srv.convs = s.srv.convs := rfl
@[simp] theorem setSlot_srv_recent (s : State) (n : Nat) (r : Request) : (setSlot s n r).srv.recent = s.srv.recent := rfl
@[simp] theorem setSlot_srv_strokeNo (s : State) (n : Nat) (r : Request) : (setSlot s n r).srv.strokeNo = s.srv.strokeNo := rfl
@[simp] theorem setSlot_srv_strokeSince (s : State) (n : Nat) (r : Request) : (setSlot s n r).srv.strokeSince = s.srv.strokeSince := rfl
@[simp] theorem setSlot_srv_admitted (s : State) (n : Nat) (r : Request) : (setSlot s n r).srv.admitted = s.srv.admitted := rfl
@[simp] theorem setSlot_srv_releasing (s : State) (n : Nat) (r : Request) : (setSlot s n r).srv.releasing = s.srv.releasing := rfl
@[simp] theorem setSlot_cores (s : State) (n : Nat) (r : Request) : (setSlot s n r).cores = s.cores := rfl
@[simp] theorem setSlot_crews (s : State) (n : Nat) (r : Request) : (setSlot s n r).crews = s.crews := rfl
@[simp] theorem setSlot_freeCtr (s : State) (n : Nat) (r : Request) : (setSlot s n r).freeCtr = s.freeCtr := rfl
@[simp] theorem setSlot_pending (s : State) (n : Nat) (r : Request) : (setSlot s n r).pending = s.pending := rfl

/-! ### freeSlot -/

@[simp] theorem freeSlot_part (s : State) (n : Nat) : (freeSlot s n).part = s.part := rfl
@[simp] theorem freeSlot_pins (s : State) (n : Nat) : (freeSlot s n).pins = s.pins := rfl
@[simp] theorem freeSlot_boot (s : State) (n : Nat) : (freeSlot s n).boot = s.boot := rfl
@[simp] theorem freeSlot_clk (s : State) (n : Nat) : (freeSlot s n).clk = s.clk := rfl
@[simp] theorem freeSlot_cal (s : State) (n : Nat) : (freeSlot s n).cal = s.cal := rfl
@[simp] theorem freeSlot_gov (s : State) (n : Nat) : (freeSlot s n).gov = s.gov := rfl
@[simp] theorem freeSlot_mem (s : State) (n : Nat) : (freeSlot s n).mem = s.mem := rfl
@[simp] theorem freeSlot_port (s : State) (n : Nat) : (freeSlot s n).port = s.port := rfl
@[simp] theorem freeSlot_mbox (s : State) (n : Nat) : (freeSlot s n).mbox = s.mbox := rfl
@[simp] theorem freeSlot_dma (s : State) (n : Nat) : (freeSlot s n).dma = s.dma := rfl
@[simp] theorem freeSlot_net (s : State) (n : Nat) : (freeSlot s n).net = s.net := rfl
@[simp] theorem freeSlot_flt (s : State) (n : Nat) : (freeSlot s n).flt = s.flt := rfl
@[simp] theorem freeSlot_trace (s : State) (n : Nat) : (freeSlot s n).trace = s.trace := rfl
@[simp] theorem freeSlot_obj (s : State) (n : Nat) : (freeSlot s n).obj = s.obj := rfl
@[simp] theorem freeSlot_srv_slots (s : State) (n : Nat) : (freeSlot s n).srv.slots = serase s.srv.slots n := rfl
@[simp] theorem freeSlot_srv_fetchSeq (s : State) (n : Nat) : (freeSlot s n).srv.fetchSeq = s.srv.fetchSeq := rfl
@[simp] theorem freeSlot_srv_holds (s : State) (n : Nat) : (freeSlot s n).srv.holds = s.srv.holds := rfl
@[simp] theorem freeSlot_srv_strokeTargetUs (s : State) (n : Nat) : (freeSlot s n).srv.strokeTargetUs = s.srv.strokeTargetUs := rfl
@[simp] theorem freeSlot_srv_pageWait (s : State) (n : Nat) : (freeSlot s n).srv.pageWait = s.srv.pageWait := rfl
@[simp] theorem freeSlot_srv_partitions (s : State) (n : Nat) : (freeSlot s n).srv.partitions = s.srv.partitions := rfl
@[simp] theorem freeSlot_srv_kvPoolMib (s : State) (n : Nat) : (freeSlot s n).srv.kvPoolMib = s.srv.kvPoolMib := rfl
@[simp] theorem freeSlot_srv_bhRegion (s : State) (n : Nat) : (freeSlot s n).srv.bhRegion = s.srv.bhRegion := rfl
@[simp] theorem freeSlot_srv_bhTtl (s : State) (n : Nat) : (freeSlot s n).srv.bhTtl = s.srv.bhTtl := rfl
@[simp] theorem freeSlot_srv_bhSize (s : State) (n : Nat) : (freeSlot s n).srv.bhSize = s.srv.bhSize := rfl
@[simp] theorem freeSlot_srv_bhMaxSlots (s : State) (n : Nat) : (freeSlot s n).srv.bhMaxSlots = s.srv.bhMaxSlots := rfl
@[simp] theorem freeSlot_srv_convs (s : State) (n : Nat) : (freeSlot s n).srv.convs = s.srv.convs := rfl
@[simp] theorem freeSlot_srv_recent (s : State) (n : Nat) : (freeSlot s n).srv.recent = s.srv.recent := rfl
@[simp] theorem freeSlot_srv_strokeNo (s : State) (n : Nat) : (freeSlot s n).srv.strokeNo = s.srv.strokeNo := rfl
@[simp] theorem freeSlot_srv_strokeSince (s : State) (n : Nat) : (freeSlot s n).srv.strokeSince = s.srv.strokeSince := rfl
@[simp] theorem freeSlot_srv_admitted (s : State) (n : Nat) : (freeSlot s n).srv.admitted = s.srv.admitted := rfl
@[simp] theorem freeSlot_srv_releasing (s : State) (n : Nat) : (freeSlot s n).srv.releasing = s.srv.releasing := rfl
@[simp] theorem freeSlot_cores (s : State) (n : Nat) : (freeSlot s n).cores = s.cores := rfl
@[simp] theorem freeSlot_crews (s : State) (n : Nat) : (freeSlot s n).crews = s.crews := rfl
@[simp] theorem freeSlot_freeCtr (s : State) (n : Nat) : (freeSlot s n).freeCtr = s.freeCtr := rfl
@[simp] theorem freeSlot_pending (s : State) (n : Nat) : (freeSlot s n).pending = s.pending := rfl

/-! ### hostWrite -/

@[simp] theorem hostWrite_part (s : State) (a : Nat) (bs : List Byte) : (hostWrite s a bs).part = s.part := rfl
@[simp] theorem hostWrite_pins (s : State) (a : Nat) (bs : List Byte) : (hostWrite s a bs).pins = s.pins := rfl
@[simp] theorem hostWrite_boot (s : State) (a : Nat) (bs : List Byte) : (hostWrite s a bs).boot = s.boot := rfl
@[simp] theorem hostWrite_clk (s : State) (a : Nat) (bs : List Byte) : (hostWrite s a bs).clk = s.clk := rfl
@[simp] theorem hostWrite_cal (s : State) (a : Nat) (bs : List Byte) : (hostWrite s a bs).cal = s.cal := rfl
@[simp] theorem hostWrite_gov (s : State) (a : Nat) (bs : List Byte) : (hostWrite s a bs).gov = s.gov := rfl
@[simp] theorem hostWrite_mem_ctl (s : State) (a : Nat) (bs : List Byte) : (hostWrite s a bs).mem.ctl = s.mem.ctl := rfl
@[simp] theorem hostWrite_mem_nearTrained (s : State) (a : Nat) (bs : List Byte) : (hostWrite s a bs).mem.nearTrained = s.mem.nearTrained := rfl
@[simp] theorem hostWrite_mem_mapValid (s : State) (a : Nat) (bs : List Byte) : (hostWrite s a bs).mem.mapValid = s.mem.mapValid := rfl
@[simp] theorem hostWrite_mem_fallback (s : State) (a : Nat) (bs : List Byte) : (hostWrite s a bs).mem.fallback = s.mem.fallback := rfl
@[simp] theorem hostWrite_mem_mapPorts (s : State) (a : Nat) (bs : List Byte) : (hostWrite s a bs).mem.mapPorts = s.mem.mapPorts := rfl
@[simp] theorem hostWrite_mem_mapInterleaved (s : State) (a : Nat) (bs : List Byte) : (hostWrite s a bs).mem.mapInterleaved = s.mem.mapInterleaved := rfl
@[simp] theorem hostWrite_mem_lastRegion (s : State) (a : Nat) (bs : List Byte) : (hostWrite s a bs).mem.lastRegion = s.mem.lastRegion := rfl
@[simp] theorem hostWrite_mem_result (s : State) (a : Nat) (bs : List Byte) : (hostWrite s a bs).mem.result = s.mem.result := rfl
@[simp] theorem hostWrite_mem_cfgIgnored (s : State) (a : Nat) (bs : List Byte) : (hostWrite s a bs).mem.cfgIgnored = s.mem.cfgIgnored := rfl
@[simp] theorem hostWrite_mem_cmdIgnored (s : State) (a : Nat) (bs : List Byte) : (hostWrite s a bs).mem.cmdIgnored = s.mem.cmdIgnored := rfl
@[simp] theorem hostWrite_mem_busy (s : State) (a : Nat) (bs : List Byte) : (hostWrite s a bs).mem.busy = s.mem.busy := rfl
@[simp] theorem hostWrite_mem_cmd (s : State) (a : Nat) (bs : List Byte) : (hostWrite s a bs).mem.cmd = s.mem.cmd := rfl
@[simp] theorem hostWrite_mem_regions (s : State) (a : Nat) (bs : List Byte) : (hostWrite s a bs).mem.regions = s.mem.regions := rfl
@[simp] theorem hostWrite_mem_ports (s : State) (a : Nat) (bs : List Byte) : (hostWrite s a bs).mem.ports = s.mem.ports := rfl
@[simp] theorem hostWrite_mem_far (s : State) (a : Nat) (bs : List Byte) : (hostWrite s a bs).mem.far = s.mem.far := rfl
@[simp] theorem hostWrite_mem_farPoison (s : State) (a : Nat) (bs : List Byte) : (hostWrite s a bs).mem.farPoison = s.mem.farPoison := rfl
@[simp] theorem hostWrite_mem_wb (s : State) (a : Nat) (bs : List Byte) : (hostWrite s a bs).mem.wb = s.mem.wb := rfl
@[simp] theorem hostWrite_mem_useClock (s : State) (a : Nat) (bs : List Byte) : (hostWrite s a bs).mem.useClock = s.mem.useClock := rfl
@[simp] theorem hostWrite_mem_host (s : State) (a : Nat) (bs : List Byte) : (hostWrite s a bs).mem.host = writeBytes s.mem.host a bs := rfl
@[simp] theorem hostWrite_mem_hostBad (s : State) (a : Nat) (bs : List Byte) : (hostWrite s a bs).mem.hostBad = s.mem.hostBad.filter (fun r => !(decide (a ≤ r.1) && decide (r.1 + r.2 ≤ a + bs.length))) := rfl
@[simp] theorem hostWrite_mem_hostFail (s : State) (a : Nat) (bs : List Byte) : (hostWrite s a bs).mem.hostFail = s.mem.hostFail := rfl
@[simp] theorem hostWrite_port (s : State) (a : Nat) (bs : List Byte) : (hostWrite s a bs).port = s.port := rfl
@[simp] theorem hostWrite_mbox (s : State) (a : Nat) (bs : List Byte) : (hostWrite s a bs).mbox = s.mbox := rfl
@[simp] theorem hostWrite_dma (s : State) (a : Nat) (bs : List Byte) : (hostWrite s a bs).dma = s.dma := rfl
@[simp] theorem hostWrite_net (s : State) (a : Nat) (bs : List Byte) : (hostWrite s a bs).net = s.net := rfl
@[simp] theorem hostWrite_flt (s : State) (a : Nat) (bs : List Byte) : (hostWrite s a bs).flt = s.flt := rfl
@[simp] theorem hostWrite_trace (s : State) (a : Nat) (bs : List Byte) : (hostWrite s a bs).trace = s.trace := rfl
@[simp] theorem hostWrite_obj (s : State) (a : Nat) (bs : List Byte) : (hostWrite s a bs).obj = s.obj := rfl
@[simp] theorem hostWrite_srv (s : State) (a : Nat) (bs : List Byte) : (hostWrite s a bs).srv = s.srv := rfl
@[simp] theorem hostWrite_cores (s : State) (a : Nat) (bs : List Byte) : (hostWrite s a bs).cores = s.cores := rfl
@[simp] theorem hostWrite_crews (s : State) (a : Nat) (bs : List Byte) : (hostWrite s a bs).crews = s.crews := rfl
@[simp] theorem hostWrite_freeCtr (s : State) (a : Nat) (bs : List Byte) : (hostWrite s a bs).freeCtr = s.freeCtr := rfl
@[simp] theorem hostWrite_pending (s : State) (a : Nat) (bs : List Byte) : (hostWrite s a bs).pending = s.pending := rfl

/-! ### withCal -/

@[simp] theorem withCal_part (s : State) (c : Cal) : (withCal c s).part = s.part := rfl
@[simp] theorem withCal_pins (s : State) (c : Cal) : (withCal c s).pins = s.pins := rfl
@[simp] theorem withCal_boot (s : State) (c : Cal) : (withCal c s).boot = s.boot := rfl
@[simp] theorem withCal_clk (s : State) (c : Cal) : (withCal c s).clk = s.clk := rfl
@[simp] theorem withCal_cal (s : State) (c : Cal) : (withCal c s).cal = c := rfl
@[simp] theorem withCal_gov (s : State) (c : Cal) : (withCal c s).gov = s.gov := rfl
@[simp] theorem withCal_mem (s : State) (c : Cal) : (withCal c s).mem = s.mem := rfl
@[simp] theorem withCal_port (s : State) (c : Cal) : (withCal c s).port = s.port := rfl
@[simp] theorem withCal_mbox (s : State) (c : Cal) : (withCal c s).mbox = s.mbox := rfl
@[simp] theorem withCal_dma (s : State) (c : Cal) : (withCal c s).dma = s.dma := rfl
@[simp] theorem withCal_net (s : State) (c : Cal) : (withCal c s).net = s.net := rfl
@[simp] theorem withCal_flt (s : State) (c : Cal) : (withCal c s).flt = s.flt := rfl
@[simp] theorem withCal_trace (s : State) (c : Cal) : (withCal c s).trace = s.trace := rfl
@[simp] theorem withCal_obj (s : State) (c : Cal) : (withCal c s).obj = s.obj := rfl
@[simp] theorem withCal_srv (s : State) (c : Cal) : (withCal c s).srv = s.srv := rfl
@[simp] theorem withCal_cores (s : State) (c : Cal) : (withCal c s).cores = s.cores := rfl
@[simp] theorem withCal_crews (s : State) (c : Cal) : (withCal c s).crews = s.crews := rfl
@[simp] theorem withCal_freeCtr (s : State) (c : Cal) : (withCal c s).freeCtr = s.freeCtr := rfl
@[simp] theorem withCal_pending (s : State) (c : Cal) : (withCal c s).pending = s.pending := rfl

/-! ### takeFree -/

@[simp] theorem takeFree_part (s : State) : (takeFree s).2.part = s.part := rfl
@[simp] theorem takeFree_pins (s : State) : (takeFree s).2.pins = s.pins := rfl
@[simp] theorem takeFree_boot (s : State) : (takeFree s).2.boot = s.boot := rfl
@[simp] theorem takeFree_clk (s : State) : (takeFree s).2.clk = s.clk := rfl
@[simp] theorem takeFree_cal (s : State) : (takeFree s).2.cal = s.cal := rfl
@[simp] theorem takeFree_gov (s : State) : (takeFree s).2.gov = s.gov := rfl
@[simp] theorem takeFree_mem (s : State) : (takeFree s).2.mem = s.mem := rfl
@[simp] theorem takeFree_port (s : State) : (takeFree s).2.port = s.port := rfl
@[simp] theorem takeFree_mbox (s : State) : (takeFree s).2.mbox = s.mbox := rfl
@[simp] theorem takeFree_dma (s : State) : (takeFree s).2.dma = s.dma := rfl
@[simp] theorem takeFree_net (s : State) : (takeFree s).2.net = s.net := rfl
@[simp] theorem takeFree_flt (s : State) : (takeFree s).2.flt = s.flt := rfl
@[simp] theorem takeFree_trace (s : State) : (takeFree s).2.trace = s.trace := rfl
@[simp] theorem takeFree_obj (s : State) : (takeFree s).2.obj = s.obj := rfl
@[simp] theorem takeFree_srv (s : State) : (takeFree s).2.srv = s.srv := rfl
@[simp] theorem takeFree_cores (s : State) : (takeFree s).2.cores = s.cores := rfl
@[simp] theorem takeFree_crews (s : State) : (takeFree s).2.crews = s.crews := rfl
@[simp] theorem takeFree_freeCtr (s : State) : (takeFree s).2.freeCtr = s.freeCtr + 1 := rfl
@[simp] theorem takeFree_pending (s : State) : (takeFree s).2.pending = s.pending := rfl
@[simp] theorem takeFree_fst (s : State) : (takeFree s).1 = s.freeCtr := rfl

end Sys2Proof.Machine
end

