-- ==== Sys2Proof/Laws/Lane.lean ====
section
/-!
SUPPORT. What the shared operations of the vector engine do: reading a core or a crew after it was set, putting an engine back, writing a vector
register, and the one shape of every lane instruction's answer.
-/

namespace Sys2Proof.Machine

open Sys2Proof

@[simp] theorem coreOf_setCore_self (s : State) (n : Nat) (c : Core) : coreOf (setCore s n c) n = c := by simp [coreOf]

theorem coreOf_setCore_other (s : State) (n m : Nat) (c : Core) (h : m ≠ n) : coreOf (setCore s n c) m = coreOf s m := by
  simp [coreOf, sgetD_sset_other _ _ _ _ _ h]

@[simp] theorem crewOf_setCrew_self (s : State) (n : Nat) (c : Crew) : crewOf (setCrew s n c) n = c := by simp [crewOf]

theorem crewOf_setCrew_other (s : State) (n m : Nat) (c : Crew) (h : m ≠ n) : crewOf (setCrew s n c) m = crewOf s m := by
  simp [crewOf, sgetD_sset_other _ _ _ _ _ h]

@[simp] theorem crewOf_setCore (s : State) (n m : Nat) (c : Core) : crewOf (setCore s n c) m = crewOf s m := rfl

@[simp] theorem coreOf_setCrew (s : State) (n m : Nat) (c : Crew) : coreOf (setCrew s n c) m = coreOf s m := rfl

@[simp] theorem coreOf_setSlot (s : State) (n m : Nat) (r : Request) : coreOf (setSlot s n r) m = coreOf s m := rfl

@[simp] theorem slotOf_setCore (s : State) (n m : Nat) (c : Core) : slotOf (setCore s n c) m = slotOf s m := rfl

@[simp] theorem slotOf_setSlot_self (s : State) (n : Nat) (r : Request) : slotOf (setSlot s n r) n = some r := by simp [slotOf]

theorem slotOf_setSlot_other (s : State) (n m : Nat) (r : Request) (h : m ≠ n) : slotOf (setSlot s n r) m = slotOf s m := by
  simp [slotOf, slookup_sset_other _ _ _ _ h]

/-- The sync objects of a run touch crews alone. -/
@[simp] theorem coreOf_mirrorSyncs (slot run : Nat) (sync : Sparse Nat) (s : State) (m : Nat) :
    coreOf (mirrorSyncs slot run sync s) m = coreOf s m := rfl

@[simp] theorem slotOf_mirrorSyncs (slot run : Nat) (sync : Sparse Nat) (s : State) (m : Nat) :
    slotOf (mirrorSyncs slot run sync s) m = slotOf s m := rfl

/-- An engine put back is its core's, whatever else it changed. -/
@[simp] theorem coreOf_storeEng_self (s : State) (n : Nat) (x : Eng) : coreOf (storeEng s n x) n = x.core := by
  unfold storeEng
  split
  · split
    · simp only []
      split <;> simp
    · simp
  · simp

theorem coreOf_storeEng_other (s : State) (n m : Nat) (x : Eng) (h : m ≠ n) : coreOf (storeEng s n x) m = coreOf s m := by
  unfold storeEng
  split
  · split
    · simp only []
      split <;> simp [coreOf_setCore_other s n m _ h]
    · simp [coreOf_setCore_other s n m _ h]
  · simp [coreOf_setCore_other s n m _ h]

/-- Putting an engine back touches the core, the running unit's slot and the crew's sync objects, and nothing else of the package. -/
theorem storeEng_rest (s : State) (n : Nat) (x : Eng) :
    storeEng s n x = { s with cores := (storeEng s n x).cores, crews := (storeEng s n x).crews, srv := (storeEng s n x).srv }
      ∧ { (storeEng s n x).srv with slots := s.srv.slots } = s.srv := by
  unfold storeEng
  split
  · split
    · simp only []
      split <;> exact ⟨rfl, rfl⟩
    · exact ⟨rfl, rfl⟩
  · exact ⟨rfl, rfl⟩

/-- The engine loaded holds the core's registers. -/
@[simp] theorem loadEng_core (s : State) (n : Nat) : (loadEng s n).core = coreOf s n := by
  cases h : (coreOf s n).launch <;> simp [loadEng, h]

/-- Every lane instruction answers in one way: refused where the word or the core is none, else the engine's effect put back, or nothing at all in
an iteration that WHEN leaves out (R151). -/
theorem laneRun_next (op : LaneOp) (n : Nat) (f : LaneFields) (s t : State) (h : laneRun op n f s = .next t) :
    isCore s n = true ∧ laneOk op f = true
      ∧ (whenHolds (coreOf s n) (laneWhen f) = true → finish s (storeEng s n (laneEffect op f (loadEng s n))) = .next t)
      ∧ (whenHolds (coreOf s n) (laneWhen f) = false → t = s) := by
  unfold laneRun at h
  split at h
  · rename_i hok
    simp only [Bool.and_eq_true] at hok
    simp only [loadEng_core] at h
    refine ⟨hok.1, hok.2, ?_, ?_⟩
    · intro hw; simpa [hw] using h
    · intro hw; simp only [hw] at h; cases h; rfl
  · cases h

theorem laneRun_runs (op : LaneOp) (n : Nat) (f : LaneFields) (s : State) (hn : isCore s n = true) (hf : laneOk op f = true)
    (hw : whenHolds (coreOf s n) (laneWhen f) = true) :
    laneRun op n f s = finish s (storeEng s n (laneEffect op f (loadEng s n))) := by
  simp [laneRun, hn, hf, hw]

/-! ### Writing a vector register -/

@[simp] theorem raiseElem_v (c : Core) (e : Nat) (t : RowTag) (f : Nat) : (raiseElem c e t f).v = c.v := by unfold raiseElem; split <;> rfl

@[simp] theorem raiseElem_launch (c : Core) (e : Nat) (t : RowTag) (f : Nat) : (raiseElem c e t f).launch = c.launch := by
  unfold raiseElem; split <;> rfl

/-- Raising flags changes a core in its lane flags and its row flags only. -/
theorem raiseAll_rest (c : Core) (tags : List RowTag) (en : List Bool) (res : List (Word × Nat)) :
    raiseAll c tags en res = { c with laneFlags := (raiseAll c tags en res).laneFlags, rowFlags := (raiseAll c tags en res).rowFlags } := by
  have key : ∀ (l : List (((Word × Nat) × Bool) × Nat)) (c : Core),
      l.foldl (fun c p => if p.1.2 then raiseElem c p.2 (tags.getD (p.2 / 64) ⟨none, false, 0⟩) p.1.1.2 else c) c
        = { c with
            laneFlags := (l.foldl (fun c p => if p.1.2 then raiseElem c p.2 (tags.getD (p.2 / 64) ⟨none, false, 0⟩) p.1.1.2 else c) c).laneFlags
            rowFlags := (l.foldl (fun c p => if p.1.2 then raiseElem c p.2 (tags.getD (p.2 / 64) ⟨none, false, 0⟩) p.1.1.2 else c) c).rowFlags } := by
    intro l
    induction l with
    | nil => intro c; rfl
    | cons p l ih =>
      intro c
      simp only [List.foldl_cons]
      rw [ih]
      split
      · unfold raiseElem
        split <;> rfl
      · rfl
  exact key _ c

@[simp] theorem raiseAll_v (c : Core) (tags : List RowTag) (en : List Bool) (res : List (Word × Nat)) : (raiseAll c tags en res).v = c.v := by
  rw [raiseAll_rest]

/-- A result written to VD leaves every register but VD, its tags and the flags as they were. -/
theorem writeVec_rest (c : Core) (f : LaneFields) (tags : List RowTag) (res : List (Word × Nat)) :
    writeVec c f tags res = { c with
      v := (writeVec c f tags res).v, tags := (writeVec c f tags res).tags
      laneFlags := (writeVec c f tags res).laneFlags, rowFlags := (writeVec c f tags res).rowFlags } := by
  unfold writeVec setTags
  simp only []
  rw [raiseAll_rest]

theorem writeVec_v (c : Core) (f : LaneFields) (tags : List RowTag) (res : List (Word × Nat)) :
    (writeVec c f tags res).v = sset c.v f.vd.toNat
      ((((vecReg c f.vd.toNat).zip res).zip (enabled c f)).map (fun p => if p.2 then p.1.2.1 else p.1.1)) := by
  simp [writeVec, setTags]

/-- VD after a result: an enabled element takes the result's, every other keeps its value (R152). -/
theorem writeVec_elem (c : Core) (f : LaneFields) (tags : List RowTag) (res : List (Word × Nat)) (e : Nat) (o : Word) (r : Word × Nat) (b : Bool)
    (ho : (vecReg c f.vd.toNat)[e]? = some o) (hr : res[e]? = some r) (hb : (enabled c f)[e]? = some b) :
    (vecReg (writeVec c f tags res) f.vd.toNat)[e]? = some (if b then r.1 else o) := by
  have h1 : ((vecReg c f.vd.toNat).zip res)[e]? = some (o, r) := List.getElem?_zip_eq_some.2 ⟨ho, hr⟩
  have h2 : (((vecReg c f.vd.toNat).zip res).zip (enabled c f))[e]? = some ((o, r), b) := List.getElem?_zip_eq_some.2 ⟨h1, hb⟩
  unfold vecReg at h2 ⊢
  rw [writeVec_v, sgetD_sset_self, List.getElem?_map]
  unfold vecReg
  rw [h2]
  rfl

theorem writeVec_other (c : Core) (f : LaneFields) (tags : List RowTag) (res : List (Word × Nat)) (r : Nat) (h : r ≠ f.vd.toNat) :
    vecReg (writeVec c f tags res) r = vecReg c r := by
  unfold vecReg
  rw [writeVec_v, sgetD_sset_other _ _ _ _ _ h]

end Sys2Proof.Machine
end

