-- ==== Sys2Proof/Laws/Memory.lean ====
section
/-!
SUPPORT. Every operation over a byte memory keeps its canonical form: pieces and replacements of far memory and of near copies (Machine/Tier.lean),
codes written into tensors (Machine/Tensor.lean) and KV pages read back (Machine/Slots.lean).
-/

namespace Sys2Proof.Machine

open Sys2Proof

theorem risingKeys_iff {α : Type} (m : Sparse α) : risingKeys m = true ↔ m.Pairwise (fun x y => x.1 < y.1) := by
  induction m with
  | nil => simp [risingKeys]
  | cons x m ih => obtain ⟨k, v⟩ := x; rw [risingKeys_cons, List.pairwise_cons, ih]

theorem memory_wf_pairwise (m : Mem) : Memory.wf m = true ↔ m.Pairwise (fun x y => x.1 < y.1) ∧ ∀ x ∈ m, x.2 ≠ 0 := by
  rw [memory_wf_iff, risingKeys_iff]

theorem memory_wf_filter (m : Mem) (p : Host.Cell → Bool) (h : Memory.wf m = true) : Memory.wf (m.filter p) = true := by
  rw [memory_wf_pairwise] at h ⊢
  exact ⟨h.1.filter p, fun x hx => h.2 x (List.mem_filter.1 hx).1⟩

theorem memSlice_wf (m : Mem) (a n : Nat) (h : Memory.wf m = true) : Memory.wf (memSlice m a n) = true := by
  have hf := (memory_wf_pairwise _).1 (memory_wf_filter m (fun c => decide (a ≤ c.1) && decide (c.1 < a + n)) h)
  rw [memory_wf_pairwise]
  constructor
  · refine List.pairwise_map.2 (hf.1.imp_of_mem ?_)
    intro x y hx hy hxy
    have h1 := (List.mem_filter.1 hx).2
    have h2 := (List.mem_filter.1 hy).2
    simp only [Bool.and_eq_true, decide_eq_true_eq] at h1 h2
    show x.1 - a < y.1 - a
    omega
  · intro x hx
    obtain ⟨y, hy, rfl⟩ := List.mem_map.1 hx
    exact hf.2 y hy

theorem memReplace_wf (m : Mem) (a n : Nat) (piece : Mem) (h : Memory.wf m = true) (hp : Memory.wf piece = true) :
    Memory.wf (memReplace m a n piece) = true := by
  have h1 := (memory_wf_pairwise _).1 (memory_wf_filter m (fun c => decide (c.1 < a)) h)
  have h2 := (memory_wf_pairwise _).1 (memory_wf_filter m (fun c => decide (a + n ≤ c.1)) h)
  have h3 := (memory_wf_pairwise _).1 (memory_wf_filter piece (fun c => decide (c.1 < n)) hp)
  rw [memory_wf_pairwise]
  unfold memReplace
  have hmid : ((piece.filter (fun c => decide (c.1 < n))).map (fun c => (a + c.1, c.2))).Pairwise (fun x y => x.1 < y.1) :=
    List.pairwise_map.2 (h3.1.imp (fun h => Nat.add_lt_add_left h a))
  constructor
  · rw [List.pairwise_append, List.pairwise_append]
    refine ⟨⟨h1.1, hmid, ?_⟩, h2.1, ?_⟩
    · intro x hx y hy
      have hx' := (List.mem_filter.1 hx).2
      obtain ⟨z, hz, rfl⟩ := List.mem_map.1 hy
      simp only [decide_eq_true_eq] at hx'
      show x.1 < a + z.1
      omega
    · intro x hx y hy
      have hy' := (List.mem_filter.1 hy).2
      simp only [decide_eq_true_eq] at hy'
      rcases List.mem_append.1 hx with hx | hx
      · have hx' := (List.mem_filter.1 hx).2
        simp only [decide_eq_true_eq] at hx'
        omega
      · obtain ⟨z, hz, rfl⟩ := List.mem_map.1 hx
        have hz' := (List.mem_filter.1 hz).2
        simp only [decide_eq_true_eq] at hz'
        show a + z.1 < y.1
        omega
  · intro x hx
    rcases List.mem_append.1 hx with hx | hx
    · rcases List.mem_append.1 hx with hx | hx
      · exact h1.2 x hx
      · obtain ⟨z, hz, rfl⟩ := List.mem_map.1 hx
        exact h3.2 z hz
    · exact h2.2 x hx

theorem writeCode_wf (m : Mem) (pl : Nat × Nat) (bits code : Nat) (h : Memory.wf m = true) : Memory.wf (writeCode m pl bits code) = true := by
  unfold writeCode
  split
  · exact writeByte_wf _ _ _ h
  · exact writeBytes_wf _ _ _ h

/-- A fold whose every step keeps the canonical form keeps it. -/
theorem foldl_wf {α : Type} (l : List α) (f : Mem → α → Mem) (m : Mem) (hf : ∀ m x, Memory.wf m = true → Memory.wf (f m x) = true)
    (h : Memory.wf m = true) : Memory.wf (l.foldl f m) = true := by
  induction l generalizing m with
  | nil => exact h
  | cons x l ih => exact ih _ (hf m x h)

theorem inputMem_wf (d : Desc) (bs : List Byte) : Memory.wf (inputMem d bs) = true :=
  foldl_wf _ _ _ (fun _ _ h => writeCode_wf _ _ _ _ h) rfl

theorem pagesFrom_wf (bs : List Byte) (pages n : Nat) : Memory.wf (pagesFrom bs pages n) = true :=
  foldl_wf _ _ _ (fun _ _ h => writeBytes_wf _ _ _ h) rfl

/-- A write to the lower tier keeps the canonical form of the host's memory and of the far content. -/
theorem lowerWrite_wf (s : State) (r : Region) (o n : Nat) (piece : Mem) (poison : List Nat) (hh : Memory.wf s.mem.host = true)
    (hf : Memory.wf s.mem.far = true) (hp : Memory.wf piece = true) :
    Memory.wf (lowerWrite s r o n piece poison).mem.host = true ∧ Memory.wf (lowerWrite s r o n piece poison).mem.far = true := by
  unfold lowerWrite
  split
  · exact ⟨hh, memReplace_wf _ _ _ _ hf hp⟩
  · exact ⟨memReplace_wf _ _ _ _ hh hp, hf⟩
  · exact ⟨hh, hf⟩

theorem reset_far_wf : Memory.wf State.reset.mem.far = true := rfl

end Sys2Proof.Machine
end

