-- ==== Sys2Proof/Machine/Views.lean ====
section
/-!
DEFINITION. What a read of window 0 returns: every register of R518 as its fields show the state (R14), the identity block, the capability
list (R505 to R509), and the trace aperture (R515). The table has a command for the reads that change something (CAL_TIME, CAL_SUBSEC,
TIMESTAMP); the others change nothing, and registerView gives their value.
-/

namespace Sys2Proof.Machine

/-- A register from its fields: lowest bit, width, value. -/
def pack (fs : List (Nat × Nat × Nat)) : Nat := (fs.map (fun f => f.2.2 % 2 ^ f.2.1 * 2 ^ f.1)).sum

/-! ### The identity block -/

/-- DEV_ID. -/
def devIdReg : Nat := pack [(0, 16, 0x0001), (16, 16, 0xDA08)]

/-- SKU. -/
def skuReg (s : State) : Nat := pack [(0, 8, Config.partCode s.part), (8, 8, Config.dies s.part), (16, 8, Config.stackCount s.part)]

/-- CAP_HEAD. -/
def capHeadReg : Nat := 0x1000

/-- Register k of the identity block. -/
def identityView (s : State) (k : Nat) : Nat := [devIdReg, revReg s, skuReg s, capHeadReg, healthReg s, bootReg s].getD k 0

/-! ### The capability list (R505 to R509) -/

/-- A body of 32-bit values, filled up to whole 8-byte words (R509). -/
def capWords (vs : List Nat) : List Byte := vs.flatMap (leBytes 4) ++ List.replicate (4 * (vs.length % 2)) 0

/-- CREW_ACTIVE: crew c in the lower or upper half of byte c div 2 (R507). -/
def crewActiveBytes (s : State) : List Byte :=
  (List.range 32).map (fun i => BitVec.ofNat 8 (activeCores s (2 * i) + 16 * activeCores s (2 * i + 1)))

/-- The operation classes of R508, in ascending order (log entry 133). -/
def energyClasses : List Nat := (List.range 12).map (1 + ·) ++ [0x20] ++ (List.range 16).map (0x30 + ·) ++ [0x40, 0x50, 0x51]

/-- Class entry i of capability 0x0070; the characterised words are free values (R508; log entry 15). -/
def energyEntry (i : Nat) : List Byte :=
  leBytes 2 (energyClasses.getD i 0) ++ leBytes 2 0 ++ leBytes 4 (Config.energyWord (2 + 2 * i)).toNat
    ++ leBytes 4 (Config.energyWord (3 + 2 * i)).toNat ++ leBytes 4 0

/-- Figures of the part that R509 lists for the DV8-1024 and R3 gives for the others. -/
def nearGbps (s : State) : Nat := 4100 * Config.dies s.part
def farMaxGib (s : State) : Nat := 4096 * Config.farPorts s.part

/-- The body of a capability entry (R507 to R509). -/
def capBody (s : State) (id : Nat) : List Byte :=
  if id = 0x0001 then leBytes 8 s.boot.serial ++ (List.range 16).map Config.fwBuildByte
  else if id = 0x0010 then
    leBytes 1 (2 ^ Config.dies s.part - 1) ++ leBytes 1 0 ++ leBytes 2 s.boot.activeCores ++ leBytes 2 s.boot.serviceable ++ leBytes 2 0
      ++ leBytes 4 (1024 * s.boot.serviceable) ++ leBytes 4 0 ++ crewActiveBytes s
  else if id = 0x0011 then capWords [0x1FFF, 0x0FFF, 0]
  else if id = 0x0020 then
    capWords [Config.nearGiB s.part, nearGbps s, 2048, 16384, Config.farPorts s.part, farMaxGib s, 64, 256, 64, 4096, 4096, 1024, 8192]
  else if id = 0x0030 then capWords [1, 16, 1048576, 255, 1, 256, 1, 16384, 16777216, 131072]
  else if id = 0x0031 then capWords [1, 256, 1048576, 256, 4096]
  else if id = 0x0040 then capWords [1, 64, 1048576, 4096, 67108864, 34, 7, 7]
  else if id = 0x0041 then capWords [256, 65536, 2048]
  else if id = 0x0050 then capWords [1024, 65536, 63, 32, 65536, 500, 256000]
  else if id = 0x0051 then capWords [72, 16, 64, 32]
  else if id = 0x0052 then capWords [16, 65536, 16, 32]
  else if id = 0x0060 then capWords [Config.nlPorts s.part, 2048, 4, 4096]
  else if id = 0x0070 then
    leBytes 2 (Config.sustainedW s.part) ++ leBytes 2 (Config.peakW s.part) ++ leBytes 2 (Config.peakMinW s.part) ++ leBytes 2 32
      ++ leBytes 4 (Config.energyWord 0).toNat ++ leBytes 4 (Config.energyWord 1).toNat ++ (List.range 32).flatMap energyEntry
  else if id = 0x0080 then capWords [4096, 4096, 256, 1]
  else if id = 0x0090 then capWords [32768, 256, 4096]
  else if id = 0x00A0 then leBytes 2 0x0100 ++ leBytes 2 1 ++ leBytes 4 0
  else []

/-- The entries of a list from an offset: each with its header, the last with NEXT 0 (R505, R506). -/
def capEntries (s : State) : List Nat → Nat → List Byte
  | [], _ => []
  | id :: ids, at_ =>
    let body := capBody s id
    let next := if ids.isEmpty then 0 else at_ + 8 + body.length
    leBytes 2 id ++ leBytes 1 1 ++ leBytes 1 (1 + body.length / 8) ++ leBytes 4 next ++ body ++ capEntries s ids (at_ + 8 + body.length)

/-- The bytes of the capability list from 0x1000: in ascending identifier (log entry 133); in recovery mode entry 0x0001 alone (R504). -/
def capList (s : State) : List Byte := capEntries s (if s.boot.recovery then [0x0001] else capabilityIds) 0x1000

/-! ### Host rings -/

/-- RING_STATUS.STATE as its field shows it. -/
def ringStateCode : RingState → Nat | .disabled => 0 | .active => 1 | .frozen => 2 | .stopping => 3

/-- RING_STATUS. -/
def ringStatusReg (s : State) (q : RingRef) : Nat :=
  let r := ringOf s q
  pack [(0, 17, inFlight s q), (17, 3, ringStateCode r.st), (20, 4, r.result), (31, 1, bit r.phase), (32, 16, r.cqTail), (48, 16, r.sqHead)]

/-- RING_ERR. -/
def ringErrReg (r : RingPair) : Nat := pack [(0, 8, r.errStatus), (8, 8, r.errOpcode), (16, 16, r.errIndex), (32, 32, r.errTag)]

/-- A register of a ring pair, which reads 0 at or above COUNT (R383); RING_CMD is WO. -/
def ringView (s : State) (q : RingRef) (o : Nat) : Nat :=
  if !ringExists s q then 0
  else
    let r := ringOf s q
    match o with
    | 0 => r.sqBase.toNat
    | 8 => r.cfg.toNat
    | 16 => r.cqBase.toNat
    | 32 => ringStatusReg s q
    | 40 => ringErrReg r
    | _ => 0

/-- FN_RING_INFO. -/
def ringInfoReg (s : State) (f : Nat) : Nat := pack [(0, 11, allocOf s f), (16, 11, firstRing s f)]

/-! ### Mailboxes and DMA -/

/-- A register of a mailbox channel, from 0x20000. -/
def mailboxView (s : State) (f o : Nat) : Nat :=
  let c := channelOf s f
  if o < 0x400 then leNat (readBytes c.h2d o 8)
  else if o < 0x800 then leNat (readBytes c.d2h (o - 0x400) 8)
  else
    match o with
    | 0x800 => pack [(0, 5, c.h2dProd), (8, 5, c.h2dCons), (16, 5, c.d2hProd), (24, 5, c.d2hCons)]
    | 0x808 => pack [(32, 32, c.hostBits)]
    | 0x810 => c.cfg.toNat
    | 0x818 => pack [(0, 1, bit c.overrun), (1, 1, bit (fwRunning s))]
    | _ => 0

/-- DMA_STATUS.STATE as its field shows it. -/
def dmaStateCode : DmaState → Nat | .idle => 0 | .running => 1 | .pausing => 2 | .paused => 3 | .done => 4 | .aborted => 5 | .error => 6

/-- A register of a DMA channel. -/
def dmaView (s : State) (ch o : Nat) : Nat :=
  let c := dmaOf s ch
  match o with
  | 0 => c.src.toNat
  | 8 => c.dst.toNat
  | 16 => c.count.toNat
  | 24 => c.ctl.toNat
  | 32 => c.cpl.toNat
  | 40 => pack [(0, 3, dmaStateCode c.st), (3, 1, bit c.pauseLate), (8, 8, c.error), (16, 48, c.bytesDone)]
  | _ => 0

/-! ### Calendar and events -/

/-- CAL_CTL. -/
def calCtlReg (c : Cal) : Nat :=
  pack [(1, 1, bit c.valid), (2, 1, bit c.battLost), (3, 1, bit c.battLow), (4, 1, bit c.oscFail), (8, 8, codeOf 8 c.trim)]

/-- CAL_SUBSEC as the host reads it: the held fraction with HELD, else the live one (R493). -/
def calSubsecReg (c : Cal) : Nat := if c.host.held then pack [(0, 16, c.host.frac), (16, 1, 1)] else c.frac

/-- EVQ_STATUS. -/
def evqReg (s : State) : Nat := pack [(0, 13, s.boot.evq.length), (16, 13, s.boot.highWater), (32, 32, s.boot.losses)]

/-! ### Power and heat -/

/-- GOV_CTL. -/
def govCtlReg (g : Gov) : Nat := pack [(8, 5, g.mCap), (16, 8, g.gTh), (24, 8, g.throttleC), (32, 16, g.sustainedW), (48, 16, g.peakW)]

/-- The sensors that are there: the hottest (TEMP_MAX_C), 0 before any senses. -/
def tempMax (s : State) : Int :=
  let ts := ((List.range 9).filter (fun d => (tempOf s d).valid)).flatMap (fun d =>
    let t := tempOf s d
    if d = 8 then [t.dieC] else [t.dieC, t.stack0C, t.stack1C])
  match ts with
  | [] => 0
  | t :: more => more.foldl max t

/-- The mean correction factor of the compute dies, in units of 1/1,024 (log entry 133). -/
def corrField (s : State) : Nat :=
  let n := Config.dies s.part
  (((List.range n).map (fun d => sgetD s.gov.corr d 1)).sum * 1024 / n).floor.toNat

/-- GOV_STATUS. -/
def govStatusReg (s : State) : Nat :=
  pack [(3, 1, bit s.gov.hot), (4, 1, bit s.gov.throttling), (5, 5, s.gov.mNow), (12, 12, corrField s), (24, 8, codeOf 8 (tempMax s)),
        (32, 16, codeOf 16 (s.gov.bankUj / 1000)), (48, 16, powerW s)]

/-- GOV_CNT. -/
def govCntReg (g : Gov) : Nat := pack [(0, 16, g.deferredCnt), (16, 16, g.clockLowered), (32, 16, g.overSustained), (48, 16, g.peakEvents)]

/-- PWR_STATUS.STATE as its field shows it. -/
def pwrStateCode : PwrState → Nat | .active => 0 | .standby => 1 | .retain => 2 | .entering => 3 | .exiting => 4

/-- PWR_STATUS. -/
def pwrStatusReg (g : Gov) : Nat := pack [(0, 3, pwrStateCode g.st), (4, 4, g.lastWake), (32, 32, g.lastExitUs)]

/-- TEMP[d]. -/
def tempReg (s : State) (d : Nat) : Nat :=
  pack [(0, 1, tempField s d 4), (8, 8, tempField s d 3), (16, 8, tempField s d 0), (32, 8, tempField s d 1), (40, 8, tempField s d 2)]

/-! ### Memory tiers -/

/-- MEM_STATUS; occupancy in whole MiB (log entry 133). -/
def memStatusReg (s : State) : Nat :=
  pack [(0, 1, bit s.mem.nearTrained), (1, 1, bit s.mem.mapValid), (2, 1, bit s.mem.fallback),
        (12, 4, ((List.range 4).map (fun p => bit (farPortOf s p).serving * 2 ^ p)).sum),
        (16, 8, s.mem.wb.length * 4096 / 2 ^ 20), (32, 32, farTotalGib s)]

/-- REGION_CMD_STATUS. -/
def regionCmdReg (m : MemTiers) : Nat :=
  pack [(0, 1, bit m.busy), (2, 1, bit m.cmdIgnored), (3, 1, bit m.cfgIgnored), (4, 4, m.result), (8, 8, m.lastRegion)]

/-- REGION_STATE.STATE as its field shows it. -/
def regionStateCode : RegionState → Nat | .disabled => 0 | .active => 1 | .flushing => 2 | .disabling => 3 | .failed => 4

/-- REGION_STATE: the near copy in whole MiB (log entry 133), dirty tiles, and OWNER for a device region. -/
def regionStateReg (s : State) (n : Nat) : Nat :=
  let r := regionOf s n
  pack [(0, 3, regionStateCode r.st), (3, 1, bit (decide (n < 64))),
        (8, 24, saturate 0xFFFFFF (r.near.countP (fun t => t.2.dirty))), (32, 32, if r.tier = 0 ∧ r.st ≠ .disabled then r.nearMib else r.near.length * r.tileBytes / 2 ^ 20)]

/-- A register of a region. -/
def regionView (s : State) (n o : Nat) : Nat :=
  match o with
  | 0 => (regionOf s n).base.toNat
  | 8 => (regionOf s n).size.toNat
  | 16 => (regionOf s n).cfg.toNat
  | 24 => regionStateReg s n
  | _ => 0

/-- FMP_CTL; RETRAIN is WO. -/
def fmpCtlReg (p : FarPort) : Nat := pack [(0, 1, bit p.enable), (4, 2, p.maxRate)]

/-- FMP_STATUS. -/
def fmpStatusReg (p : FarPort) : Nat :=
  pack [(0, 1, bit p.linkUp), (1, 1, bit p.serving), (8, 4, p.rate), (12, 4, p.width), (16, 8, p.reject), (32, 32, p.capacityGib)]

/-- A register of a far-memory port; a port that the part lacks reads 0 (R4). -/
def fmpView (s : State) (p o : Nat) : Nat :=
  if Config.farPorts s.part ≤ p then 0
  else
    match o with
    | 0 => fmpCtlReg (farPortOf s p)
    | 8 => fmpStatusReg (farPortOf s p)
    | _ => 0

/-! ### Faults -/

/-- FLT_LOG. -/
def fltLogReg (s : State) : Nat := pack [(0, 13, s.flt.history.length), (16, 16, s.flt.startups), (32, 32, s.flt.newest)]

/-- FLT_CNT. -/
def fltCntReg (x : Faults) : Nat :=
  pack [(0, 8, x.restarts), (8, 8, x.mismatches), (16, 8, x.ue), (24, 16, x.ceSram), (40, 24, x.ceNear)]

/-- FLT_CREW. A crew that is absent shows STATE 3 and no free spare (log entry 133). -/
def fltCrewReg (s : State) (c : Nat) : Nat :=
  let x := crewOf s c
  if !crewPresent s c then pack [(0, 3, 3), (5, 4, 15)]
  else
    pack [(0, 3, crewState s c), (3, 1, bit (x.sramWatch || x.sramTesting)), (5, 4, x.spare), (9, 9, x.active), (18, 9, x.watch ||| x.testing),
          (27, 9, x.failed)]

/-! ### Novmund -/

/-- A register of a Novmund port; a port that the part lacks reads 0 (R4). CLR_CNT and RETRAIN are WO. -/
def nlView (s : State) (p o : Nat) : Nat :=
  let x := sgetD s.net.ports p {}
  if Config.nlPorts s.part ≤ p then 0
  else
    match o with
    | 0 => pack [(0, 1, bit x.enable), (3, 1, bit x.width4), (4, 2, x.medium)]
    | 8 =>
      pack [(0, 1, bit x.linkUp), (1, 1, bit x.training), (2, 1, bit x.degraded), (3, 1, bit x.peer.isSome), (4, 4, x.width),
            (32, 11, (x.peer.map Prod.fst).getD 0), (43, 3, (x.peer.map Prod.snd).getD 0)]
    | 16 => pack [(0, 16, x.retransmits), (16, 16, x.fecUncorrected), (32, 32, x.fecCorrected)]
    | _ => 0

/-- REGATTA_STATUS.STATE as its field shows it. -/
def regattaStateCode : RegattaState → Nat | .alone => 0 | .joining => 1 | .member => 2 | .leaving => 3

/-- SHELL_STATUS.STATE as its field shows it. -/
def shellStateCode : ShellState → Nat | .solo => 0 | .joining => 1 | .formed => 2 | .restarting => 3 | .ending => 4

/-- REGATTA_CTL, REGATTA_STATUS, SHELL_STATUS and TIME_STATUS, from 0x91000. -/
def regattaView (x : Net) (o : Nat) : Nat :=
  match o with
  | 0 => pack [(0, 11, x.pkgNum), (15, 1, bit x.timeMaster), (32, 32, x.regattaId)]
  | 8 => pack [(0, 2, regattaStateCode x.st), (6, 3, x.joinResult), (9, 11, x.leader), (20, 12, x.members.length), (32, 32, x.epoch)]
  | 16 => pack [(0, 3, shellStateCode x.shell), (9, 11, x.myMember), (20, 12, x.memberCount), (32, 32, x.shellId)]
  | 24 => pack [(0, 1, bit x.locked), (1, 1, bit x.master), (32, 32, codeOf 32 x.offsetNs)]
  | _ => 0

/-! ### Clocks, trace, MSI-X -/

/-- CLKGEN_CTL, CLKGEN_STATUS and RST_STATUS, from 0xA0000. -/
def clockView (c : Clocks) (o : Nat) : Nat :=
  match o with
  | 0 => pack [(0, 2, c.spread)]
  | 8 => pack [(0, 1, bit c.rootLock), (1, 1, bit c.tbLock), (3, 1, bit c.refLost), (4, 2, c.spreadNow), (8, 16, c.hbmLock)]
  | 16 => pack [(0, 4, c.cause), (32, 16, c.persts), (48, 16, c.dieResets)]
  | _ => 0

/-- The 32 bytes of a trace record (R515). -/
def traceBytes (r : TraceRec) : List Byte :=
  leBytes 8 r.time ++ leBytes 1 r.kind ++ leBytes 1 (bit r.spec + 2 * bit r.discontinuity + 4 * bit r.exit) ++ leBytes 2 r.unit ++ leBytes 4 r.tag
    ++ leBytes 8 r.a ++ leBytes 8 r.b

/-- The trace registers and counters from 0xB0000, and the aperture, which shows record o div 32 of page RD_PAGE; a record that has not been
written reads 0 as near memory does (log entry 3). -/
def traceView (t : Trace) (o : Nat) : Nat :=
  if 0x1000 ≤ o ∧ o < 0x2000 then
    match slookup t.buf (128 * t.page + (o - 0x1000) / 32) with
    | some r => leAt (traceBytes r) (o % 32) 8
    | none => 0
  else
    match o with
    | 0 => t.ctl.toNat
    | 8 => pack [(0, 23, t.writeIndex), (31, 1, bit t.wrapped), (32, 32, t.dropped)]
    | 16 => pack [(7, 16, t.page)]
    | 0x100 => t.draftsProposed
    | 0x108 => t.draftsAccepted
    | 0x110 => t.prefetchIssued
    | 0x118 => t.prefetchUsed
    | _ => 0

/-- The MSI-X table of a function from 0x40000, and its pending bits at 0x40800 (R381; layout as PCIe defines). -/
def msixView (s : State) (f o : Nat) : Nat :=
  if o < 0x200 then
    let e := msixOf s f (o / 16)
    if o % 16 = 0 then e.addr else e.data + 2 ^ 32 * bit e.masked
  else if o = 0x800 then ((List.range 32).map (fun v => bit (msixOf s f v).pending * 2 ^ v)).sum
  else 0

/-! ### The window (R379, R504, R518) -/

/-- A register of the physical function's window that no other function has. -/
def pfView (s : State) (o : Nat) : Nat :=
  if o = 0x10020 then s.port.arbWeight.toNat
  else if o = 0x10028 then s.port.arbAge.toNat
  else if 0x10100 ≤ o ∧ o < 0x10300 then allocOf s ((o - 0x10100) / 8)
  else if 0x30000 ≤ o ∧ o < 0x30400 then dmaView s ((o - 0x30000) / 64) (o % 64)
  else if o = 0x50000 then s.cal.sec
  else if o = 0x50008 then calSubsecReg s.cal
  else if o = 0x50010 then s.cal.setSec
  else if o = 0x50018 then s.cal.setFrac
  else if o = 0x50020 then calCtlReg s.cal
  else if o = 0x50040 then s.clk.ts
  else if o = 0x50048 then evqReg s
  else if 0x50100 ≤ o ∧ o < 0x50200 then (sgetD s.cal.scratch ((o - 0x50100) / 8) 0).toNat
  else if o = 0x60000 then govCtlReg s.gov
  else if o = 0x60008 then govStatusReg s
  else if o = 0x60010 then govCntReg s.gov
  else if o = 0x60018 then s.gov.energyUj / 1000
  else if o = 0x60020 then pwrStatusReg s.gov
  else if 0x60100 ≤ o ∧ o < 0x60148 then tempReg s ((o - 0x60100) / 8)
  else if o = 0x70000 then s.mem.ctl.toNat
  else if o = 0x70008 then memStatusReg s
  else if o = 0x70018 then regionCmdReg s.mem
  else if 0x70100 ≤ o ∧ o < 0x70200 then fmpView s ((o - 0x70100) / 64) (o % 64)
  else if 0x71000 ≤ o ∧ o < 0x73000 then regionView s ((o - 0x71000) / 32) (o % 32)
  else if o = 0x80000 then s.flt.ctl.toNat
  else if o = 0x80008 then fltLogReg s
  else if o = 0x80010 then fltCntReg s.flt
  else if o = 0x80018 then s.flt.checksRun
  else if 0x80100 ≤ o ∧ o < 0x80300 then fltCrewReg s ((o - 0x80100) / 8)
  else if 0x90000 ≤ o ∧ o < 0x90200 then nlView s ((o - 0x90000) / 64) (o % 64)
  else if 0x91000 ≤ o ∧ o < 0x91020 then regattaView s.net (o - 0x91000)
  else if 0x92000 ≤ o ∧ o < 0x96000 then sgetD s.net.route ((o - 0x92000) / 8) 0
  else if 0xA0000 ≤ o ∧ o < 0xA0018 then clockView s.clk (o - 0xA0000)
  else if 0xB0000 ≤ o ∧ o < 0xB2000 then traceView s.trace (o - 0xB0000)
  else 0

/-- The 64 bits at an aligned offset of the window of function f, as the map of R518 places them; offsets not listed read 0, and of a virtual
function's window the physical function's registers read 0 (R379). -/
def windowView (s : State) (f o : Nat) : Nat :=
  if o < 0x30 then identityView s (o / 8)
  else if 0x1000 ≤ o ∧ o < 0x10000 then leAt (capList s) (o - 0x1000) 8
  else if s.boot.recovery then 0
  else if o = 0x10000 then (fnRegs s f).doorbell.toNat
  else if o = 0x10008 then (fnRegs s f).summary.toNat
  else if o = 0x10010 then ringInfoReg s f
  else if o = 0x10018 then (fnRegs s f).sweep.toNat
  else if 0x20000 ≤ o ∧ o < 0x20820 then mailboxView s f (o - 0x20000)
  else if 0x11000 ≤ o ∧ o < 0x21000 then ringView s ⟨f, (o - 0x11000) / 64⟩ (o % 64)
  else if 0x40000 ≤ o ∧ o < 0x41000 then msixView s f (o - 0x40000)
  else if f = 0 then pfView s o
  else 0

/-- A host read of the 64 bits at an offset: none where no window answers, since the host port is down or the function is not there (R379,
R502), or where the access is not aligned (R17). -/
def registerView (s : State) (f o : Nat) : Option Reg :=
  if s.port.trained && !s.clk.stopped && fnPresent s f && o % 8 == 0 then some (BitVec.ofNat 64 (windowView s f o)) else none

end Sys2Proof.Machine
end

