-- ==== Sys2Proof/WellFormed.lean ====
section
/-!
DEFINITION. Well-formed commands: the numbers of a command lie where the part has what they name, an entry is one of its row's opcode, and a
lane word is one that a loaded program may hold (R150, R174). A meaning refuses every other term as illFormed.
-/

namespace Sys2Proof

open Sys2Proof.Machine

/-- A core of the part, by 9 × crew + physical core (R24). -/
def coreIn (p : Part) (n : Nat) : Bool := decide (n < 9 * Config.crews p)

/-- A watched unit of the part. -/
def unitIn (p : Part) : UnitRef → Bool
  | .core n => coreIn p n
  | .crew n => decide (n < Config.crews p)

/-- A ring pair that can exist (R380). -/
def ringIn (q : RingRef) : Bool := decide (q.fn < 64) && decide (q.ring < 1024)

/-- The fields of a stream instruction that R116 bounds. -/
def passFields (q : PassOp) : Bool := decide (1 ≤ q.m) && decide (q.m ≤ 16777216) && pairSupported q.rowFormat q.statFormat

/-- The fields of a frame that a port can receive (R423). -/
def frameIn (p : Part) (port : Nat) (f : Frame) : Bool :=
  decide (port < Config.nlPorts p) && decide (f.version < 16) && decide (f.hops < 16) && decide (f.src < 2048) && decide (f.dst < 2048)
    && decide (f.shell < 2 ^ 32) && decide (f.seq < 2 ^ 32) && decide (f.payload.length ≤ 4096)

def isRestart : Control → Bool
  | .restart _ => true
  | _ => false

/-- The sensors of R517. -/
def sensorIn : Sensor → Bool
  | .temp d which => decide (d < 9) && decide (which < 5)
  | _ => true

/-- Samples of eight dies and the hub, with temperatures of 8 bits (R444). -/
def samplesIn (x : SensorData) : Bool :=
  x.dieC.length == 9 && x.stack0C.length == 9 && x.stack1C.length == 9 && x.energyUj.length == 9
    && (x.dieC ++ x.stack0C ++ x.stack1C).all (fun t => decide (-128 ≤ t ∧ t ≤ 127))

/-- A sensor of THERMTRIP: die and sensor number (R454). -/
def sensorPlace (p : Part) (n : Nat) : Bool :=
  (decide (n / 8 < Config.dies p) && decide (n % 8 < 6)) || (n / 8 == 8 && decide (n % 8 < 4))

/-- A fault that restarts the shell: an event code whose detection R440 names, and a unit field of R461. -/
def reportIn (p : Part) (f : FaultReport) : Bool :=
  decide (f.unitKind ≤ 8) && decide (f.unit < 2 ^ 16) && [0x20, 0x21, 0x22, 0x23, 0x24, 0x30, 0x31, 0x40, 0x50].contains f.code
    && f.dieReset.all (fun d => decide (d < Config.dies p))

/-- The command is well formed for a part. -/
def Instr.wf (p : Part) : Instr → Bool
  | .loadModel q e => isRow q 0x02 e
  | .unloadModel q e => isRow q 0x03 e
  | .loadVocab q e => isRow q 0x04 e
  | .loadGrammar q e => isRow q 0x05 e
  | .indexCreate q e => isRow q 0x06 e
  | .indexMerge q e => isRow q 0x07 e
  | .abort q e => isRow q 0x08 e
  | .enterPowerStateStandby q e => isRow q 0x09 e && entryAt e 8 1 == 1
  | .enterPowerStateRetain q e => isRow q 0x09 e && entryAt e 8 1 == 2
  | .enterPowerStateActive q e => isRow q 0x09 e && entryAt e 8 1 != 1 && entryAt e 8 1 != 2
  | .getLogErrorPage q e => isRow q 0x0A e && entryAt e 8 1 != 2
  | .getLogErrorRecords q e => isRow q 0x0A e && entryAt e 8 1 == 2
  | .setFeatureArbitration q e => isFeature q 0x10 e || (isRow q 0x0B e && entryAt e 9 1 % 2 == 0 && !features.contains (entryAt e 8 1))
  | .setFeatureServing q e => isFeature q 0x21 e
  | .setFeaturePartition q e => isFeature q 0x22 e
  | .setFeatureBoathouse q e => isFeature q 0x23 e
  | .setFeaturePackTemplate q e => isFeature q 0x31 e
  | .setFeaturePassageStore q e => isFeature q 0x32 e
  | .setFeatureGet q e => isRow q 0x0B e && entryAt e 9 1 % 2 == 1
  | .shellJoin q e => isRow q 0x0C e
  | .firmwareActivate q e => isRow q 0x0D e
  | .tableCreate q e => isRow q 0x0E e
  | .tableDelete q e => isRow q 0x0E e
  | .shellEnd q e => isRow q 0x0F e
  | .query q e => isRow q 0x20 e || (isRow q (entOp e) e && !isAdminOp (entOp e) && !isIoOp (entOp e))
  | .embed q e => isRow q 0x21 e
  | .search q e => isRow q 0x22 e
  | .rerank q e => isRow q 0x23 e
  | .pack q e => isRow q 0x29 e
  | .generate q e => isRow q 0x24 e
  | .pauseConversation q e => isRow q 0x25 e && entryAt e 16 1 != 1
  | .release q e => isRow q 0x25 e && entryAt e 16 1 == 1
  | .resumeConversation q e => isRow q 0x26 e
  | .tokenize q e => isRow q 0x27 e
  | .detokenize q e => isRow q 0x28 e
  | .indexInsert q e => isRow q 0x30 e
  | .indexDelete q e => isRow q 0x31 e
  | .tableRowWrite q e => isRow q 0x32 e
  | .tableRowRead q e => isRow q 0x33 e
  | .runOplist q e => isRow q 0x38 e
  | .fence q e => isRow q 0x3F e
  | .sweep fn => decide (fn < 64)
  | .doorbellErrorCompletion q => ringIn q
  | .ringEnable q => ringIn q
  | .ringDisable q => ringIn q
  | .ringResume q => ringIn q
  | .ringReset q => ringIn q
  | .ringStopped q => ringIn q
  | .ringAllocWrite f _ => decide (f < 64)
  | .interruptModerationTimeout q _ => ringIn q
  | .functionLevelReset fn => decide (fn < 64)
  | .strokeBoundary _ => true
  | .strokeCommit _ => true
  | .syncTimeout crew obj => decide (crew < Config.crews p) && decide (obj < 1024)
  | .kvPoolExhausted _ => true
  | .ageingPromotion _ => true
  | .farTileResident _ => true
  | .pass core q => coreIn p core && passFields q
  | .tileOffered core => coreIn p core
  | .dummyGap core => coreIn p core
  | .dummyDutyStep core => coreIn p core
  | .matmul r => coreIn p r.core
  | .elemwise r => coreIn p r.core
  | .expertMatmul r => coreIn p r.core
  | .vector r => coreIn p r.core
  | .vectorQ r => coreIn p r.core
  | .gather r => coreIn p r.core
  | .kvWrite r => coreIn p r.core
  | .prefetch r => coreIn p r.core
  | .collective r => coreIn p r.core
  | .selectMerge r => coreIn p r.core
  | .verify r => coreIn p r.core
  | .emit r => coreIn p r.core
  | .nop core f => coreIn p core && laneOk .nop f
  | .add core f => coreIn p core && laneOk .add f
  | .sub core f => coreIn p core && laneOk .sub f
  | .mul core f => coreIn p core && laneOk .mul f
  | .fma core f => coreIn p core && laneOk .fma f
  | .min core f => coreIn p core && laneOk .min f
  | .max core f => coreIn p core && laneOk .max f
  | .abs core f => coreIn p core && laneOk .abs f
  | .neg core f => coreIn p core && laneOk .neg f
  | .div core f => coreIn p core && laneOk .div f
  | .cmpeq core f => coreIn p core && laneOk .cmpeq f
  | .cmplt core f => coreIn p core && laneOk .cmplt f
  | .cmple core f => coreIn p core && laneOk .cmple f
  | .sel core f => coreIn p core && laneOk .sel f
  | .mov core f => coreIn p core && laneOk .mov f
  | .and core f => coreIn p core && laneOk .and f
  | .or core f => coreIn p core && laneOk .or f
  | .xor core f => coreIn p core && laneOk .xor f
  | .shl core f => coreIn p core && laneOk .shl f
  | .shra core f => coreIn p core && laneOk .shra f
  | .shrl core f => coreIn p core && laneOk .shrl f
  | .cvtfi core f => coreIn p core && laneOk .cvtfi f
  | .cvtif core f => coreIn p core && laneOk .cvtif f
  | .rcp core f => coreIn p core && laneOk .rcp f
  | .sqrt core f => coreIn p core && laneOk .sqrt f
  | .rsqrt core f => coreIn p core && laneOk .rsqrt f
  | .exp2 core f => coreIn p core && laneOk .exp2 f
  | .log2 core f => coreIn p core && laneOk .log2 f
  | .sinpi core f => coreIn p core && laneOk .sinpi f
  | .cospi core f => coreIn p core && laneOk .cospi f
  | .tanh core f => coreIn p core && laneOk .tanh f
  | .rsum core f => coreIn p core && laneOk .rsum f
  | .rmax core f => coreIn p core && laneOk .rmax f
  | .rmin core f => coreIn p core && laneOk .rmin f
  | .bcast core f => coreIn p core && laneOk .bcast f
  | .iota core f => coreIn p core && laneOk .iota f
  | .sget core f => coreIn p core && laneOk .sget f
  | .ld core f => coreIn p core && laneOk .ld f
  | .st core f => coreIn p core && laneOk .st f
  | .popq core f => coreIn p core && laneOk .popq f
  | .selpush core f => coreIn p core && laneOk .selpush f
  | .signal core f => coreIn p core && laneOk .signal f
  | .wait core f => coreIn p core && laneOk .wait f
  | .waitComplete core => coreIn p core
  | .regionEnable fn n => decide (fn < 64) && decide (n < 256)
  | .regionDisable fn n => decide (fn < 64) && decide (n < 256)
  | .regionFlush fn n => decide (fn < 64) && decide (n < 256)
  | .regionInvalidate fn n => decide (fn < 64) && decide (n < 256)
  | .regionCmdComplete => true
  | .regionConfigWrite n _ _ => decide (n < 256)
  | .memCtlWrite _ => true
  | .fmpRetrain port w => decide (port < Config.farPorts p) && wrote w 1
  | .fmpLinkLoss port => decide (port < Config.farPorts p)
  | .fmpRetrainEnd port _ => decide (port < Config.farPorts p)
  | .fmpReadTimeout port _ ns => decide (port < Config.farPorts p) && decide (50000 < ns)
  | .patrolScrub v => decide (v.region < 256) && v.offset % 32 == 0
  | .ceRate u _ => unitIn p u
  | .writeBufferDrain => true
  | .dmaStart ch w => decide (ch < 16) && wrote w 0
  | .dmaPause ch w => decide (ch < 16) && wrote w 1
  | .dmaResume ch w => decide (ch < 16) && wrote w 2
  | .dmaAbort ch w => decide (ch < 16) && wrote w 3
  | .dmaUnitMoved ch => decide (ch < 16)
  | .mbH2dPost w => covers w 4 0
  | .mbD2hConsume w => covers w 28 24
  | .mbDbRing w => covers w 30 0
  | .mailboxResponse ch => decide (ch < 64)
  | .mbD2hPost ch => decide (ch < 64)
  | .calCommit w => wrote w 0
  | .calTimeRead _ _ => true
  | .calSubsecRead _ _ => true
  | .timestampRead _ => true
  | .calendarTick => true
  | .trimWindowEnd => true
  | .oscFail => true
  | .battLow => true
  | .backupPowerLoss => true
  | .boathouseExpiry fn _ => decide (fn < 64)
  | .pwrokRise _ => true
  | .pwrokFall => true
  | .warmRstN => true
  | .perstNAssert => true
  | .perstNRelease => true
  | .refLost => true
  | .cdcTimeout x _ => decide (x / 256 ≤ 41) && decide (x % 256 ≤ 41)
  | .clocksDone a b => decide (a < 2 ^ 16) && decide (b < 4)
  | .authDone refused => decide (refused < 4)
  | .hubDone => true
  | .nearTrainDone x => decide (x < 2 ^ Config.stackCount p)
  | .arrayTestDone cores sram => cores.all (coreIn p) && sram.all (fun c => decide (c < Config.crews p))
  | .farMemoryDone xs => xs.all (fun x => decide (x.1 < Config.farPorts p))
  | .ready => true
  | .powerDrainTimeout => true
  | .powerStateEntered => true
  | .powerStateExited _ => true
  | .sensorSample d => samplesIn d
  | .peakEvent => true
  | .overSustainedWindow => true
  | .thermtrip sensor temp => sensorPlace p sensor && decide (115 ≤ temp)
  | .govCtlWrite _ => true
  | .pmbAlert _ => true
  | .join w => wrote w 11
  | .leave w => wrote w 12
  | .joinNoPort => true
  | .regattaFormAlone => true
  | .epochStart => true
  | .nlEnable port w => decide (port < 8) && wrote w 0
  | .nlRetrain port w => decide (port < 8) && wrote w 6
  | .clrCnt port w => decide (port < 8) && wrote w 7
  | .nlPortTrained port t => decide (port < Config.nlPorts p) && (t.lanes == 0 || t.lanes == 4 || t.lanes == 8)
  | .dataFrame port f => frameIn p port f && f.kind == 0
  | .ackFrame port f => frameIn p port f && f.kind == 1
  | .controlFrame port f => frameIn p port f && f.kind == 2
  | .timeFrame port f _ => frameIn p port f && f.kind == 3
  | .frameForward port f => frameIn p port f && decide (f.kind < 4)
  | .retransmit _ _ => true
  | .timeExchange o => decide (-(2 ^ 31) ≤ o) && decide (o < 2 ^ 31)
  | .heartbeat => true
  | .memberLost pkg => decide (pkg < 2048)
  | .shellFormed => true
  | .shellJoinTimeout => true
  | .shellRestart f => reportIn p f
  | .restartFrame port f => frameIn p port f && f.kind == 2 && isRestart f.control
  | .memberReady _ => true
  | .restartReadyTimeout => true
  | .repeatCheckComplete c => coreIn p c.core && decide c.rowsDiffer.Nodup
  | .arbiterComplete a => coreIn p a.core
  | .checkSampleDropped _ => true
  | .directedTestComplete u _ => unitIn p u
  | .watchdog cox => decide (cox < 4)
  | .activationHold => true
  | .activationResume => true
  | .activationBusyTimeout => true
  | .startFailed => true
  | .pldmFwSlotUpdate img => decide (img.slot < 2)
  | .pldmBootcfgUpdate slot spread => decide (slot < 2) && decide (spread < 3)
  | .pldmSensorRead x => sensorIn x
  | .cperExport _ => true
  | .setdasa a b => decide (a < 128) && decide (b < 128)
  | .boundaryScan _ _ _ => true
  | .gpio3PulseEnd => true
  | .registerWrite offset w => decide (w.fn < 64) && decide (offset < 2 ^ 26)
  | .backupDomainPowerUp => true
  | .battLowCleared => true
  | .nlLinkLost port => decide (port < Config.nlPorts p)
  | .fmpPortInService port _ => decide (port < Config.farPorts p)
  | .sriovVfEnable _ n => decide (n < 64)

end Sys2Proof
end

