-- ==== Sys2Proof/Safety.lean ====
section
/-!
DEFINITION. What counts as a safe run: the ranges that the calendar's registers keep (R492 to R495), the canonical form of the host's memory,
and the commands that the machine carries out, stopping on none.
-/

namespace Sys2Proof

open Sys2Proof.Machine

/-- A holding register holds what its fields have room for (R493). -/
def HoldingLegal (h : Holding) : Prop := h.secHi < 2 ^ 8 ∧ h.frac < 2 ^ 16

/-- The backup domain's registers hold what their fields have room for (R492, R494, R495): 40 bits of seconds and 16 of fraction, live and
set; TRIM as a signed byte; at most 2^20 ticks in a window. -/
def CalLegal (c : Cal) : Prop :=
  c.sec < 2 ^ 40 ∧ c.frac < 2 ^ 16 ∧ c.setSec < 2 ^ 40 ∧ c.setFrac < 2 ^ 16 ∧ -128 ≤ c.trim ∧ c.trim ≤ 127 ∧ c.windowTicks ≤ 2 ^ 20
    ∧ HoldingLegal c.host ∧ HoldingLegal c.cox ∧ HoldingLegal c.bmc

/-- A stream pass of R116 has what it reads: with KEEP the array holds a stationary tile of the format it names (R118), and its reads stay in the
tile store and the crew SRAM. -/
def passRuns (s : State) (n : Nat) (p : PassOp) : Bool :=
  (!p.keepTile || (match (coreOf s n).statTile with | some t => t.1 == p.statFormat | none => false)) && passInside p

/-- The command is carried out in this state: it is well formed for the part, a lane's LD or ST names a port that the launch binds, POPQ reads
a tile as its own kind of number (R174), a stream pass has what it reads, a TABLE_CREATE entry stands in the row of its table block's OP, a
corrected-error rate is at least CE_LIMIT (R469), and a register access is aligned (R17). -/
def runs (s : State) (c : Instr) : Bool :=
  Instr.wf s.part c &&
    match c with
    | .ld n f => (portDesc (coreOf s n) (laneArg f % 4)).isSome
    | .st n f => (portDesc (coreOf s n) (4 + laneArg f % 2)).isSome
    | .popq n f => (match oldestTile (coreOf s n) with | some t => t.1.isInt || f.ty == 0#2 | none => true)
    | .pass n p => passRuns s n p
    | .tableCreate _ e => tableOp e s != 1
    | .tableDelete _ e => tableOp e s == 1
    | .ceRate _ events => decide (fieldOf s.flt.ctl 15 8 ≤ events)
    | .registerWrite offset _ => offset % 8 == 0
    | _ => true

/-- A step that is safe: the machine goes on. -/
def Goes (o : Host.Outcome State Fault Refusal) : Prop := ∃ t, o = .next t


end Sys2Proof
end

