-- ==== Sys2Proof/Certificates/Slice0/Obligations.lean ====
section
/-!
DEFINITION. The statements for the provers. Each says what a rule of the manual, or several, make of a state; where one rests on a choice of the
model its text names the log entry. Claims holds the parts of a statement that has several, and the terms they share.
-/

open Sys2Proof Sys2Proof.Machine

/-! ### The whole machine -/

/-- The block's own rule (log entry 30): one step takes the command at the front of the queue, carries it out on the state with the queue's rest,
and answers what the command answers. -/
def Obligations.StepRunsFront : Prop :=
  ∀ (s : State) (c : Instr) (rest : List Instr), s.pending = c :: rest → step s = exec c { s with pending := rest }

/-- The model's choice of log entry 30, with R497's count: on an empty queue one CLK_TB cycle passes. The timestamp advances only while its clock
runs and the package is not in RETAIN; without a rate adjustment and a debt it counts exactly 1, modulo 2^64; nothing but the timestamp's own
fields changes. -/
def Obligations.IdleStep : Prop :=
  ∀ s : State, s.pending = [] →
    ∃ t, step s = .next t ∧ t = { s with clk := t.clk }
      ∧ (clocksRun s = false ∨ s.gov.st = .retain → t = s)
      ∧ (clocksRun s = true → s.gov.st ≠ .retain → s.clk.ratePpm = 0 → s.clk.rateFrac = 0 → s.clk.halfDebt = 0 →
          t.clk.ts = (s.clk.ts + 1) % 2 ^ 64)

/-- Registers of the physical function's window by offset, with the reset values that their tables give the DV8-1024 (R518). -/
def Claims.resetMap : List (Nat × Nat) :=
  [(0x0, 0x00000000DA080001), (0x10, 0x0000000000100800), (0x18, 0x0000000000001000), (0x10010, 0x0000000000000400), (0x10018, 0x0000002002001001),
   (0x10020, 0x0000000000010408), (0x10028, 0x0000138803E800C8), (0x11008, 0x0000000021200040), (0x11020, 0x0000000080000000),
   (0x20810, 0x00000000FFFFFFFF), (0x30028, 0), (0x60000, 0x0A28096061141000), (0x60008, 0x0000000000400200), (0x60020, 0),
   (0x70000, 0x0000000000001801), (0x70018, 0), (0x70100, 0x0000000000000001), (0x71818, 0), (0x80000, 0x00401040031E1000),
   (0x91008, 0), (0x91010, 0x0000000000100000), (0xA0010, 0), (0xB0000, 0x0000000000000002), (0xB0008, 0)]

/-- The values at reset that the manual's register tables and state rules give: every ring pair DISABLED with phase 1, RING_CFG, FN_SWEEP,
ARB_WEIGHT and ARB_AGE at their values, the physical function with all 1,024 ring pairs and no other with any, regions DISABLED, far-memory ports
enabled, mailbox channels with every interrupt masked, DMA channels IDLE, the serving limits of R313, the governor ACTIVE at m = 16, the regatta
ALONE and the shell SOLO with one member, every crew with cores 0 to 7 active and core 8 spare, and empty logs, queues and stores; and
the registers of window 0 show the reset values of their tables. -/
def Claims.ResetRegisters : Prop :=
  let s := State.reset
  (∀ q, ringOf s q = { st := .disabled, phase := true, cfg := 0x0000000021200040#64 })
    ∧ (∀ f, fnRegs s f = { sweep := 0x0000002002001001#64 })
    ∧ (∀ f, allocOf s f = if f = 0 then 1024 else 0)
    ∧ s.port.arbWeight = 0x0000000000010408#64 ∧ s.port.arbAge = 0x0000138803E800C8#64
    ∧ (∀ n, regionOf s n = { st := .disabled }) ∧ s.mem.ctl = 0x0000000000001801#64 ∧ (∀ p, (farPortOf s p).enable = true)
    ∧ (∀ c, channelOf s c = { cfg := 0x00000000FFFFFFFF#64 }) ∧ (∀ c, (dmaOf s c).st = .idle)
    ∧ s.srv.strokeTargetUs = 2000 ∧ s.srv.pageWait = 64 ∧ s.srv.bhTtl = 3600 ∧ s.srv.slots = [] ∧ s.srv.convs = []
    ∧ s.gov.st = .active ∧ s.gov.mNow = 16 ∧ s.gov.bankUj = 0
    ∧ s.net.st = .alone ∧ s.net.shell = .solo ∧ s.net.memberCount = 1
    ∧ s.flt.ctl = 0x00401040031E1000#64 ∧ s.flt.live = [] ∧ s.boot.evq = [] ∧ s.clk.ts = 0
    ∧ (∀ n, coreOf s n = {}) ∧ (∀ n, (crewOf s n).active = 0xFF ∧ (crewOf s n).spare = 8)
    ∧ (∀ x ∈ Claims.resetMap, windowView s 0 x.1 = x.2)
    ∧ s.pending = []

/-- The calendar's registers are in range at reset. -/
def Claims.ResetCalendarLegal : Prop := CalLegal State.reset.cal

/-- The machine at reset: the manual's values, and calendar registers within their fields. -/
def Obligations.ResetValues : Prop := Claims.ResetRegisters ∧ Claims.ResetCalendarLegal

/-- Whatever command is carried out, and on the idle step, the calendar's registers keep to their fields' ranges: seconds below 2^40, the fraction
below 2^16, TRIM a signed byte, the window at most 2^20 ticks, and every holding register within its fields. -/
def Obligations.CalendarStaysLegal : Prop :=
  ∀ s t : State, CalLegal s.cal → step s = .next t → CalLegal t.cal

/-- The queue is first in, first out, and no command changes which part the package is. -/
def Claims.StepKeepsQueue : Prop :=
  ∀ s t : State, step s = .next t → t.pending = s.pending.tail ∧ t.part = s.part

/-- The commands that may change the backup domain (R488, R492 to R496): the calendar's own, register writes, and the two resets of the set
registers. -/
def Claims.touchesCal : Instr → Bool
  | .calCommit _ | .calTimeRead _ _ | .calSubsecRead _ _ | .calendarTick | .trimWindowEnd | .oscFail | .battLow | .battLowCleared
  | .backupPowerLoss | .backupDomainPowerUp | .warmRstN | .pwrokFall | .registerWrite _ _ => true
  | _ => false

/-- Calendar, trim and backup scratch are kept by every reset and every fault (R488): no command but the calendar's own, a register write and the
two resets of the set registers changes the backup domain, and those two change nothing in it but the set registers. -/
def Claims.BackupDomainKept : Prop :=
  (∀ (c : Instr) (s t : State), Claims.touchesCal c = false → exec c s = .next t → t.cal = s.cal)
    ∧ (∀ s t : State, exec .warmRstN s = .next t ∨ exec .pwrokFall s = .next t →
        { t.cal with setSec := s.cal.setSec, setFrac := s.cal.setFrac } = s.cal)

/-- What the machine keeps whatever happens: the order of its queue, the part it is, and the backup domain but for the commands of R488. -/
def Obligations.MachineKeeps : Prop := Claims.StepKeepsQueue ∧ Claims.BackupDomainKept

/-- The machine stops in a fault in two ways only: a stream pass that reads outside the tile store or the crew SRAM, and a register access that is
not aligned. -/
def Obligations.FaultsOnly : Prop :=
  ∀ (c : Instr) (s : State) (r : Fault), exec c s = .fault r →
    (r = .addressOutside ∧ ∃ n p, c = .pass n p ∧ passInside p = false)
      ∨ (r = .misalignedAccess ∧ ∃ o w, c = .registerWrite o w ∧ o % 8 ≠ 0)

/-- Every command that is well formed for the part goes on, and only such a command does: exec answers a next state exactly where runs says so.
Ordinary data never stops the machine. It rests on the model's readings of log entries 1, 24, 109. -/
def Obligations.RunsExactly : Prop :=
  ∀ (c : Instr) (s : State), Goes (exec c s) ↔ runs s c = true

/-! ### The vector engine -/

/-- An exact result held to 32 bits (R155): outside the range it is the nearer limit, with OVF (2) in the flag mask. -/
def Claims.sat32 (v : Int) : Word × Nat :=
  if 2147483647 < v then (0x7FFFFFFF#32, 2) else if v < -2147483648 then (0x80000000#32, 2) else (BitVec.ofInt 32 v, 0)

/-- The FP32 or the INT32 reading of an opcode, as TYPE says. -/
def Claims.byTy {α : Type} (f : LaneFields) (real int : α) : α := if f.ty = 0#2 then real else int

/-- The opcodes of two sources with the operation of R153 on one element: the result and the flags it raises. -/
def Claims.binaryRows (f : LaneFields) : List ((Nat → LaneFields → Instr) × LaneOp × (Word → Word → Word × Nat)) :=
  [(.add, .add, Claims.byTy f fadd (fun a b => Claims.sat32 (a.toInt + b.toInt))),
   (.sub, .sub, Claims.byTy f fsub (fun a b => Claims.sat32 (a.toInt - b.toInt))),
   (.mul, .mul, Claims.byTy f fmul (fun a b => Claims.sat32 (a.toInt * b.toInt))),
   (.min, .min, Claims.byTy f fmin (fun a b => (if a.toInt ≤ b.toInt then a else b, 0))),
   (.max, .max, Claims.byTy f fmax (fun a b => (if a.toInt ≤ b.toInt then b else a, 0))),
   (.div, .div, fdiv),
   (.and, .and, fun a b => (a &&& b, 0)),
   (.or, .or, fun a b => (a ||| b, 0)),
   (.xor, .xor, fun a b => (a ^^^ b, 0)),
   (.shl, .shl, fun a b => (a <<< (b.toNat % 32), 0)),
   (.shra, .shra, fun a b => (a.sshiftRight (b.toNat % 32), 0)),
   (.shrl, .shrl, fun a b => (a >>> (b.toNat % 32), 0))]

/-- The opcodes of one source with the operation of R153 and R157 on one element. -/
def Claims.unaryRows (f : LaneFields) : List ((Nat → LaneFields → Instr) × LaneOp × (Word → Word × Nat)) :=
  [(.abs, .abs, Claims.byTy f fabs (fun a => Claims.sat32 a.toInt.natAbs)),
   (.neg, .neg, Claims.byTy f fneg (fun a => Claims.sat32 (-a.toInt))),
   (.cvtfi, .cvtfi, cvtfi), (.cvtif, .cvtif, cvtif), (.rcp, .rcp, frcp), (.sqrt, .sqrt, fsqrt), (.rsqrt, .rsqrt, frsqrt),
   (.exp2, .exp2, fexp2), (.log2, .log2, flog2), (.sinpi, .sinpi, fsinpi), (.cospi, .cospi, fcospi), (.tanh, .tanh, ftanh)]

/-- The instruction may run on core n: the core exists, the word is one of the opcode's, and WHEN lets it execute in this iteration. -/
def Claims.laneReady (s : State) (n : Nat) (op : LaneOp) (f : LaneFields) : Prop :=
  isCore s n = true ∧ laneOk op f = true ∧ whenHolds (coreOf s n) (laneWhen f) = true

/-- Element e of VD after a result x on core n: an enabled element takes the result, every other keeps its value; lane flags gather what the result
raised on an enabled element within E0 (R149, R152). -/
def Claims.elemTakes (s t : State) (n : Nat) (f : LaneFields) (e : Nat) (x : Word × Nat) : Prop :=
  ∀ (old : Word) (p : Bool), (vecReg (coreOf s n) f.vd.toNat)[e]? = some old → (enabled (coreOf s n) f)[e]? = some p →
    (vecReg (coreOf t n) f.vd.toNat)[e]? = some (if p then x.1 else old)

/-- What the lane flags of element e have gathered after a result x. -/
def Claims.flagTakes (s t : State) (n : Nat) (f : LaneFields) (e : Nat) (x : Word × Nat) : Prop :=
  ∀ p : Bool, (enabled (coreOf s n) f)[e]? = some p →
    sgetD (coreOf t n).laneFlags e 0
      = if p = true ∧ e < liveCount (coreOf s n) then sgetD (coreOf s n).laneFlags e 0 ||| x.2 else sgetD (coreOf s n).laneFlags e 0

/-- ADD, SUB, MUL, MIN, MAX, DIV, AND, OR, XOR, SHL, SHRA and SHRL complete, and each enabled element of VD takes the operation of the elements of
the two sources; the second is VB, a scalar register or the immediate, as BSRC says. -/
def Claims.LaneTwoSources : Prop :=
  ∀ (s : State) (n : Nat) (f : LaneFields), ∀ r ∈ Claims.binaryRows f, Claims.laneReady s n r.2.1 f →
    ∃ t, exec (r.1 n f) s = .next t
      ∧ ∀ e a b old, (vecReg (coreOf s n) f.va.toNat)[e]? = some a → (sourceB (coreOf s n) f)[e]? = some b →
          (vecReg (coreOf s n) f.vd.toNat)[e]? = some old →
          Claims.elemTakes s t n f e (r.2.2 a b) ∧ Claims.flagTakes s t n f e (r.2.2 a b)

/-- ABS, NEG, CVTFI, CVTIF, RCP, SQRT, RSQRT, EXP2, LOG2, SINPI, COSPI and TANH complete, element by element. -/
def Claims.LaneOneSource : Prop :=
  ∀ (s : State) (n : Nat) (f : LaneFields), ∀ r ∈ Claims.unaryRows f, Claims.laneReady s n r.2.1 f →
    ∃ t, exec (r.1 n f) s = .next t
      ∧ ∀ e a old, (vecReg (coreOf s n) f.va.toNat)[e]? = some a → (vecReg (coreOf s n) f.vd.toNat)[e]? = some old →
          Claims.elemTakes s t n f e (r.2.2 a) ∧ Claims.flagTakes s t n f e (r.2.2 a)

/-- The opcodes that work element by element: twelve of two sources and twelve of one (R152, R153, R155 to R157). It rests on the model's readings of log entries 23, 24. -/
def Obligations.LaneElementwise : Prop := Claims.LaneTwoSources ∧ Claims.LaneOneSource

/-- FMA rounds a × b + c once (INT32: saturates the exact sum), SEL takes a where P(VC) is set and b elsewhere, MOV takes b, BCAST takes a[ARG] in every
element, and IOTA takes 256 × i0 + e. -/
def Obligations.LaneFmaAndMoves : Prop :=
  ∀ (s : State) (n : Nat) (f : LaneFields), let c := coreOf s n
    (Claims.laneReady s n .fma f → ∃ t, exec (.fma n f) s = .next t
      ∧ ∀ e a b z old, (vecReg c f.va.toNat)[e]? = some a → (sourceB c f)[e]? = some b → (vecReg c f.vc.toNat)[e]? = some z →
          (vecReg c f.vd.toNat)[e]? = some old →
          let x := if f.ty = 0#2 then ffma a b z else Claims.sat32 (a.toInt * b.toInt + z.toInt)
          Claims.elemTakes s t n f e x ∧ Claims.flagTakes s t n f e x)
    ∧ (Claims.laneReady s n .sel f → ∃ t, exec (.sel n f) s = .next t
      ∧ ∀ (e : Nat) (a b : Word) (p : Bool), (vecReg c f.va.toNat)[e]? = some a → (sourceB c f)[e]? = some b → (predReg c (f.vc.toNat % 4))[e]? = some p →
          Claims.elemTakes s t n f e (if p then a else b, 0))
    ∧ (Claims.laneReady s n .mov f → ∃ t, exec (.mov n f) s = .next t
      ∧ ∀ e b, (sourceB c f)[e]? = some b → Claims.elemTakes s t n f e (b, 0))
    ∧ (Claims.laneReady s n .bcast f → ∃ t, exec (.bcast n f) s = .next t
      ∧ ∀ e a, e < 256 → (vecReg c f.va.toNat)[laneArg f]? = some a → Claims.elemTakes s t n f e (a, 0))
    ∧ (Claims.laneReady s n .iota f → ∃ t, exec (.iota n f) s = .next t
      ∧ ∀ e, e < 256 → Claims.elemTakes s t n f e (BitVec.ofNat 32 (256 * loopIndex c 0 + e), 0))

/-- The compares with the relation of R153 and R156 on one element. -/
def Claims.compareRows (f : LaneFields) : List ((Nat → LaneFields → Instr) × LaneOp × (Word → Word → Bool)) :=
  [(.cmpeq, .cmpeq, Claims.byTy f feq (fun a b => a == b)),
   (.cmplt, .cmplt, Claims.byTy f flt (fun a b => decide (a.toInt < b.toInt))),
   (.cmple, .cmple, Claims.byTy f fle (fun a b => decide (a.toInt ≤ b.toInt)))]

/-- CMPEQ, CMPLT and CMPLE complete: each enabled element of the predicate register that VD names takes the outcome, every other keeps its bit, and
no lane flag is raised. -/
def Obligations.LaneCompares : Prop :=
  ∀ (s : State) (n : Nat) (f : LaneFields), ∀ r ∈ Claims.compareRows f, Claims.laneReady s n r.2.1 f →
    ∃ t, exec (r.1 n f) s = .next t ∧ (coreOf t n).laneFlags = (coreOf s n).laneFlags
      ∧ ∀ (e : Nat) (a b : Word) (old p : Bool), (vecReg (coreOf s n) f.va.toNat)[e]? = some a → (sourceB (coreOf s n) f)[e]? = some b →
          (predReg (coreOf s n) f.vd.toNat)[e]? = some old → (enabled (coreOf s n) f)[e]? = some p →
          (predReg (coreOf t n) f.vd.toNat)[e]? = some (if p then r.2.2 a b else old)

/-- The pairwise tree of R158 over 2^k elements: at each level element i takes op(e[i], e[i + s]), s from 2^(k - 1) down to 1. -/
def Claims.tree (g : Word → Word → Word) : Nat → (Nat → Word) → Word
  | 0, v => v 0
  | k + 1, v => Claims.tree g k (fun i => g (v i) (v (i + 2 ^ k)))

/-- The reductions with their operation and its identity (R158). -/
def Claims.reduceRows (f : LaneFields) : List ((Nat → LaneFields → Instr) × LaneOp × (Word → Word → Word) × Word) :=
  [(.rsum, .rsum, Claims.byTy f (fun a b => (fadd a b).1) (fun a b => (Claims.sat32 (a.toInt + b.toInt)).1), Claims.byTy f 0x80000000#32 0#32),
   (.rmax, .rmax, Claims.byTy f (fun a b => (fmax a b).1) (fun a b => if a.toInt ≤ b.toInt then b else a), Claims.byTy f 0xFF800000#32 0x80000000#32),
   (.rmin, .rmin, Claims.byTy f (fun a b => (fmin a b).1) (fun a b => if a.toInt ≤ b.toInt then a else b), Claims.byTy f 0x7F800000#32 0x7FFFFFFF#32)]

/-- Element i of a reduction's input: the operation's identity where the predicate does not enable it. -/
def Claims.reduceIn (c : Core) (f : LaneFields) (ident : Word) (i : Nat) : Word :=
  if (enabled c f).getD i false then (vecReg c f.va.toNat).getD i 0 else ident

/-- RSUM, RMAX and RMIN complete: with ARG[0] = 0 every enabled element of a segment takes the tree's result over that segment, with ARG[0] = 1 over the
whole register. It rests on the model's readings of log entry 43. -/
def Obligations.LaneReductions : Prop :=
  ∀ (s : State) (n : Nat) (f : LaneFields), ∀ r ∈ Claims.reduceRows f, Claims.laneReady s n r.2.1 f →
    (vecReg (coreOf s n) f.va.toNat).length = 256 → (enabled (coreOf s n) f).length = 256 →
    ∃ t, exec (r.1 n f) s = .next t
      ∧ ∀ e old, e < 256 → (vecReg (coreOf s n) f.vd.toNat)[e]? = some old →
          let src := Claims.reduceIn (coreOf s n) f r.2.2.2
          (vecReg (coreOf t n) f.vd.toNat)[e]? = some (
            if (enabled (coreOf s n) f).getD e false then
              (if laneArg f % 2 = 1 then Claims.tree r.2.2.1 8 src else Claims.tree r.2.2.1 6 (fun i => src (64 * (e / 64) + i)))
            else old)

/-- What WAIT compares and SIGNAL counts: the sync objects of the crew outside a launch, of the running request within one (R171). -/
def Claims.syncCount (s : State) (n k : Nat) : Nat := sgetD (loadEng s n).sync k 0

/-- NOP and WAIT complete and change no register, no sync count and no request; SGET writes S(VD) with a[ARG]; SIGNAL adds ARG[25:10] to the sync object
ARG[9:0], modulo 2^32, and to no other. It rests on the model's readings of log entry 128. -/
def Obligations.LaneScalarAndSync : Prop :=
  ∀ (s : State) (n : Nat) (f : LaneFields),
    (Claims.laneReady s n .nop f → ∃ t, exec (.nop n f) s = .next t ∧ (∀ m, coreOf t m = coreOf s m) ∧ (∀ k, crewOf t k = crewOf s k)
      ∧ (∀ k, slotOf t k = slotOf s k))
    ∧ (Claims.laneReady s n .wait f → ∃ t, exec (.wait n f) s = .next t ∧ (∀ m, coreOf t m = coreOf s m) ∧ (∀ k, crewOf t k = crewOf s k)
      ∧ (∀ k, slotOf t k = slotOf s k))
    ∧ (Claims.laneReady s n .sget f → ∃ t, exec (.sget n f) s = .next t
      ∧ (∀ a, (vecReg (coreOf s n) f.va.toNat)[laneArg f]? = some a → scalarReg (coreOf t n) f.vd.toNat = a)
      ∧ (∀ k, k ≠ f.vd.toNat → scalarReg (coreOf t n) k = scalarReg (coreOf s n) k))
    ∧ (Claims.laneReady s n .signal f →
      (∀ l, (coreOf s n).launch = some l → ∃ q u c, slotOf s l.slot = some q ∧ unitRun q l.run = some (u, c)) →
      ∃ t, exec (.signal n f) s = .next t
      ∧ Claims.syncCount t n (laneArg f % 1024) = (Claims.syncCount s n (laneArg f % 1024) + laneArg f / 1024 % 65536) % 2 ^ 32
      ∧ ∀ k, k ≠ laneArg f % 1024 → Claims.syncCount t n k = Claims.syncCount s n k)

/-- LD completes where the launch binds the port: an enabled element within E0 takes its element of the tensor as FP32 or INT32, and +0 beyond E0 or the
tensor. POPQ completes where the oldest tile may be popped as TYPE says: element 64r + j takes column j of the r-th of the next four rows; the first pop
makes the slot HELD and the 16th frees it; outside a launch that drains a pass, with no tile to read nothing changes (R159, R165, R166). It rests on the model's readings of log entries 24, 25. -/
def Obligations.LaneLoadAndPop : Prop :=
  ∀ (s : State) (n : Nat) (f : LaneFields), let c := coreOf s n; let x := loadEng s n
    (∀ d, Claims.laneReady s n .ld f → portDesc c (laneArg f % 4) = some d →
      ∃ t, exec (.ld n f) s = .next t
        ∧ ∀ e, e < 256 →
            (∀ ix, e < liveCount c → portIndex c (descOf x.model d) e = some ix →
              Claims.elemTakes s t n f e (if f.ty = 0#2 then elemFp32 x.model x.run d ix else elemInt32 x.model x.run d ix))
            ∧ (liveCount c ≤ e ∨ portIndex c (descOf x.model d) e = none → Claims.elemTakes s t n f e (0#32, 0)))
    ∧ (∀ tile g, Claims.laneReady s n .popq f → oldestTile c = some (tile, g) → tile.isInt = true ∨ f.ty = 0#2 →
      ∃ t, exec (.popq n f) s = .next t
        ∧ (∀ r j, r < 4 → j < 64 → Claims.elemTakes s t n f (64 * r + j) (popValue tile f ((tile.rows.getD (4 * g + r) []).getD j 0)))
        ∧ (c.launch = none →
            let q := sgetD c.queue c.readAt {}
            (q.pops + 1 = 16 → sgetD (coreOf t n).queue c.readAt {} = {} ∧ (coreOf t n).readAt = (c.readAt + 1) % 16)
            ∧ (q.pops + 1 ≠ 16 → sgetD (coreOf t n).queue c.readAt {} = { q with st := .held, pops := q.pops + 1 } ∧ (coreOf t n).readAt = c.readAt)))
    ∧ (Claims.laneReady s n .popq f → oldestTile c = none → (∀ l, c.launch = some l → l.isQ = false) →
      ∃ t, exec (.popq n f) s = .next t ∧ (∀ m, coreOf t m = coreOf s m) ∧ (∀ k, crewOf t k = crewOf s k) ∧ (∀ k, slotOf t k = slotOf s k))

/-- A register word converted for a tensor of a format that is not MX (R159): an INT32 word reaches a floating format through CVTIF. -/
def Claims.storedWord (f : LaneFields) (fmt : Nat) (w : Word) : Nat :=
  if f.ty ≠ 0#2 ∧ (floatOf fmt).isSome = true then (convertOut fmt (.real (cvtif w).1)).1
  else (convertOut fmt (if f.ty = 0#2 then .real w else .int w.toInt)).1

/-- The elements that ST writes to a tensor that is no MX tensor, in element order, with the code each takes and the token row that it depends on
(R543): the enabled elements within E0 that the tensor has (R159); a dimension 0 of extent 1 takes element 0 only (log entry 25). -/
def Claims.storeCodes (s : State) (n : Nat) (f : LaneFields) (d : Nat) : List (List Nat × Nat × Nat) :=
  let c := coreOf s n
  let x := loadEng s n
  let m := x.model
  (((vecReg c f.va.toNat).zip (enabled c f)).zipIdx).filterMap (fun p =>
    if p.1.2 = true ∧ p.2 < liveCount c ∧ ¬((descOf m d).e 0 = 1 ∧ p.2 ≠ 0) then
      (portIndex c (descOf m d) p.2).map (fun ix =>
        (ix, Claims.storedWord f (descOf m d).fmt p.1.1, storeRow x d ix ((segTags c f.va.toNat).getD (p.2 / 64) ⟨none, false, 0⟩)))
    else none)

/-- ST completes where the launch binds the port: the run of the launch's request has each enabled element converted to the tensor's format and written at
its place, and no register but the flags changes; to an MX tensor blocks of 32 are written whole (R159). SELPUSH completes: the enabled pairs
enter the selection unit in element order with S6 as the upper half of the index, and with no selection set up nothing enters (R169, R238). It rests on the model's readings of log entries 24, 25, 136. -/
def Obligations.LaneStoreAndPush : Prop :=
  ∀ (s : State) (n : Nat) (f : LaneFields), let c := coreOf s n; let x := loadEng s n
    (∀ d l q u r, Claims.laneReady s n .st f → c.launch = some l → portDesc c (4 + laneArg f % 2) = some d →
      slotOf s l.slot = some q → unitRun q l.run = some (u, r) →
      ∃ t q' u' r', exec (.st n f) s = .next t ∧ slotOf t l.slot = some q' ∧ unitRun q' l.run = some (u', r')
        ∧ { coreOf t n with laneFlags := c.laneFlags, rowFlags := c.rowFlags } = c
        ∧ (isMx (descOf x.model d).fmt = false →
            r' = (Claims.storeCodes s n f d).foldl (fun r p => putTagged x.model p.2.2 r (d, p.1, p.2.1)) r)
        ∧ (isMx (descOf x.model d).fmt = true →
            r' = { ((List.range 8).foldl (fun y b => storeBlock f d (segTags c f.va.toNat) (vecReg c f.va.toNat) (enabled c f) y b) x).run with
                   sync := r.sync }))
    ∧ (Claims.laneReady s n .selpush f →
      ∃ t, exec (.selpush n f) s = .next t
        ∧ (c.sel.mode = 0 → (coreOf t n).sel = c.sel)
        ∧ (c.sel.mode ≠ 0 →
            { (coreOf t n).sel with spec := false }
              = { (((vecReg c f.va.toNat).zip (sourceB c f)).zip (enabled c f)).foldl
                    (fun u p => if p.2 then pushPair u ⟨(scalarReg c 6).toNat * 2 ^ 32 + p.1.2.toNat, p.1.1⟩ else u) c.sel with spec := false }))

/-- The 43 opcodes with their rows of the command table. -/
def Claims.laneRows : List ((Nat → LaneFields → Instr) × LaneOp) :=
  [(.nop, .nop), (.add, .add), (.sub, .sub), (.mul, .mul), (.fma, .fma), (.min, .min), (.max, .max), (.abs, .abs), (.neg, .neg), (.div, .div),
   (.cmpeq, .cmpeq), (.cmplt, .cmplt), (.cmple, .cmple), (.sel, .sel), (.mov, .mov), (.and, .and), (.or, .or), (.xor, .xor), (.shl, .shl),
   (.shra, .shra), (.shrl, .shrl), (.cvtfi, .cvtfi), (.cvtif, .cvtif), (.rcp, .rcp), (.sqrt, .sqrt), (.rsqrt, .rsqrt), (.exp2, .exp2),
   (.log2, .log2), (.sinpi, .sinpi), (.cospi, .cospi), (.tanh, .tanh), (.rsum, .rsum), (.rmax, .rmax), (.rmin, .rmin), (.bcast, .bcast),
   (.iota, .iota), (.sget, .sget), (.ld, .ld), (.st, .st), (.popq, .popq), (.selpush, .selpush), (.signal, .signal), (.wait, .wait)]

/-- The opcodes that write no vector register. -/
def Claims.noVd : List LaneOp := [.nop, .cmpeq, .cmplt, .cmple, .sget, .st, .selpush, .signal, .wait]

/-- A suppressed instruction changes no state and raises no flag (R151): in an iteration that WHEN leaves out, every opcode that may run here answers the
state it was given. -/
def Claims.LaneSuppressed : Prop :=
  ∀ (s : State) (n : Nat) (f : LaneFields), ∀ r ∈ Claims.laneRows, runs s (r.1 n f) = true →
    whenHolds (coreOf s n) (laneWhen f) = false → exec (r.1 n f) s = .next s

/-- What a lane instruction leaves as it was: every part of the package but the cores, the crews' sync objects and the slot of the launch's request; every
other core; every vector register and segment tag but VD's; the scalar registers but SGET's; the predicates but a compare's; the selection unit but for
SELPUSH; the queue and the tiles that wait for it but for POPQ; requests but for ST and SIGNAL; sync objects but for SIGNAL; and the launch, the stationary tile
and the tile store always. -/
def Claims.LaneKeeps : Prop :=
  ∀ (s t : State) (n : Nat) (f : LaneFields), ∀ r ∈ Claims.laneRows, exec (r.1 n f) s = .next t →
    let c := coreOf s n; let c' := coreOf t n
    t = { s with cores := t.cores, crews := t.crews, srv := t.srv } ∧ { t.srv with slots := s.srv.slots } = s.srv
      ∧ (∀ m, m ≠ n → coreOf t m = coreOf s m)
      ∧ (∀ k, { crewOf t k with syncs := (crewOf s k).syncs } = crewOf s k)
      ∧ (∀ k, k ≠ f.vd.toNat ∨ r.2 ∈ Claims.noVd → vecReg c' k = vecReg c k ∧ ∀ g, g < 4 → storedTag c' k g = storedTag c k g)
      ∧ (∀ k, k ≠ f.vd.toNat ∨ r.2 ≠ .sget → scalarReg c' k = scalarReg c k ∧ sgetD c'.sspec k 0 = sgetD c.sspec k 0)
      ∧ (∀ k, k ≠ f.vd.toNat % 4 ∨ r.2 ∉ [.cmpeq, .cmplt, .cmple] → predReg c' k = predReg c k)
      ∧ (r.2 ≠ .selpush → c'.sel = c.sel)
      ∧ (r.2 ≠ .popq → c'.queue = c.queue ∧ c'.readAt = c.readAt ∧ c'.fillAt = c.fillAt ∧ c'.outTiles = c.outTiles)
      ∧ (r.2 ≠ .st → r.2 ≠ .signal → ∀ k, slotOf t k = slotOf s k)
      ∧ (r.2 ≠ .signal → ∀ k, crewOf t k = crewOf s k)
      ∧ c'.tileStore = c.tileStore ∧ c'.launch = c.launch ∧ c'.statTile = c.statTile

/-- What lane instructions leave alone: everything where WHEN suppresses them, and beyond their own results the rest of the package. It rests on the model's readings of log entry 44. -/
def Obligations.LaneFrame : Prop := Claims.LaneSuppressed ∧ Claims.LaneKeeps

/-! ### The matrix array -/

/-- A stream pass that R116 and R118 allow runs, and takes the array through its M rows: the stationary tile it used is held, row r's 64 accumulators
(R127 to R129, in ascending order of the reduction elements) and its tag stand in row r mod 64 of output tile r ÷ 64, unused rows of the last tile are
zero, and the tiles wait behind those already offered. Of the core besides, only the queue slot that it starts to fill, the flags of the chain, the counts of
products and the dummy gap change; outside the core only requests whose rows the pass is tagged with do. It rests on the model's readings of log entry 40. -/
def Obligations.ArrayPassRuns : Prop :=
  ∀ (s : State) (n : Nat) (p : PassOp), isCore s n = true → 1 ≤ p.m → p.m ≤ 16777216 → pairSupported p.rowFormat p.statFormat = true →
    passRuns s n p = true →
    ∃ t new, exec (.pass n p) s = .next t
      ∧ (coreOf t n).outTiles = (coreOf s n).outTiles ++ new ∧ new.length = ceilDiv p.m 64
      ∧ (coreOf t n).statTile = some (passTile (coreOf s n) p)
      ∧ (∀ r, r < p.m →
          let tile := new.getD (r / 64) ⟨false, [], 0, [], [], none⟩
          let rows := match p.rowSpace with | .tileStore => (coreOf s n).tileStore | .crewSram => (crewOf s (n / 9)).sram
          let cols := stationaryColumns p.rowFormat p.statFormat (passTile (coreOf s n) p).2.1 (passTile (coreOf s n) p).2.2
          let res := passRow (coreOf s n) rows p cols r
          tile.isInt = pairIsInt p.rowFormat ∧ tile.rows[r % 64]? = some res.1 ∧ tile.flags[r % 64]? = some res.2
            ∧ tile.tags[r % 64]? = some (p.tags.getD r ⟨none, false, 0⟩))
      ∧ (∀ r, p.m ≤ r → r < 64 * new.length → (new.getD (r / 64) ⟨false, [], 0, [], [], none⟩).rows[r % 64]? = some (List.replicate 64 0))
      ∧ (∀ m, m ≠ n → coreOf t m = coreOf s m)
      ∧ t = { s with cores := t.cores, srv := t.srv } ∧ { t.srv with slots := s.srv.slots } = s.srv
      ∧ (∀ k, (∀ tag ∈ p.tags, tag.slot ≠ some k) → slotOf t k = slotOf s k)
      ∧ (let c := coreOf s n
         { coreOf t n with outTiles := c.outTiles, statTile := c.statTile, queue := c.queue, gated := c.gated, products := c.products
                           chain := c.chain, inGap := c.inGap } = c)

/-- TILE_OFFERED: the oldest output tile takes the next slot of the hand-off queue when that slot is FREE or being filled, and the slot becomes READY with
no pop counted; otherwise the array stalls and nothing changes (R119, R165). -/
def Claims.ArrayHandOff : Prop :=
  ∀ (s : State) (n : Nat), isCore s n = true → let c := coreOf s n; let q := sgetD c.queue c.fillAt {}
    (∀ tile ts, c.outTiles = tile :: ts → q.st = .free ∨ q.st = .filling → c.fillAt < 16 →
      ∃ t, exec (.tileOffered n) s = .next t
        ∧ sgetD (coreOf t n).queue c.fillAt {} = { st := .ready, pops := 0, tile := some tile }
        ∧ (coreOf t n).fillAt = (c.fillAt + 1) % 16 ∧ (coreOf t n).outTiles = ts ∧ (coreOf t n).readAt = c.readAt
        ∧ (∀ k, k ≠ c.fillAt → k ≠ (c.fillAt + 1) % 16 → sgetD (coreOf t n).queue k {} = sgetD c.queue k {})
        ∧ (∀ m, m ≠ n → coreOf t m = coreOf s m) ∧ t = { s with cores := t.cores })
    ∧ (c.outTiles = [] ∨ (q.st ≠ .free ∧ q.st ≠ .filling) → exec (.tileOffered n) s = .next s)

/-- Dummy mode (R143): in a gap on an active core the duty starts at the fraction of ungated products of the last pass, to the nearest sixteenth, so that it
lies within half a sixteenth of it; each duty step lowers it by one sixteenth and stops at 0. The operands advance through the LFSR, and no result or tile
changes. Where no pass has run the duty is a free value, and midway between two sixteenths which of them it is (log entries 17, 41). -/
def Claims.ArrayDummyDuty : Prop :=
  (∀ (s : State) (n : Nat), isCore s n = true → s.boot.dummy = true → isActiveCore s n = true →
    ∃ t, exec (.dummyGap n) s = .next t ∧ (coreOf t n).inGap = true
      ∧ ((coreOf s n).products ≠ 0 → (coreOf s n).gated ≤ (coreOf s n).products →
          2 * (16 * ((coreOf s n).products - (coreOf s n).gated)) ≤ 2 * ((coreOf t n).duty * (coreOf s n).products) + (coreOf s n).products
          ∧ 2 * ((coreOf t n).duty * (coreOf s n).products) ≤ 2 * (16 * ((coreOf s n).products - (coreOf s n).gated)) + (coreOf s n).products
          ∧ (coreOf t n).duty ≤ 16)
      ∧ { coreOf t n with inGap := (coreOf s n).inGap, duty := (coreOf s n).duty, lfsr := (coreOf s n).lfsr } = coreOf s n
      ∧ t = { s with cores := t.cores, freeCtr := t.freeCtr })
    ∧ (∀ (s : State) (n : Nat), isCore s n = true → s.boot.dummy = true → isActiveCore s n = true → (coreOf s n).inGap = true →
      ∃ t, exec (.dummyDutyStep n) s = .next t ∧ (coreOf t n).duty = (coreOf s n).duty - 1
        ∧ { coreOf t n with duty := (coreOf s n).duty, lfsr := (coreOf s n).lfsr } = coreOf s n ∧ t = { s with cores := t.cores })

/-- Output tiles go to the hand-off queue, and gaps between passes are filled in dummy mode (R119, R143, R165). -/
def Obligations.ArrayTilesAndGaps : Prop := Claims.ArrayHandOff ∧ Claims.ArrayDummyDuty

/-- R132 in a pass of an integer pair: each of a column's accumulators, one for each number of reduction elements taken, comes from the one before by adding the exact product of the next
element; an addition that would leave −2^39 to 2^39 − 1 takes the nearer limit instead and sets GOF, later products are added to the saturated value under the same rule, and GOF
once set stays set to the end of the chain, which a pass seeded by accumulators goes on with. The row's status has GOF where a column's chain has set it. -/
def Obligations.IntegerAccumulation : Prop :=
  ∀ (s : State) (n : Nat) (p : PassOp), isCore s n = true → 1 ≤ p.m → p.m ≤ 16777216 → pairSupported p.rowFormat p.statFormat = true →
    pairIsInt p.rowFormat = true → passRuns s n p = true →
    let c := coreOf s n
    let k := passK p.rowFormat p.statFormat
    let mem := match p.rowSpace with | .tileStore => c.tileStore | .crewSram => (crewOf s (n / 9)).sram
    let cols := stationaryColumns p.rowFormat p.statFormat (passTile c p).2.1 (passTile c p).2.2
    ∃ t new, exec (.pass n p) s = .next t ∧ (coreOf t n).outTiles = c.outTiles ++ new ∧ ∀ r, r < p.m →
      ∃ (acc : Nat → Nat → Int) (gof : Nat → Nat → Bool) (flags : Nat),
        (∀ j, j < 64 → acc j 0 = passSeed c p r j ∧ gof j 0 = (p.accIn.isSome && hasBit ((c.chain.getD r []).getD j 0) 2) ∧ ∀ i, i < k →
          let x := acc j i + elemInt p.rowFormat ((codesAt mem p.rowFormat p.rowAddr (r * k) k).getD i 0) * elemInt p.statFormat ((cols.getD j ([], [])).1.getD i 0)
          acc j (i + 1) = (if 2 ^ 39 - 1 < x then 2 ^ 39 - 1 else if x < -(2 ^ 39) then -(2 ^ 39) else x)
            ∧ gof j (i + 1) = (gof j i || decide (2 ^ 39 - 1 < x ∨ x < -(2 ^ 39))))
        ∧ (let tile := new.getD (r / 64) ⟨false, [], 0, [], [], none⟩
           tile.rows[r % 64]? = some ((List.range 64).map (fun j => acc j k)) ∧ tile.flags[r % 64]? = some flags)
        ∧ (hasBit flags 2 = true ↔ ∃ j, j < 64 ∧ gof j k = true)

/-! ### Operation records -/

/-- The records whose whole effect is on the run of their request, with their OP and the run they leave (R184 to R188, R285, R370). -/
def Claims.runRows : List ((RecRef → Instr) × Nat × (RecRef → State → RecCtx → RunCtx)) :=
  [(.matmul, 0x10, fun _ _ c => matmulRun c), (.expertMatmul, 0x12, fun _ _ c => matmulRun c), (.elemwise, 0x11, fun _ _ c => elemwiseRun c),
   (.gather, 0x30, fun _ s c => gatherRun s c), (.kvWrite, 0x31, fun _ _ c => kvWriteRun c), (.prefetch, 0x32, fun _ _ c => c.run),
   (.verify, 0x50, fun _ s c => verifyRun s c), (.emit, 0x51, fun r _ c => emitRun r.index c)]

/-- The record has completed on the run: it is entered as run on its core, its SIGNAL, if it has one, has added 1 to its sync number modulo 2^32
(R189), and poison that it used stands behind what was there (R353). -/
def Claims.recordDone (t : State) (r : RecRef) (w : BitVec 256) (run : RunCtx) : Prop :=
  ∃ q u r', slotOf t r.slot = some q ∧ unitRun q r.run = some (u, r')
    ∧ r' = { run with done := run.done ++ [r.index], ran := run.ran ++ [(r.index, r.core)], sync := r'.sync, poisoned := r'.poisoned }
    ∧ run.poisoned <+: r'.poisoned
    ∧ ∀ k, sgetD r'.sync k 0 = if recSignalEn w = true ∧ k = recSignalSync w then (sgetD run.sync k 0 + 1) % 2 ^ 32 else sgetD run.sync k 0

/-- MATMUL, EXPERT_MATMUL, ELEMWISE, GATHER, KV_WRITE, PREFETCH, VERIFY and EMIT: a record that may start runs and completes on the run of its request.
PREFETCH leaves every value of the run as it was. Besides that request's slot and the trace only these change: the core that the record ran on, for a pass or an
element-wise operation; the sync objects that stand for the run's numbers; the SRAM of the crew that verifies, for the masks; and near copies, for FAR tensors
and tables. -/
def Claims.RecordsComplete : Prop :=
  ∀ (s : State) (r : RecRef) (c : RecCtx), ∀ row ∈ Claims.runRows, isCore s r.core = true → recCtx s r row.2.1 = some c →
    ∃ t, exec (row.1 r) s = .next t ∧ Claims.recordDone t r c.word (row.2.2 r s c)
      ∧ t = { s with srv := t.srv, trace := t.trace, cores := t.cores, crews := t.crews, mem := t.mem } ∧ { t.srv with slots := s.srv.slots } = s.srv
      ∧ (∀ k, k ≠ r.slot → slotOf t k = slotOf s k)
      ∧ (∀ k, k ≠ r.core ∨ row.2.1 ∉ [0x10, 0x11, 0x12] → coreOf t k = coreOf s k)
      ∧ (∀ k, { crewOf t k with syncs := (crewOf s k).syncs, sram := (crewOf s k).sram } = crewOf s k)
      ∧ (∀ k, k ≠ r.core / 9 ∨ row.2.1 ≠ 0x50 → (crewOf t k).sram = (crewOf s k).sram)
      ∧ ((∀ d ∈ c.model.descs, d.isFar = false) → row.2.1 ≠ 0x30 → t.mem = s.mem)

/-- COLLECTIVE and SELECT_MERGE in a shell of one package complete at once: COLLECTIVE copies SRC to DST, and SELECT_MERGE merges the package's own list into
DST (R187, R246, R439). It rests on the model's readings of log entries 111, 136. -/
def Obligations.ExchangesAlone : Prop :=
  ∀ (s : State) (r : RecRef) (c : RecCtx), isCore s r.core = true → shellSize s = 1 → s.net.myMember = 0 →
    (recCtx s r 0x40 = some c → ∃ t, exec (.collective r) s = .next t
      ∧ Claims.recordDone t r c.word (collectiveRun s c c.run [(tensorItems c.model c.run (recAt c.word 10 2)).map (· % 2 ^ 64)])
      ∧ t = { s with srv := t.srv, trace := t.trace, net := t.net, crews := t.crews, mem := t.mem } ∧ { t.net with delivered := s.net.delivered } = s.net)
    ∧ (recCtx s r 0x41 = some c → ∃ t, exec (.selectMerge r) s = .next t
      ∧ Claims.recordDone t r c.word (putBlockBytes c.model (resultRow c.model c.run [recAt c.word 8 2] (recAt c.word 10 2) 0) c.run (recAt c.word 10 2)
          (mergeBlocks (recAt c.word 14 1) (if recAt c.word 12 2 = 0 then 65536 else recAt c.word 12 2) (((descOf c.model (recAt c.word 10 2)).e 0 - 4) / 4)
            [parseBlock (listBytes c.model c.run (recAt c.word 8 2))]))
      ∧ t = { s with srv := t.srv, trace := t.trace, net := t.net, crews := t.crews, mem := t.mem } ∧ { t.net with delivered := s.net.delivered } = s.net)

/-- A record that may not start (its request is not in the stroke, its list does not hold it, it has run, its wait is not satisfied, or a core runs its
launch) leaves the package as it is; this holds for each of the twelve operations. -/
def Claims.RecordsWait : Prop :=
  ∀ (s : State) (r : RecRef), isCore s r.core = true →
    ∀ row ∈ ([(.matmul, 0x10), (.elemwise, 0x11), (.expertMatmul, 0x12), (.vector, 0x20), (.vectorQ, 0x21), (.gather, 0x30), (.kvWrite, 0x31),
        (.prefetch, 0x32), (.collective, 0x40), (.selectMerge, 0x41), (.verify, 0x50), (.emit, 0x51)] : List ((RecRef → Instr) × Nat)),
      recCtx s r row.2 = none → exec (row.1 r) s = .next s

/-- Operation records: one that may start completes, and one that may not leaves the package as it is (R184 to R189, R285, R370). It rests on the model's readings of log entries 45, 110. -/
def Obligations.RecordsRun : Prop := Claims.RecordsComplete ∧ Claims.RecordsWait

/-- The engine that a VECTOR or VECTOR_Q record starts with. -/
def Claims.startEngine (s : State) (r : RecRef) (c : RecCtx) : Eng :=
  ⟨launchStart (coreOf s r.core) (launchOf r c) (launchOf r c).params (recAt c.word 26 1) (recAt c.word 28 2), c.run, c.model, c.run.sync⟩

/-- What a launch that has gone on to y leaves: at its end the record has completed and the core holds no launch; at a WAIT that is not reached the core
holds the launch there, and the run has what the launch has done so far (R148, R171, R187). -/
def Claims.launchLeaves (t : State) (r : RecRef) (w : BitVec 256) (y : Bool × Eng) : Prop :=
  coreOf t r.core = y.2.core
    ∧ (y.1 = true → Claims.recordDone t r w { y.2.run with sync := y.2.sync })
    ∧ (y.1 = false → ∃ q u, slotOf t r.slot = some q ∧ unitRun q r.run = some (u, { y.2.run with sync := y.2.sync }))

/-- VECTOR and VECTOR_Q on a core that holds no launch start the engine at the values R146 gives (registers +0, S0 to S7 the record's parameters and the others 0,
predicates all ones, flags clear, no segment tagged) and run its program to the end or to a WAIT. WAIT_COMPLETE takes up a launch whose WAIT is reached,
and leaves every other core as it is. It rests on the model's readings of log entry 26. -/
def Obligations.LaunchesRun : Prop :=
  (∀ (s : State) (r : RecRef) (c : RecCtx), isCore s r.core = true → (coreOf s r.core).launch = none →
    ∀ row ∈ ([(.vector, 0x20), (.vectorQ, 0x21)] : List ((RecRef → Instr) × Nat)), recCtx s r row.2 = some c →
      let x := Claims.startEngine s r c
      ((∀ k, vecReg x.core k = List.replicate 256 0) ∧ (∀ k, predReg x.core k = List.replicate 256 true) ∧ x.core.laneFlags = []
        ∧ (∀ k g, storedTag x.core k g = ⟨none, false, 0⟩)
        ∧ (∀ k, 8 ≤ k → (launchOf r c).params.length ≤ 8 → scalarReg x.core k = 0)
        ∧ (∀ k, k < 8 → (launchOf r c).params.length = 8 → scalarReg x.core k = (launchOf r c).params.getD k 0))
      ∧ ∃ t, exec (row.1 r) s = .next t
          ∧ Claims.launchLeaves t r c.word (launchColumns (recFault c.word) ((launchOf r c).left + 1) x))
    ∧ (∀ (s : State) (n : Nat) (l : Launch) (q : Request) (u : UnitCtx) (run : RunCtx), isCore s n = true → (coreOf s n).launch = some l →
      slotOf s l.slot = some q → unitRun q l.run = some (u, run) → waitDue (loadEng s n) = true →
      ∃ t, exec (.waitComplete n) s = .next t
        ∧ Claims.launchLeaves t ⟨l.slot, l.run, n, l.recIdx⟩ (recOf (modelByOid s l.model) l.recIdx)
            (launchColumns (recFault (recOf (modelByOid s l.model) l.recIdx)) (l.left + 1) (loadEng s n)))
    ∧ (∀ (s : State) (n : Nat), isCore s n = true → (coreOf s n).launch = none ∨ waitDue (loadEng s n) = false →
      exec (.waitComplete n) s = .next s)

/-! ### Host rings -/

/-- A ring command reaches its pair: the host port is up, the device is ready, the pair is one of the function's, and the function is presented. -/
def Claims.ringReach (s : State) (q : RingRef) : Prop :=
  q.fn < 64 ∧ q.ring < 1024 ∧ hostUp s = true ∧ s.boot.ready = true ∧ q.ring < allocOf s q.fn ∧ fnPresent s q.fn = true

/-- Ring commands (R384) in the states that allow them: ENABLE with sizes of 2^4 to 2^16 and a CQ_SEL that names the pair's own or an ACTIVE completion
ring makes it ACTIVE with SQ_HEAD and CQ_TAIL 0 and CQ_PHASE 1; DISABLE of a pair to which no other ACTIVE ring posts leaves it STOPPING; RESUME makes a FROZEN
pair ACTIVE; RESET makes it ACTIVE with SQ_HEAD at the producer index last read. After RESUME and RESET the record is read at the next sweep. -/
def Claims.RingCommandsAct : Prop :=
  ∀ (s : State) (q : RingRef), Claims.ringReach s q → let r := ringOf s q
    (r.st = .disabled → 4 ≤ fieldOf r.cfg 31 27 → fieldOf r.cfg 31 27 ≤ 16 → 4 ≤ fieldOf r.cfg 26 22 → fieldOf r.cfg 26 22 ≤ 16 →
        fieldOf r.cfg 41 32 < allocOf s q.fn → fieldOf r.cfg 41 32 = q.ring ∨ (ringOf s ⟨q.fn, fieldOf r.cfg 41 32⟩).st = .active →
      ∃ r', exec (.ringEnable q) s = .next (setRing s q r') ∧ r'.st = .active ∧ r'.sqHead = 0 ∧ r'.cqTail = 0 ∧ r'.phase = true ∧ r'.result = 0
        ∧ r'.cfg = r.cfg ∧ r'.sqBase = r.sqBase ∧ r'.cqBase = r.cqBase)
    ∧ (r.st = .active ∨ r.st = .frozen →
        (∀ x ∈ ringsOf s q.fn, x.1 = q.ring ∨ x.2.st ≠ .active ∨ fieldOf x.2.cfg 41 32 ≠ q.ring) →
      exec (.ringDisable q) s = .next (setRing s q { r with st := .stopping, result := 0 }))
    ∧ (r.st = .frozen → exec (.ringResume q) s = .next (setRing s q { r with st := .active, result := 0, reread := true }))
    ∧ (r.st = .active ∨ r.st = .frozen →
      exec (.ringReset q) s = .next (setRing s q { r with st := .active, result := 0, reread := true, sqHead := r.producer }))

/-- A ring command in another state, or with a field out of range, changes nothing but CMD_RESULT: WRONG_STATE 1, CONFIG_INVALID 2, CQ_NOT_READY 3,
CQ_IN_USE 4 (R384). -/
def Claims.RingCommandsFail : Prop :=
  ∀ (s : State) (q : RingRef), Claims.ringReach s q → let r := ringOf s q
    (r.st ≠ .disabled → exec (.ringEnable q) s = .next (setRing s q { r with result := 1 }))
    ∧ (r.st = .disabled → fieldOf r.cfg 31 27 < 4 ∨ 16 < fieldOf r.cfg 31 27 ∨ fieldOf r.cfg 26 22 < 4 ∨ 16 < fieldOf r.cfg 26 22 →
      exec (.ringEnable q) s = .next (setRing s q { r with result := 2 }))
    ∧ (r.st = .disabled → 4 ≤ fieldOf r.cfg 31 27 → fieldOf r.cfg 31 27 ≤ 16 → 4 ≤ fieldOf r.cfg 26 22 → fieldOf r.cfg 26 22 ≤ 16 →
        fieldOf r.cfg 41 32 < allocOf s q.fn → fieldOf r.cfg 41 32 ≠ q.ring → (ringOf s ⟨q.fn, fieldOf r.cfg 41 32⟩).st ≠ .active →
      exec (.ringEnable q) s = .next (setRing s q { r with result := 3 }))
    ∧ (r.st ≠ .active → r.st ≠ .frozen →
      exec (.ringDisable q) s = .next (setRing s q { r with result := 1 }) ∧ exec (.ringReset q) s = .next (setRing s q { r with result := 1 }))
    ∧ (r.st = .active ∨ r.st = .frozen →
        (∃ x ∈ ringsOf s q.fn, x.1 ≠ q.ring ∧ x.2.st = .active ∧ fieldOf x.2.cfg 41 32 = q.ring) →
      exec (.ringDisable q) s = .next (setRing s q { r with result := 4 }))
    ∧ (r.st ≠ .frozen → exec (.ringResume q) s = .next (setRing s q { r with result := 1 }))

/-- RING_STOPPED makes a STOPPING pair DISABLED once it has no request in flight (R384). -/
def Claims.RingStops : Prop :=
  ∀ (s : State) (q : RingRef), q.fn < 64 → q.ring < 1024 → (ringOf s q).st = .stopping →
      (∀ x ∈ s.srv.slots, x.2.fn = q.fn → x.2.ring = q.ring → x.2.silent = true) →
    exec (.ringStopped q) s = .next (setRing s q { ringOf s q with st := .disabled })

/-- Ring commands: what each does where it may act, how each answers where it may not, and how a stopping pair comes to rest (R384). -/
def Obligations.RingCommands : Prop := Claims.RingCommandsAct ∧ Claims.RingCommandsFail ∧ Claims.RingStops

/-- R383: a write to RING_ALLOC takes effect exactly when VF Enable is 0, every ring of the physical function is DISABLED and the counts then total at most 1,024, and is ignored
otherwise; the device numbers rings in ascending function order, so FIRST of function f is the sum of COUNT over functions 0 to f − 1. -/
def Obligations.RingAllocation : Prop :=
  (∀ (s : State) (f n : Nat), f < 64 → n < 2048 → hostUp s = true → s.port.vfEnable = false → (∀ x ∈ ringsOf s 0, x.2.st = .disabled) →
    let w : RegAccess := ⟨0, .full, BitVec.ofNat 64 n⟩
    (((sset s.port.alloc f n).map Prod.snd).sum ≤ 1024 →
      exec (.ringAllocWrite f w) s = .next { s with port := { s.port with alloc := sset s.port.alloc f n } })
    ∧ (1024 < ((sset s.port.alloc f n).map Prod.snd).sum → exec (.ringAllocWrite f w) s = .next s))
  ∧ (∀ (s : State) (f : Nat) (w : RegAccess), f < 64 → s.port.vfEnable = true ∨ (∃ x ∈ ringsOf s 0, x.2.st ≠ .disabled) →
    exec (.ringAllocWrite f w) s = .next s)
  ∧ ∀ (s : State) (f : Nat), firstRing s f = ((List.range f).map (fun g => allocOf s g)).sum

/-- A completion entry (R390): 32 bytes with the tag, SQ_HEAD, SQ_ID, status, flags (PHASE 1, AGED 2, ARITH 4, FROZE 8), opcode and RESULT at the slot CQ_TAIL
of the ring that CQ_SEL names; CQ_TAIL moves on, and CQ_PHASE turns over with it. While the completion ring raises no interrupt (IRQ_EN 0) nothing else of host
memory changes. -/
def Obligations.CompletionEntry : Prop :=
  ∀ (s : State) (q : RingRef) (c : Cpl) (k : Nat),
    let cq := cqOf s q; let p := ringOf s cq; let a := p.cqBase.toNat + 32 * p.cqTail
    let t := postCompletion q c k s
    bitOf p.cfg 19 = false → Memory.wf s.mem.host = true →
      (readBytes t.mem.host a 32
          = leBytes 4 c.tag ++ leBytes 2 (ringOf s q).sqHead ++ leBytes 2 q.ring ++ leBytes 1 c.status
            ++ leBytes 1 (bit p.phase + 2 * bit c.aged + 4 * bit c.arith + 8 * bit c.froze) ++ leBytes 1 c.opcode ++ leBytes 1 0 ++ slice c.result 0 20)
      ∧ (∀ b, b < a ∨ a + 32 ≤ b → readByte t.mem.host b = readByte s.mem.host b)
      ∧ (ringOf t cq).cqTail = (p.cqTail + 1) % p.cqSize
      ∧ (ringOf t cq).phase = (if (p.cqTail + 1) % p.cqSize = 0 then !p.phase else p.phase)
      ∧ (ringOf t cq).reserved = p.reserved - k
      ∧ (∀ m, m ≠ cq → ringKey m ≠ ringKey cq → ringOf t m = ringOf s m)
      ∧ t.srv = s.srv ∧ t.obj = s.obj ∧ t.gov = s.gov ∧ t.cores = s.cores

/-- Interrupt moderation (R402): MOD_TIME µs after the first counted entry the vector of the completion ring is raised and the count starts again; a stream vector that
was held back is raised once MOD_TIME has passed since its last raise. A raised vector writes its message to host memory, or while it is masked sets its pending bit (R381). A held doorbell error completion
is posted into a slot that has freed, and one fewer is held (R387). It rests on the model's readings of log entry 129. -/
def Obligations.ModerationAndHeldErrors : Prop :=
  (∀ (s : State) (q : RingRef), q.fn < 64 → q.ring < 1024 → let r := ringOf s q
    ∀ since, bitOf r.cfg 19 = true → fieldOf r.cfg 49 42 ≠ 0 → r.modSince = some since → since + 1000 * fieldOf r.cfg 49 42 ≤ s.clk.ts →
    ∃ t, exec (.interruptModerationTimeout q none) s = .next t ∧ (ringOf t q).modCountNow = 0 ∧ (ringOf t q).modSince = none
      ∧ (let v := fieldOf r.cfg 18 14; let m := msixOf s q.fn v
         (m.masked = true → msixOf t q.fn v = { m with pending := true } ∧ t.mem = s.mem)
         ∧ (m.masked = false → Memory.wf s.mem.host = true → readBytes t.mem.host m.addr 4 = leBytes 4 m.data)))
  ∧ (∀ (s : State) (q : RingRef) (v : Nat), q.fn < 64 → q.ring < 1024 → 32 * q.fn + v ∈ s.port.streamDue →
      (∀ last, slookup s.port.streamAt (32 * q.fn + v) = some last → last + 1000 * fieldOf (ringOf s q).cfg 49 42 ≤ s.clk.ts) →
    ∃ t, exec (.interruptModerationTimeout q (some v)) s = .next t ∧ 32 * q.fn + v ∉ t.port.streamDue
      ∧ slookup t.port.streamAt (32 * q.fn + v) = some s.clk.ts
      ∧ ((msixOf s q.fn v).masked = true → (msixOf t q.fn v).pending = true))
  ∧ (∀ (s : State) (q : RingRef), q.fn < 64 → q.ring < 1024 → (ringOf s q).heldErrors ≠ 0 → cqFree (ringOf s (cqOf s q)) ≠ 0 →
    ∃ t, exec (.doorbellErrorCompletion q) s = .next t ∧ (ringOf t q).heldErrors = (ringOf s q).heldErrors - 1
      ∧ (ringOf t (cqOf s q)).cqTail = ((ringOf s (cqOf s q)).cqTail + 1) % (ringOf s (cqOf s q)).cqSize)

/-- The sweep of a function with an ACTIVE ring (R386): the summary bitmap is read and swapped with 0. In ACTIVE, a flagged pair whose own interval has elapsed takes
its submission record: an INDEX below the ring's size becomes the producer index last read, one at or above it is a doorbell error that freezes the ring with
ERR_TAG 0xFFFFFFFF and ERR_STATUS 0x14 (R387). Stated for a summary in which only that pair is flagged, none is asked for again, and the completion record is
unchanged. It rests on the model's readings of log entry 53. -/
def Obligations.SweepTakesDoorbells : Prop :=
  ∀ (s : State) (q : RingRef), q.fn < 64 → q.ring < 1024 → hostUp s = true → (ringOf s q).st = .active → ringExists s q = true → s.gov.st = .active →
    Memory.wf s.mem.host = true → s.boot.evq.length < 4096 →
    let a := (fnRegs s q.fn).summary.toNat
    let db := (fnRegs s q.fn).doorbell.toNat + 16 * q.ring
    let rec_ := readBytes s.mem.host db 16
    (ringsOf s q.fn).any (fun x => x.2.st == .active) = true → (∀ x ∈ ringsOf s q.fn, x.2.reread = false) →
    summaryBits (readBytes s.mem.host a 128) = [q.ring] → firstCovered (s.mem.hostFail ++ s.mem.hostBad) a (a + 128) = none → a + 128 ≤ db ∨ db + 16 ≤ a →
    (ringOf s q).handledAt = none → (ringOf s q).cqRec = some (leAt rec_ 8 2, leAt rec_ 12 4) → (ringOf s q).sqRec ≠ some (leAt rec_ 0 2, leAt rec_ 4 4) →
    ∃ t, exec (.sweep q.fn) s = .next t
      ∧ (leAt rec_ 0 2 < (ringOf s q).sqSize →
          readBytes t.mem.host a 128 = List.replicate 128 0 ∧ (ringOf t q).producer = leAt rec_ 0 2 ∧ (ringOf t q).st = .active)
      ∧ ((ringOf s q).sqSize ≤ leAt rec_ 0 2 →
          (ringOf t q).st = .frozen ∧ (ringOf t q).errTag = 0xFFFFFFFF ∧ (ringOf t q).errStatus = 0x14
            ∧ (ringOf t q).producer = (ringOf s q).producer)

/-! ### Entries -/

/-- The rows of submission entries, with what each does once the header checks of R394 have passed. -/
def Claims.entryRows : List ((RingRef → Entry → Instr) × (RingRef → Entry → State → Except CmdErr Taken)) :=
  [(.loadModel, loadModelBody), (.unloadModel, unloadModelBody), (.loadVocab, loadVocabBody), (.loadGrammar, loadGrammarBody),
   (.indexCreate, indexCreateBody), (.indexMerge, indexMergeBody), (.abort, abortBody), (.getLogErrorPage, getLogBody),
   (.getLogErrorRecords, getLogBody), (.setFeatureArbitration, arbitrationBody), (.setFeatureServing, servingBody),
   (.setFeaturePartition, partitionBody), (.setFeatureBoathouse, boathouseBody), (.setFeaturePackTemplate, packTemplateBody),
   (.setFeaturePassageStore, passageStoreBody), (.setFeatureGet, featureGetBody), (.shellJoin, shellJoinBody),
   (.firmwareActivate, firmwareActivateBody), (.tableCreate, tableCreateBody), (.tableDelete, tableDeleteBody), (.shellEnd, shellEndBody),
   (.enterPowerStateActive, powerBody), (.query, queryBody), (.embed, embedBody), (.search, searchBody), (.rerank, rerankBody), (.pack, packBody),
   (.generate, generateBody), (.pauseConversation, pauseBody), (.release, releaseBody), (.resumeConversation, resumeBody), (.tokenize, tokenizeBody),
   (.detokenize, detokenizeBody), (.indexInsert, indexInsertBody), (.indexDelete, indexDeleteBody), (.tableRowWrite, tableRowWriteBody),
   (.tableRowRead, tableRowReadBody), (.runOplist, runOplistBody), (.fence, fenceBody)]

/-- The state once an entry has been fetched (R388, R394): SQ_HEAD has passed it, its completion slot is reserved, and it has its place in the fetch order. -/
def Claims.fetched (q : RingRef) (s : State) : State :=
  let s1 := setRing s q { ringOf s q with sqHead := ((ringOf s q).sqHead + 1) % (ringOf s q).sqSize }
  let cq := cqOf s1 q
  let s2 := setRing s1 cq { ringOf s1 cq with reserved := (ringOf s1 cq).reserved + 1 }
  { s2 with srv := { s2.srv with fetchSeq := s2.srv.fetchSeq + 1 } }

/-- The package takes this entry: it is the next of an ACTIVE ring, the header checks of R394 pass, and no shell keeps it from the member (R437). -/
def Claims.takes (s : State) (q : RingRef) (e : Entry) : Prop :=
  canFetch q (entOp e) s = true ∧ headerError q e s = none ∧ (s.net.myMember = 0 ∨ s.net.shell = .solo ∨ s.net.shell = .joining)

/-- The state with the queue, the part and the backup domain of the state before. -/
def Claims.after (s t : State) : State := { t with pending := s.pending, part := s.part, cal := s.cal }

/-- An entry whose checks pass and which needs work beyond its fetch takes the lowest free slot: the request is QUEUED with the entry's function, ring, tag,
opcode, priority and place in the fetch order, and its work; every other slot is as it was (R300, R301, R389). One statement for the rows of the table's
admin and I/O commands that take a slot; the entry of a power state is stated apart. -/
def Claims.EntriesTakeSlots : Prop :=
  ∀ (s : State) (q : RingRef) (e : Entry), ∀ row ∈ Claims.entryRows, runs s (row.1 q e) = true → Claims.takes s q e →
    ∀ (w : Work) (u : State), row.2 q e (Claims.fetched q s) = .ok (.slot w u) → (∀ n, w ≠ .power n) → u.srv.holds = [] →
      risingKeys u.srv.slots = true →
      let k := leastFree u.srv.slots 0
      (slotOf u k = none ∧ ∀ j, j < k → slotOf u j ≠ none)
      ∧ ∃ t, exec (row.1 q e) s = .next t
        ∧ slotOf t k = some { fn := q.fn, ring := q.ring, tag := entTag e, opcode := entOp e, prio := entPrio e, entry := e, fetchSeq := s.srv.fetchSeq
                              tFetch := s.clk.ts, st := .queued, work := w, sqIndex := (ringOf s q).sqHead }
        ∧ (∀ j, j ≠ k → slotOf t j = slotOf u j)
        ∧ t = Claims.after s { u with srv := { u.srv with slots := t.srv.slots } }

/-- An entry whose checks pass and which is done at its fetch completes with its status and RESULT in the completion slot that was reserved for it (R390). -/
def Claims.EntriesComplete : Prop :=
  ∀ (s : State) (q : RingRef) (e : Entry), ∀ row ∈ Claims.entryRows, runs s (row.1 q e) = true → Claims.takes s q e →
    ∀ (st : Nat) (res : List Byte) (u : State), row.2 q e (Claims.fetched q s) = .ok (.done st res u) → u.srv.holds = [] → u.gov.draining = false →
      exec (row.1 q e) s
        = .next (Claims.after s (postCompletion q { tag := entTag e, opcode := entOp e, status := st, result := res } 1 u))

/-- What a fetched entry becomes (R301, R389, R390): a request in the lowest free slot, or, where it is done at its fetch, its completion. That the slot is the lowest free one is the
model's choice (log entry 52). It rests on the model's readings of log entries 57, 99. -/
def Obligations.EntriesAct : Prop := Claims.EntriesTakeSlots ∧ Claims.EntriesComplete

/-- A command error (R398, R399): the ring is FROZEN with SQ_HEAD just past the failed entry, RING_ERR and the error log page name the entry and the status, the
count of command errors goes up, and the failed command's completion is posted with FROZE. It holds of the header checks of R394 and of a command's own checks.
The entries after it stay in the ring. It rests on the model's readings of log entries 59, 99. -/
def Obligations.CommandErrorFreezes : Prop :=
  ∀ (s : State) (q : RingRef) (e : Entry), ∀ row ∈ Claims.entryRows, runs s (row.1 q e) = true → canFetch q (entOp e) s = true →
    s.srv.holds = [] → s.gov.draining = false →
    ∀ x : CmdErr,
      headerError q e s = some x
        ∨ (headerError q e s = none ∧ (s.net.myMember = 0 ∨ s.net.shell = .solo ∨ s.net.shell = .joining) ∧ row.2 q e (Claims.fetched q s) = .error x) →
      ∃ t, exec (row.1 q e) s = .next t
        ∧ (let r := ringOf t q; let r0 := ringOf s q
           r.st = .frozen ∧ r.sqHead = (r0.sqHead + 1) % r0.sqSize ∧ r.errTag = entTag e ∧ r.errIndex = r0.sqHead ∧ r.errOpcode = entOp e
             ∧ r.errStatus = x.status ∧ r.errCount = r0.errCount + 1
             ∧ r.page = { tag := entTag e, index := r0.sqHead, opcode := entOp e, status := x.status, time := s.clk.ts, check := x.check
                          fieldOff := x.off, block := x.block, dbSeq := 0 })
        ∧ t.srv.slots = s.srv.slots

/-- FENCE (R393): with an earlier command of its ring still in a slot it is held, and nothing is posted; with none it completes SUCCESS at once. ABORT (R401): a tag that
no request of the ring holds is answered NOT_FOUND (2) at once; the request that holds it is marked aborted, and is ENDING unless it runs in a stroke, whose commit point
ends it (R302), and the ABORT waits for its end with CAUGHT (0); for one that ends already, or that an ABORT does not catch, it waits with NOT_CAUGHT (1). A request that a
function-level reset ends is none of these commands (R404). -/
def Obligations.FenceAndAbort : Prop :=
  (∀ (s : State) (q : RingRef) (e : Entry), runs s (.fence q e) = true → Claims.takes s q e → entryZero e [] = .ok () → s.srv.holds = [] → s.gov.draining = false →
      (∀ x ∈ s.srv.slots, x.2.fetchSeq < s.srv.fetchSeq) →
      ((∃ x ∈ s.srv.slots, x.2.fn = q.fn ∧ x.2.ring = q.ring ∧ x.2.silent = false) →
        exec (.fence q e) s = .next { Claims.fetched q s with srv := { (Claims.fetched q s).srv with
          holds := [⟨q.fn, q.ring, entTag e, entOp e, s.srv.fetchSeq, 0, 0⟩] } })
      ∧ ((∀ x ∈ s.srv.slots, x.2.fn ≠ q.fn ∨ x.2.ring ≠ q.ring ∨ x.2.silent = true) →
        exec (.fence q e) s
          = .next (Claims.after s (postCompletion q { tag := entTag e, opcode := 0x3F, status := 0 } 1 (Claims.fetched q s)))))
  ∧ (∀ (s : State) (q : RingRef) (e : Entry), runs s (.abort q e) = true → Claims.takes s q e → entryZero e [(8, 6)] = .ok () →
      entryAt e 12 2 < allocOf s q.fn → s.srv.holds = [] → s.gov.draining = false →
      (taggedSlot s q.fn (entryAt e 12 2) (entryAt e 8 4) = none →
        exec (.abort q e) s
          = .next (Claims.after s (postCompletion q { tag := entTag e, opcode := 0x08, status := 0, result := leBytes 1 2 } 1 (Claims.fetched q s))))
      ∧ (∀ n r, taggedSlot s q.fn (entryAt e 12 2) (entryAt e 8 4) = some (n, r) → r.opcode ∉ [0x09, 0x0C, 0x0D, 0x0F] → r.st ≠ .ending →
          r.aborted = false → slotOf s n = some r →
        exec (.abort q e) s = .next (
          let u := setSlot (Claims.fetched q s) n { r with aborted := true, st := if r.st = .running then .running else .ending }
          { u with srv := { u.srv with holds := [⟨q.fn, q.ring, entTag e, entOp e, s.srv.fetchSeq, 0, r.fetchSeq⟩] } }))
      ∧ (∀ n r, taggedSlot s q.fn (entryAt e 12 2) (entryAt e 8 4) = some (n, r) →
          r.opcode ∈ [0x09, 0x0C, 0x0D, 0x0F] ∨ r.st = .ending ∨ r.aborted = true →
        exec (.abort q e) s = .next { Claims.fetched q s with srv := { (Claims.fetched q s).srv with
          holds := [⟨q.fn, q.ring, entTag e, entOp e, s.srv.fetchSeq, 1, r.fetchSeq⟩] } }))

/-- An ENTER_POWER_STATE of a row is next of its ring and its own checks pass (R397, R403). -/
def Claims.powerEntryTaken (s : State) (q : RingRef) (e : Entry) : Prop :=
  Claims.takes s q e ∧ powerFields e = .ok () ∧ s.gov.st = .active ∧ s.srv.holds = []

/-- STANDBY and RETAIN from ACTIVE with every slot FREE and no stroke open: the command completes SUCCESS at once, its completion is posted and its slot is free again, and
the package is ENTERING the state (R403 steps 2 and 4). -/
def Claims.PowerEntersAtOnce (s : State) (q : RingRef) (e : Entry) (row : (RingRef → Entry → Instr) × Nat × PwrState) : Prop :=
  s.net.shell = .solo → s.boot.act = .idle → s.srv.slots = [] → s.srv.strokeSince = none →
    ∃ t, exec (row.1 q e) s = .next t ∧ t.gov.st = .entering ∧ t.gov.target = row.2.2 ∧ t.gov.draining = false ∧ t.srv.slots = []
      ∧ t.gov.wakeOnDoorbell = hasBit (entryAt e 9 1) 0 ∧ t.gov.force = hasBit (entryAt e 9 1) 1
      ∧ (ringOf t q).sqHead = ((ringOf s q).sqHead + 1) % (ringOf s q).sqSize
      ∧ (let cq := cqOf s q; let p := ringOf s cq; let out := readBytes t.mem.host (p.cqBase.toNat + 32 * p.cqTail) 32
         (ringOf t cq).cqTail = (p.cqTail + 1) % p.cqSize
           ∧ (bitOf p.cfg 19 = false → Memory.wf s.mem.host = true →
               leAt out 0 4 = entTag e % 2 ^ 32 ∧ leAt out 6 2 = q.ring % 2 ^ 16 ∧ leAt out 8 1 = 0 ∧ leAt out 10 1 = 0x09))

/-- With a request in a slot or a stroke open the command takes the lowest free slot and the package begins to drain, up to DRAIN_MS, or 1,000 ms where that is 0 (R403 step 1). -/
def Claims.PowerDrains (s : State) (q : RingRef) (e : Entry) (row : (RingRef → Entry → Instr) × Nat × PwrState) : Prop :=
  s.net.shell = .solo → s.boot.act = .idle → powerSlots s = [] → s.srv.slots ≠ [] ∨ s.srv.strokeSince ≠ none → risingKeys s.srv.slots = true →
    ∃ t, exec (row.1 q e) s = .next t ∧ t.gov.st = .active ∧ t.gov.draining = true
      ∧ t.gov.drainUntil = s.clk.ts + 1000000 * (if entryAt e 12 4 = 0 then 1000 else entryAt e 12 4)
      ∧ t.gov.wakeOnDoorbell = hasBit (entryAt e 9 1) 0 ∧ t.gov.force = hasBit (entryAt e 9 1) 1
      ∧ (∃ r, slotOf t (leastFree s.srv.slots 0) = some r ∧ r.work = .power row.2.1 ∧ r.st = .queued ∧ r.tag = entTag e)
      ∧ (∀ k, k ≠ leastFree s.srv.slots 0 → slotOf t k = slotOf s k)

/-- Where it does not drain yet: during a firmware activation the command takes its slot and the package stays as it is (R513); with another ENTER_POWER_STATE in progress, or in a
shell of more than this package, it is a command error 0x17 that freezes its ring. -/
def Claims.PowerWaitsOrFails (s : State) (q : RingRef) (e : Entry) (row : (RingRef → Entry → Instr) × Nat × PwrState) : Prop :=
  s.gov.draining = false ∨ s.srv.strokeSince ≠ none →
    (s.net.shell = .solo → s.boot.act ≠ .idle → powerSlots s = [] → risingKeys s.srv.slots = true →
      ∃ t, exec (row.1 q e) s = .next t ∧ t.gov = s.gov
        ∧ ∃ r, slotOf t (leastFree s.srv.slots 0) = some r ∧ r.work = .power row.2.1 ∧ r.st = .queued ∧ r.tag = entTag e)
    ∧ (s.net.shell ≠ .solo ∨ powerSlots s ≠ [] →
      ∃ t, exec (row.1 q e) s = .next t ∧ t.gov = s.gov ∧ t.srv.slots = s.srv.slots ∧ (ringOf t q).st = .frozen ∧ (ringOf t q).errStatus = 0x17
        ∧ (ringOf t q).errTag = entTag e)

/-- ENTER_POWER_STATE with STATE 1 (STANDBY) and STATE 2 (RETAIN), R403: the entry completes at once, or begins to drain, or waits for a firmware activation, or fails with 0x17;
outside ACTIVE it stays in its ring. It rests on the model's readings of log entry 103. -/
def Obligations.PowerStateEntry : Prop :=
  ∀ (s : State) (q : RingRef) (e : Entry),
    ∀ row ∈ ([(.enterPowerStateStandby, 1, .standby), (.enterPowerStateRetain, 2, .retain)] : List ((RingRef → Entry → Instr) × Nat × PwrState)),
    runs s (row.1 q e) = true →
      (Claims.powerEntryTaken s q e →
        Claims.PowerEntersAtOnce s q e row ∧ Claims.PowerDrains s q e row ∧ Claims.PowerWaitsOrFails s q e row)
      ∧ (s.gov.st ≠ .active → exec (row.1 q e) s = .next s)

/-! ### Mailboxes and housekeeping DMA -/

/-- MB_H2D_POST (R407): a producer index at most 16 slots past H2D_CONS is taken and sets the firmware side's MESSAGE bit; one further on is ignored with
H2D_OVERRUN. MB_D2H_CONSUME (R409) takes a consumer index that does not pass D2H_PROD. Each is stated of a write that leaves the other index as it is. -/
def Claims.MailboxIndexes : Prop :=
  ∀ (s : State) (w : RegAccess), fnWrite w s = true → s.boot.evq.length < 4096 → let c := channelOf s w.fn
    let prod := fieldOf (written w) 4 0; let cons := fieldOf (written w) 28 24
    (covers w 4 0 = true → cons = c.d2hCons →
      ∃ t, exec (.mbH2dPost w) s = .next t
        ∧ (16 < (prod + 32 - c.h2dCons) % 32 → channelOf t w.fn = { c with overrun := true })
        ∧ ((prod + 32 - c.h2dCons) % 32 ≤ 16 → prod ≠ c.h2dProd →
            channelOf t w.fn = { c with h2dProd := prod, fwBits := c.fwBits ||| 1 } ∧ hasBit (channelOf t w.fn).fwBits 0 = true)
        ∧ (∀ n, n ≠ w.fn → channelOf t n = channelOf s n)
        ∧ t = { s with mbox := t.mbox, boot := { s.boot with highWater := t.boot.highWater, evq := t.boot.evq } })
    ∧ (covers w 28 24 = true → prod = c.h2dProd → (prod + 32 - c.h2dCons) % 32 ≤ 16 →
      ∃ t, exec (.mbD2hConsume w) s = .next t
        ∧ channelOf t w.fn = (if (cons + 32 - c.d2hCons) % 32 ≤ (c.d2hProd + 32 - c.d2hCons) % 32 then { c with d2hCons := cons } else c)
        ∧ (∀ n, n ≠ w.fn → channelOf t n = channelOf s n) ∧ t = { s with mbox := t.mbox })

/-- MB_DB_RING (R409): the bits of RING from 1 to 30 are set on the firmware side, and bits of PENDING written 1 clear on the host side. -/
def Claims.MailboxDoorbell : Prop :=
  ∀ (s : State) (w : RegAccess), fnWrite w s = true → covers w 30 0 = true → s.boot.evq.length + 30 ≤ 4096 → let c := channelOf s w.fn
    ∃ t, exec (.mbDbRing w) s = .next t
      ∧ (∀ b, b < 32 → hasBit (channelOf t w.fn).fwBits b = (hasBit c.fwBits b || (decide (1 ≤ b) && decide (b ≤ 30) && bitOf (written w) b)))
      ∧ (∀ b, b < 32 → hasBit (channelOf t w.fn).hostBits b = (hasBit c.hostBits b && !bitOf (written w) (32 + b)))
      ∧ (∀ n, n ≠ w.fn → channelOf t n = channelOf s n)
      ∧ t = { s with mbox := t.mbox, boot := { s.boot with highWater := t.boot.highWater, evq := t.boot.evq } }

/-- The host's side of a mailbox channel: its indexes and its doorbell (R407, R409). It rests on the model's readings of log entry 84. -/
def Obligations.MailboxHostSide : Prop := Claims.MailboxIndexes ∧ Claims.MailboxDoorbell

/-- MAILBOX_RESPONSE (R408): the firmware takes the oldest host-to-device message of a channel and answers it in the next device-to-host slot with RESPONSE 1 and the
message's COOKIE: ECHO returns its payload, STATUS returns HEALTH and BOOT_STATUS, and a reserved type is answered as type 0 with no payload. The message
bit of the host side is set. MB_D2H_POST (R407): a held message goes into the next slot once there is room. It rests on the model's readings of log entry 84. -/
def Obligations.MailboxMessages : Prop :=
  (∀ (s : State) (ch : Nat), ch < 64 → fwRunning s = true → let c := channelOf s ch
    c.h2dCons ≠ c.h2dProd → d2hRoom c = true → c.held = [] → Memory.wf c.d2h = true →
    let msg := readBytes c.h2d (64 * (c.h2dCons % 16)) 64
    ∃ t, exec (.mailboxResponse ch) s = .next t
      ∧ (let x := channelOf t ch; let out := readBytes x.d2h (64 * (c.d2hProd % 16)) 64
         x.h2dCons = (c.h2dCons + 1) % 32 ∧ x.d2hProd = (c.d2hProd + 1) % 32 ∧ hasBit x.hostBits 0 = true
           ∧ slice out 4 4 = slice msg 4 4 ∧ leAt out 2 1 = 1
           ∧ (leAt msg 0 2 = 1 → leAt out 0 2 = 1 ∧ leAt out 3 1 = leAt msg 3 1
               ∧ (∀ i, i < leAt msg 3 1 → i < 56 → out[8 + i]? = msg[8 + i]?))
           ∧ (leAt msg 0 2 = 2 → leAt out 0 2 = 2 ∧ leAt out 3 1 = 16 ∧ leAt out 8 8 = healthReg s % 2 ^ 64 ∧ leAt out 16 8 = bootReg s % 2 ^ 64)
           ∧ (leAt msg 0 2 ≠ 1 → leAt msg 0 2 ≠ 2 → leAt out 0 2 = 0 ∧ leAt out 3 1 = 0))
      ∧ ∀ n, n ≠ ch → channelOf t n = channelOf s n)
  ∧ (∀ (s : State) (ch : Nat) (msg : List Byte) (rest : List (List Byte)), ch < 64 → fwRunning s = true → (channelOf s ch).held = msg :: rest →
      d2hRoom (channelOf s ch) = true → Memory.wf (channelOf s ch).d2h = true →
    ∃ t, exec (.mbD2hPost ch) s = .next t ∧ (channelOf t ch).held = rest
      ∧ (channelOf t ch).d2hProd = ((channelOf s ch).d2hProd + 1) % 32
      ∧ readBytes (channelOf t ch).d2h (64 * ((channelOf s ch).d2hProd % 16)) 64 = slice msg 0 64)
  ∧ ∀ (s : State) (ch : Nat), ch < 64 → (channelOf s ch).held = [] → exec (.mbD2hPost ch) s = .next s

/-- A write to a channel's DMA_CTL with one action and no other. -/
def Claims.dmaAction (s : State) (ch : Nat) (w : RegAccess) (k : Nat) : Prop :=
  ch < 16 ∧ pfWrite w s = true ∧ ∀ j, j < 4 → wrote w j = decide (j = k)

/-- DMA_START on a channel that is not in a transfer (R413, R416): the writable fields of DMA_CTL take the write, the channel's record of its last transfer
clears, SEQ counts the START, and it is RUNNING; a contiguous side that names a region it may not use stops it in ERROR with code 2 before a byte moves. On a
channel in a transfer START does nothing. -/
def Claims.DmaStart : Prop :=
  ∀ (s : State) (ch : Nat) (w : RegAccess), Claims.dmaAction s ch w 0 → let d := dmaOf s ch
    (dmaIdle d = true → ∃ t, exec (.dmaStart ch w) s = .next t ∧ (let d' := dmaOf t ch
      let srcOk := bitOf d'.ctl 40 || sideOk s false (if bitOf d'.ctl 42 then some (fieldOf d'.ctl 55 48) else none) d.src.toNat d.count.toNat
      let dstOk := bitOf d'.ctl 41 || sideOk s true (if bitOf d'.ctl 43 then some (fieldOf d'.ctl 63 56) else none) d.dst.toNat d.count.toNat
      (w.half = .full → ∀ f ∈ [(63, 56), (55, 48), (43, 43), (42, 42), (41, 41), (40, 40), (36, 32), (8, 8)],
          fieldOf d'.ctl f.1 f.2 = fieldOf w.data f.1 f.2)
        ∧ d'.bytesDone = 0 ∧ d'.seq = (d.seq + 1) % 2 ^ 32 ∧ d'.poisonAt = none ∧ d'.src = d.src ∧ d'.dst = d.dst ∧ d'.count = d.count
        ∧ (srcOk = true → dstOk = true → d'.st = .running ∧ d'.error = 0 ∧ t.mem = s.mem)
        ∧ (srcOk = false ∨ dstOk = false → d'.st = .error ∧ d'.error = 2))
      ∧ ∀ n, n ≠ ch → dmaOf t n = dmaOf s n)
    ∧ (dmaIdle d = false → exec (.dmaStart ch w) s = .next s)

/-- DMA_PAUSE turns RUNNING into PAUSING, DMA_RESUME turns PAUSED into RUNNING, DMA_ABORT waits for the unit boundary of a channel that moves and stops a PAUSED one
at once as ABORTED with its completion record in host memory (R413, R415). Elsewhere they do nothing. -/
def Claims.DmaActions : Prop :=
  ∀ (s : State) (ch : Nat) (w : RegAccess), let d := dmaOf s ch
    dmaIdle d = false →
    (Claims.dmaAction s ch w 1 →
      exec (.dmaPause ch w) s = .next (if d.st = .running then setDma s ch { d with st := .pausing } else s))
    ∧ (Claims.dmaAction s ch w 2 →
      exec (.dmaResume ch w) s = .next (if d.st = .paused then setDma s ch { d with st := .running } else s))
    ∧ (Claims.dmaAction s ch w 3 → d.st ≠ .paused → exec (.dmaAbort ch w) s = .next (setDma s ch { d with aborting := true }))
    ∧ (Claims.dmaAction s ch w 3 → d.st = .paused → bitOf d.ctl 8 = false → Memory.wf s.mem.host = true →
      ∃ t, exec (.dmaAbort ch w) s = .next t ∧ dmaOf t ch = { d with st := .aborted, aborting := false }
        ∧ readBytes t.mem.host d.cpl.toNat 32 = leBytes 8 d.bytesDone ++ leBytes 4 d.seq ++ leBytes 1 2 ++ leBytes 1 d.error
            ++ leBytes 1 (bit d.poisonAt.isSome) ++ leBytes 1 0 ++ leBytes 8 (d.poisonAt.getD (2 ^ 64 - 1)) ++ leBytes 4 (min d.poisonWords 0xFFFFFFFF)
            ++ leBytes 4 0
        ∧ ∀ a, a < d.cpl.toNat ∨ d.cpl.toNat + 32 ≤ a → readByte t.mem.host a = readByte s.mem.host a)

/-- The action bits of a DMA channel's control register (R413, R415, R416). It rests on the model's readings of log entries 85, 86. -/
def Obligations.DmaControl : Prop := Claims.DmaStart ∧ Claims.DmaActions

/-- DMA_UNIT_MOVED (R414), for a transfer between two places of host memory that read well: the channel moves the bytes up to the next multiple of 4,096 of the
destination or to the last byte, whichever comes first; with bytes left it goes on, or pauses or aborts at this boundary, and after the last it is DONE, with PAUSE_LATE
where a PAUSE came too late (R413). The bytes land as they were read, and while the transfer goes on nothing else of host memory changes. It rests on the model's readings of log entry 85. -/
def Obligations.DmaMovesUnits : Prop :=
  ∀ (s : State) (ch : Nat), ch < 16 → clocksRun s = true → let d := dmaOf s ch
    d.st = .running ∨ d.st = .pausing → bitOf d.ctl 40 = false → bitOf d.ctl 41 = false → bitOf d.ctl 42 = false → bitOf d.ctl 43 = false →
    s.mem.hostFail = [] → s.mem.hostBad = [] → Memory.wf s.mem.host = true → d.bytesDone < d.count.toNat →
    let land := d.dst.toNat + d.bytesDone
    let n := min (d.count.toNat - d.bytesDone) (4096 - land % 4096)
    ∃ t, exec (.dmaUnitMoved ch) s = .next t
      ∧ (dmaOf t ch).bytesDone = d.bytesDone + n ∧ (dmaOf t ch).seq = d.seq ∧ (dmaOf t ch).error = d.error
      ∧ (d.bytesDone + n = d.count.toNat →
          (dmaOf t ch).st = .done ∧ (dmaOf t ch).pauseLate = (d.pauseLate || d.st == .pausing))
      ∧ (d.bytesDone + n < d.count.toNat →
          (dmaOf t ch).st = (if d.aborting = true then .aborted else if d.st = .pausing then .paused else .running)
            ∧ (dmaOf t ch).pauseLate = d.pauseLate)
      ∧ (d.bytesDone + n < d.count.toNat → d.aborting = false → d.st = .running →
          (∀ i, i < n → readByte t.mem.host (land + i) = readByte s.mem.host (d.src.toNat + d.bytesDone + i))
            ∧ (∀ a, a < land ∨ land + n ≤ a → readByte t.mem.host a = readByte s.mem.host a)
            ∧ t = { s with dma := t.dma, mem := { s.mem with host := t.mem.host } })

/-! ### The calendar and the clocks -/

/-- CAL_COMMIT (R494): a write to CAL_CTL with COMMIT set, while the backup domain has power, loads CAL_TIME_SET and CAL_SUBSEC_SET into the calendar at once and sets VALID;
TRIM takes its field and BATT_LOST clears on a 1. Where nothing can expire (no conversation is paused) nothing but the backup domain changes. -/
def Claims.CalendarCommit : Prop :=
  ∀ (s : State) (w : RegAccess), wrote w 0 = true → pfWrite w s = true → s.cal.powered = true → s.srv.convs = [] →
    exec (.calCommit w) s
      = .next { s with cal := { s.cal with
          sec := s.cal.setSec, frac := s.cal.setFrac, valid := true
          trim := if covers w 15 8 = true then signedOf 8 (fieldOf (written w) 15 8) else s.cal.trim
          battLost := s.cal.battLost && !wrote w 2 } }

/-- The reads that latch (R493, R497): a read that includes bits 31:0 of CAL_TIME holds the upper seconds and the fraction for that reader and no other, sets HELD and
returns the seconds; a read of the upper half alone returns what was held. A read of CAL_SUBSEC with HELD returns the held fraction with HELD, which clears; without it
the live fraction. A read of TIMESTAMP that includes bits 31:0 holds bits 63:32 for a read of the upper half. -/
def Obligations.LatchingReads : Prop :=
  (∀ (s : State) (a : Reader), canRead a s = true →
    (∃ t, exec (.calTimeRead a .full) s = .next t ∧ t.port.readData = BitVec.ofNat 64 s.cal.sec
      ∧ holdingOf t.cal a = ⟨true, s.cal.sec / 2 ^ 32, s.cal.frac⟩ ∧ (∀ b, b ≠ a → holdingOf t.cal b = holdingOf s.cal b))
    ∧ (∃ t, exec (.calTimeRead a .low) s = .next t ∧ t.port.readData = BitVec.ofNat 64 (s.cal.sec % 2 ^ 32)
      ∧ holdingOf t.cal a = ⟨true, s.cal.sec / 2 ^ 32, s.cal.frac⟩ ∧ (∀ b, b ≠ a → holdingOf t.cal b = holdingOf s.cal b))
    ∧ exec (.calTimeRead a .high) s = .next { s with port := { s.port with readData := BitVec.ofNat 64 (holdingOf s.cal a).secHi } }
    ∧ (∀ h, h ≠ .high → (holdingOf s.cal a).held = true → ∃ t, exec (.calSubsecRead a h) s = .next t
        ∧ t.port.readData = BitVec.ofNat 64 (65536 + (holdingOf s.cal a).frac)
        ∧ holdingOf t.cal a = { holdingOf s.cal a with held := false } ∧ (∀ b, b ≠ a → holdingOf t.cal b = holdingOf s.cal b) ∧ t.cal.frac = s.cal.frac)
    ∧ (∀ h, h ≠ .high → (holdingOf s.cal a).held = false →
        exec (.calSubsecRead a h) s = .next { s with port := { s.port with readData := BitVec.ofNat 64 s.cal.frac } }))
  ∧ ∀ (s : State), hostUp s = true →
    (∃ t, exec (.timestampRead .full) s = .next t ∧ t.port.readData = BitVec.ofNat 64 s.clk.ts ∧ t.clk = { s.clk with tsHi := s.clk.ts / 2 ^ 32 })
    ∧ (∃ t, exec (.timestampRead .low) s = .next t ∧ t.port.readData = BitVec.ofNat 64 (s.clk.ts % 2 ^ 32)
        ∧ t.clk = { s.clk with tsHi := s.clk.ts / 2 ^ 32 })
    ∧ exec (.timestampRead .high) s = .next { s with port := { s.port with readData := BitVec.ofNat 64 s.clk.tsHi } }

/-- The crystal and its supply (R492, R495, R496). A tick advances calendar time by exactly 2 units of 2^-16 s, modulo 2^56 units, and ends OSC_FAIL; at the end of a trim window
TRIM ticks are added, or as many omitted; OSC_FAIL, BATT_LOW and its end set and clear their flags; loss of backup power leaves the domain without power and its content
lost, and power that returns starts the calendar at 0 with BATT_LOST set and VALID clear. The set registers are no part of the domain. -/
def Claims.CrystalAndBackup : Prop :=
  ∀ s : State, CalLegal s.cal →
    (s.cal.powered = true →
      (∃ t, exec .calendarTick s = .next t ∧ calUnits t.cal = (calUnits s.cal + 2) % 2 ^ 56 ∧ t.cal.oscFail = false ∧ t.cal.trim = s.cal.trim
        ∧ t.cal.valid = s.cal.valid ∧ (s.gov.st ≠ .retain → t = { s with cal := t.cal })
        ∧ (s.gov.st = .retain → clocksRun s = true →
            t.clk.ts = (s.clk.ts + 30517 + (s.clk.retainFrac + 37) / 64) % 2 ^ 64 ∧ t.clk.retainFrac = (s.clk.retainFrac + 37) % 64))
      ∧ (0 ≤ (calUnits s.cal : Int) + 2 * s.cal.trim → ∃ t, exec .trimWindowEnd s = .next t
          ∧ (calUnits t.cal : Int) = ((calUnits s.cal : Int) + 2 * s.cal.trim) % 2 ^ 56 ∧ t.cal.windowTicks = 0 ∧ t = { s with cal := t.cal })
      ∧ exec .oscFail s = .next { s with cal := { s.cal with oscFail := true } }
      ∧ exec .battLow s = .next { s with cal := { s.cal with battLow := true } }
      ∧ exec .battLowCleared s = .next { s with cal := { s.cal with battLow := false } })
    ∧ (∃ t, exec .backupPowerLoss s = .next t ∧ t.cal.powered = false ∧ t.cal.battLost = true ∧ t.cal.valid = false ∧ t.cal.scratch = []
        ∧ t.cal.setSec = s.cal.setSec ∧ t = { s with cal := t.cal })
    ∧ (s.cal.powered = false → ∃ t, exec .backupDomainPowerUp s = .next t ∧ t.cal.powered = true ∧ calUnits t.cal = 0 ∧ t.cal.battLost = true ∧ t.cal.valid = false
        ∧ t.cal.setSec = s.cal.setSec ∧ t = { s with cal := t.cal })

/-- The calendar: the commit of a time that was set, and the crystal's ticks, trim windows, failures and power (R492, R494 to R496). It rests on the model's readings of log entry 76. -/
def Obligations.CalendarKeepsTime : Prop := Claims.CalendarCommit ∧ Claims.CrystalAndBackup

/-- REF_LOST (R483) stops every clock but the calendar's. CDC_TIMEOUT (R475, R485) leaves the record of event 0x31 with class 2, the crossing in DETAIL0, and the action
that the transfer asks for: a shell restart where it carried committed work, else none. It rests on the model's readings of log entry 77. -/
def Obligations.ClockFaults : Prop :=
  (∀ s : State, s.pins.pwrok = true → exec .refLost s = .next { s with clk := { s.clk with refLost := true, stopped := true } })
  ∧ ∀ (s : State) (x : Nat), x / 256 ≤ 41 → x % 256 ≤ 41 → clocksRun s = true → s.boot.evq.length + 2 ≤ 4096 → bitOf s.flt.ctl 0 = false →
    ∃ t r, exec (.cdcTimeout x false) s = .next t ∧ t.flt.live.head? = some r ∧ t.flt.live.length = min 4096 (s.flt.live.length + 1)
      ∧ r.code = 0x31 ∧ r.cls = 2 ∧ r.action = 0 ∧ r.detail0 = x ∧ r.committed = false ∧ r.time = s.clk.ts ∧ r.seq = (s.flt.newest + 1) % 2 ^ 32
      ∧ t.srv = s.srv ∧ t.net = s.net ∧ t.mem = s.mem

/-! ### Memory tiers -/

/-- Region commands (R342), from the physical function while no command is busy: ENABLE of a DISABLED region and INVALIDATE of an ACTIVE one begin; DISABLE of an ACTIVE region
that nothing is bound to leaves it DISABLING with the write buffer drained; FLUSH leaves it FLUSHING with every tile clean. A device region answers RESULT 2, a state that
does not allow the command 6, a bound object 5; while a command is busy every other is ignored with CMD_IGNORED. -/
def Claims.RegionCommandsStart : Prop :=
  ∀ (s : State) (n : Nat), n < 256 → hostUp s = true → let r := regionOf s n
    let began := fun (op : Nat) (t : State) => t.mem.busy = true ∧ t.mem.cmd = some (op, n) ∧ t.mem.lastRegion = n ∧ t.mem.result = s.mem.result
    let failed := fun (k : Nat) => (Host.Outcome.next { s with mem := { s.mem with lastRegion := n, result := k } } : Host.Outcome State Fault Refusal)
    (s.mem.busy = true → ∀ c ∈ ([.regionEnable 0 n, .regionDisable 0 n, .regionFlush 0 n, .regionInvalidate 0 n] : List Instr),
        exec c s = .next { s with mem := { s.mem with cmdIgnored := true } })
    ∧ (s.mem.busy = false → n < 64 → ∀ c ∈ ([.regionEnable 0 n, .regionDisable 0 n, .regionFlush 0 n, .regionInvalidate 0 n] : List Instr),
        exec c s = failed 2)
    ∧ (s.mem.busy = false → 64 ≤ n →
      (r.st = .disabled → ∃ t, exec (.regionEnable 0 n) s = .next t ∧ began 1 t ∧ regionOf t n = r ∧ t = { s with mem := t.mem })
      ∧ (r.st ≠ .disabled → exec (.regionEnable 0 n) s = failed 6)
      ∧ (r.st ≠ .active → exec (.regionDisable 0 n) s = failed 6 ∧ exec (.regionFlush 0 n) s = failed 6 ∧ exec (.regionInvalidate 0 n) s = failed 6)
      ∧ (r.st = .active → regionBound s n = true → exec (.regionDisable 0 n) s = failed 5)
      ∧ (r.st = .active → regionBound s n = false →
          ∃ t, exec (.regionDisable 0 n) s = .next t ∧ began 2 t ∧ (regionOf t n).st = .disabling ∧ t.mem.wb = [] ∧ t = { s with mem := t.mem })
      ∧ (r.st = .active → risingKeys r.near = true →
          ∃ t, exec (.regionFlush 0 n) s = .next t ∧ began 3 t ∧ (regionOf t n).st = .flushing
            ∧ (∀ k x, slookup (regionOf t n).near k = some x → x.dirty = false) ∧ (∀ m, m ≠ n → regionOf t m = regionOf s m) ∧ t = { s with mem := t.mem })
      ∧ (r.st = .active → ∃ t, exec (.regionInvalidate 0 n) s = .next t ∧ began 4 t ∧ regionOf t n = r ∧ t = { s with mem := t.mem }))

/-- REGION_CMD_COMPLETE (R342): ENABLE checks the configuration, and answers INVALID 1, OVERLAP 3, NO_NEAR_SPACE 4 or PORT_DOWN 7 with the region still DISABLED, or makes it
ACTIVE with an empty near copy; DISABLE ends with the region DISABLED and its near copy empty, FLUSH with it ACTIVE again, INVALIDATE with an empty near copy. The configuration
is kept, and BUSY clears. -/
def Claims.RegionCommandEnds : Prop :=
  ∀ (s : State) (op n : Nat), s.mem.cmd = some (op, n) → clocksRun s = true → let r := regionOf s n
    let ended := fun (k : Nat) (t : State) => t.mem.busy = false ∧ t.mem.cmd = none ∧ t.mem.result = k ∧ t = { s with mem := t.mem }
    let keeps := fun (r' : Region) => r'.base = r.base ∧ r'.size = r.size ∧ r'.cfg = r.cfg
    (op = 1 →
      let result :=
        if regionValid s r = false then 1
        else if regionOverlaps s n r = true then 3
        else if nearFree s r.partn < r.nearMib * 2 ^ 20 then 4
        else if ∃ p ∈ regionPorts s r, (farPortOf s p).serving = false ∨ (farPortOf s p).linkUp = false then 7 else 0
      ∃ t, exec .regionCmdComplete s = .next t ∧ ended result t ∧ keeps (regionOf t n)
        ∧ (result = 0 → (regionOf t n).st = .active ∧ (regionOf t n).near = []) ∧ (result ≠ 0 → regionOf t n = r))
    ∧ (op = 2 → ∃ t, exec .regionCmdComplete s = .next t ∧ ended 0 t ∧ keeps (regionOf t n) ∧ (regionOf t n).st = .disabled ∧ (regionOf t n).near = [])
    ∧ (op = 3 → r.st = .flushing → ∃ t, exec .regionCmdComplete s = .next t ∧ ended 0 t ∧ regionOf t n = { r with st := .active })
    ∧ (op = 4 → ∃ t, exec .regionCmdComplete s = .next t ∧ ended 0 t ∧ keeps (regionOf t n) ∧ (regionOf t n).st = r.st ∧ (regionOf t n).near = [])

/-- Region commands from their start to their end (R342). It rests on the model's readings of log entry 87. -/
def Obligations.RegionCommands : Prop := Claims.RegionCommandsStart ∧ Claims.RegionCommandEnds

/-- REGION_CONFIG_WRITE (R336, R341, R15), a 64-bit write: a DISABLED region of software takes each field whose value is in range, a reserved TIER or MODE leaves that field as it was; a
write to a region that is not DISABLED sets CFG_IGNORED and nothing else; the device's own regions ignore it. MEM_CTL_WRITE (R346): SCRUB_HOURS and the retain bit take their
fields, FM_INTERLEAVE only while nothing uses far memory, and a change of it builds the map of the serving ports. FMP_RETRAIN: MAX_RATE takes its field, and 1 holds the rate to 32 GT/s;
ENABLE 0 takes down a port that nothing uses. It rests on the model's readings of log entries 60, 88. -/
def Obligations.MemorySetUp : Prop :=
  (∀ (s : State) (n : Nat) (w : RegAccess), n < 256 → pfWrite w s = true → w.half = .full → let r := regionOf s n
    (n < 64 → ∀ x, exec (.regionConfigWrite n x w) s = .next s)
    ∧ (64 ≤ n → r.st ≠ .disabled → ∀ x, exec (.regionConfigWrite n x w) s = .next { s with mem := { s.mem with cfgIgnored := true } })
    ∧ (64 ≤ n → r.st = .disabled → ∃ r', exec (.regionConfigWrite n .base w) s = .next (setRegion s n r') ∧ { r' with base := r.base } = r
        ∧ fieldOf r'.base 57 12 = fieldOf w.data 57 12 ∧ fieldOf r'.base 63 62 = (if fieldOf w.data 63 62 = 3 then fieldOf r.base 63 62 else fieldOf w.data 63 62)
        ∧ fieldOf r'.base 11 0 = fieldOf r.base 11 0)
    ∧ (64 ≤ n → r.st = .disabled → ∃ r', exec (.regionConfigWrite n .size w) s = .next (setRegion s n r') ∧ { r' with size := r.size } = r
        ∧ fieldOf r'.size 47 12 = fieldOf w.data 47 12 ∧ fieldOf r'.size 11 0 = fieldOf r.size 11 0 ∧ fieldOf r'.size 63 48 = fieldOf r.size 63 48)
    ∧ (64 ≤ n → r.st = .disabled → ∃ r', exec (.regionConfigWrite n .cfg w) s = .next (setRegion s n r') ∧ { r' with cfg := r.cfg } = r
        ∧ fieldOf r'.cfg 47 16 = fieldOf w.data 47 16 ∧ fieldOf r'.cfg 15 12 = fieldOf w.data 15 12 ∧ fieldOf r'.cfg 11 10 = fieldOf w.data 11 10
        ∧ fieldOf r'.cfg 1 0 = (if fieldOf w.data 1 0 < 2 then fieldOf w.data 1 0 else fieldOf r.cfg 1 0)))
  ∧ (∀ (s : State) (w : RegAccess), pfWrite w s = true → w.half = .full →
    ∃ t, exec (.memCtlWrite w) s = .next t ∧ fieldOf t.mem.ctl 15 8 = fieldOf w.data 15 8 ∧ bitOf t.mem.ctl 1 = bitOf w.data 1
      ∧ (farInUse s = true → t = { s with mem := { s.mem with ctl := t.mem.ctl } } ∧ bitOf t.mem.ctl 0 = bitOf s.mem.ctl 0)
      ∧ (farInUse s = false → bitOf t.mem.ctl 0 = bitOf w.data 0)
      ∧ (farInUse s = false → s.mem.mapValid = true → bitOf w.data 0 ≠ bitOf s.mem.ctl 0 → t.mem.mapPorts = servingPorts s
          ∧ (t.mem.mapInterleaved = true → bitOf w.data 0 = true ∧ (t.mem.mapPorts.length = 1 ∨ t.mem.mapPorts.length = 2 ∨ t.mem.mapPorts.length = 4)
              ∧ ∀ p ∈ t.mem.mapPorts, ∀ q ∈ t.mem.mapPorts, (farPortOf s p).capacityGib = (farPortOf s q).capacityGib)
          ∧ t.mem.fallback = (bitOf w.data 0 && !t.mem.mapInterleaved)))
  ∧ ∀ (s : State) (p : Nat) (w : RegAccess), p < Config.farPorts s.part → wrote w 1 = true → pfWrite w s = true → w.half = .full → let f := farPortOf s p
    let rate := if fieldOf w.data 5 4 < 2 then fieldOf w.data 5 4 else f.maxRate
    f.maxRate < 4 →
    (bitOf w.data 0 = true →
      exec (.fmpRetrain p w) s
        = .next (setFarPort s p { f with enable := true, maxRate := rate, rate := if rate = 1 then min f.rate 1 else f.rate }))
    ∧ (bitOf w.data 0 = false → f.enable = true → portInUse s p = false →
      ∃ t, exec (.fmpRetrain p w) s = .next t ∧ (farPortOf t p).enable = false ∧ (farPortOf t p).linkUp = false ∧ (farPortOf t p).serving = false
        ∧ (farInUse s = false → s.mem.mapValid = true → p ∉ t.mem.mapPorts))

/-- The newest record of the live log, with the time of detection and the next SEQ (R461 to R463). -/
def Claims.recorded (s t : State) (r : ErrRec → Prop) : Prop :=
  ∃ x, t.flt.live.head? = some x ∧ r x ∧ x.time = s.clk.ts ∧ x.seq = (s.flt.newest + 1) % 2 ^ 32 ∧ t.flt.newest = x.seq

/-- A detected event is taken without waiting: no activation holds the firmware and the event queue has room (R513, R514). -/
def Claims.eventsFlow (s : State) : Prop := s.boot.act ≠ .held ∧ s.boot.evq.length < 4096

/-- An expander that meets every requirement of R345. -/
def Claims.meets (x : Expander) : Prop :=
  x.type3 = true ∧ 64 ≤ x.capacityGib ∧ x.capacityGib ≤ 4096 ∧ x.wideEnough = true ∧ x.fastEnough = true ∧ x.multiLogical = false ∧ x.volatileRange = true
    ∧ x.poison = true ∧ x.retains = true

/-- REJECT of an expander (R345): 1 to 5 for the first of the requirements that the field names, 0 where all are met; for the requirements on poison and retention, which no value of
the field names, a free value (log entry 149). -/
def Claims.rejectOf (x : Expander) : Nat :=
  if x.type3 = false then 1 else if x.capacityGib < 64 ∨ 4096 < x.capacityGib then 2 else if x.wideEnough = false ∨ x.fastEnough = false then 3
  else if x.multiLogical = true then 4 else if x.volatileRange = false then 5
  else if x.poison = true ∧ x.retains = true then 0 else (Config.rejectOther x.serial).toNat

/-- Far-memory ports (R345 to R347). A link lost is retrained; the same expander puts the port back in service; another, or none, loses it for good: its regions, of software or of the device, are
FAILED with an empty near copy and event 0x40 is recorded (stated where no dirty tile is lost and no conversation is there). A read beyond 50 µs is recorded as event 0x41, and the third on a port sets
REJECT 6, which takes the port out of service where no region uses far memory. A port that comes up serves where its expander meets every requirement, and only then; otherwise REJECT tells the first that
fails, and the map is built of the serving ports. It rests on the model's readings of log entries 79, 88, 134, 149. -/
def Obligations.FarMemoryPorts : Prop :=
  ∀ (s : State) (p : Nat), p < Config.farPorts s.part → clocksRun s = true → let f := farPortOf s p
    (f.serving = true → f.linkUp = true → exec (.fmpLinkLoss p) s = .next (setFarPort s p { f with linkUp := false, retraining := true }))
    ∧ (f.retraining = true → exec (.fmpRetrainEnd p true) s = .next (setFarPort s p { f with linkUp := true, retraining := false }))
    ∧ (f.retraining = true → Claims.eventsFlow s → s.srv.convs = [] → s.mem.wb = [] →
        (∀ n ∈ portRegions s p, ∀ x ∈ (regionOf s n).near, x.2.dirty = false) →
      ∃ t, exec (.fmpRetrainEnd p false) s = .next t ∧ (farPortOf t p).serving = false ∧ (farPortOf t p).retraining = false
        ∧ (∀ n ∈ portRegions s p, (regionOf t n).st = .failed ∧ (regionOf t n).near = [])
        ∧ (∀ n, n ∉ portRegions s p → regionOf t n = regionOf s n)
        ∧ Claims.recorded s t (fun x => x.code = 0x40 ∧ x.cls = 2 ∧ x.action = 0 ∧ x.unitKind = 5 ∧ x.unit = p ∧ x.detail0 = f.serial)
        ∧ t.srv = s.srv)
    ∧ (∀ a ns, f.serving = true → 50000 < ns → Claims.eventsFlow s →
      let rej := if 3 ≤ f.timeouts + 1 then 6 else f.reject
      ∃ t, exec (.fmpReadTimeout p a ns) s = .next t
        ∧ (farPortOf t p).timeouts = f.timeouts + 1 ∧ (farPortOf t p).reject = rej
        ∧ (regionAt s a = none →
            farPortOf t p = { f with timeouts := f.timeouts + 1, reject := rej, serving := !(rej == 6 && !farInUse s) } ∧ t.srv = s.srv)
        ∧ Claims.recorded s t (fun x => x.code = 0x41 ∧ x.cls = 2 ∧ x.action = 0 ∧ x.unitKind = 5 ∧ x.unit = p ∧ x.addr = a ∧ x.detail0 = ns))
    ∧ (∀ x : Expander, s.mem.mapValid = true → f.enable = true → f.serving = false → farInUse s = false →
      ∃ t, exec (.fmpPortInService p x) s = .next t ∧ (farPortOf t p).linkUp = true ∧ (farPortOf t p).capacityGib = x.capacityGib
        ∧ (farPortOf t p).reject = Claims.rejectOf x
        ∧ ((farPortOf t p).serving = true ↔ Claims.meets x) ∧ (p ∈ t.mem.mapPorts ↔ Claims.meets x))

/-- PATROL_SCRUB (R348, R350, R354): a clean word changes nothing; a correctable error is corrected and counted; an uncorrectable one writes the poison marker, counts in UE and is recorded as
event 0x11 with the syndrome in DETAIL0 (stated of a dirty tile that holds no model's weights, which no repair restores). CE_RATE (R469): event 0x10 is recorded of the unit and puts a serving unit in WATCH.
WRITE_BUFFER_DRAIN (R356): the oldest published unit leaves the buffer, and its bytes stand in its region's resident tile, which is dirty. It rests on the model's readings of log entries 49, 89. -/
def Obligations.ScrubAndDrain : Prop :=
  (∀ (s : State) (n o : Nat), n < 256 → o % 32 = 0 → exec (.patrolScrub ⟨n, o, .clean⟩) s = .next s)
  ∧ (∀ (s : State) (n o : Nat), n < 256 → o % 32 = 0 → clocksRun s = true → fieldOf s.mem.ctl 15 8 ≠ 0 → s.gov.st ≠ .retain →
      ∀ x, slookup (regionOf s n).near (o / (regionOf s n).tileBytes) = some x →
      exec (.patrolScrub ⟨n, o, .correctable⟩) s = .next { s with flt := { s.flt with ceNear := min 0xFFFFFF (s.flt.ceNear + 1) } }
      ∧ ∀ syn, x.dirty = true → (∀ m ∈ s.obj.models, m.nearRegion ≠ n) → Claims.eventsFlow s →
        ∃ t, exec (.patrolScrub ⟨n, o, .uncorrectable syn⟩) s = .next t
          ∧ (∃ y, slookup (regionOf t n).near (o / (regionOf s n).tileBytes) = some y ∧ o % (regionOf s n).tileBytes / 32 ∈ y.poison ∧ y.data = x.data ∧ y.dirty = true)
          ∧ t.flt.ue = min 0xFF (s.flt.ue + 1)
          ∧ Claims.recorded s t (fun r => r.code = 0x11 ∧ r.cls = 2 ∧ r.action = 0 ∧ r.unitKind = 4 ∧ r.space = 1 ∧ r.detail0 = syn) ∧ t.srv = s.srv)
  ∧ (∀ (s : State) (u : UnitRef) (n : Nat), unitPresent s u = true → fieldOf s.flt.ctl 15 8 ≤ n → clocksRun s = true → 4 ≤ s.boot.stage → inWatch s u = false →
      unitOut s u = false → Claims.eventsFlow s →
      ∃ t, exec (.ceRate u n) s = .next t ∧ inWatch t u = true ∧ t.flt.ceSram = min 0xFFFF (s.flt.ceSram + n)
        ∧ Claims.recorded s t (fun r => r.code = 0x10 ∧ r.cls = 1 ∧ r.action = 0 ∧ r.unitKind = unitKindOf u ∧ r.unit = unitNumber u ∧ r.verdict = 1 ∧ r.detail0 = n)
        ∧ t.srv = s.srv)
  ∧ (∀ (s : State) (u : WbUnit) (rest : List WbUnit), s.mem.wb = u :: rest → clocksRun s = true → let r := regionOf s u.region
      (r.serves = false → exec .writeBufferDrain s = .next { s with mem := { s.mem with wb := rest } })
      ∧ (∀ o bs x, r.serves = true → r.writeBack = true → runsOf (sortBy (fun a b : Nat × Byte => decide (a.1 < b.1)) u.bytes) = [(o, bs)] →
          let at0 := 4096 * u.unit + o
          bs ≠ [] → at0 % r.tileBytes + bs.length ≤ r.tileBytes → slookup r.near (at0 / r.tileBytes) = some x → Memory.wf x.data = true →
          ∃ t y, exec .writeBufferDrain s = .next t ∧ t.mem.wb = rest ∧ slookup (regionOf t u.region).near (at0 / r.tileBytes) = some y ∧ y.dirty = true
            ∧ (∀ i, i < bs.length → readByte y.data (at0 % r.tileBytes + i) = bs.getD i 0)
            ∧ (∀ i, i < at0 % r.tileBytes ∨ at0 % r.tileBytes + bs.length ≤ i → readByte y.data i = readByte x.data i)
            ∧ (∀ m, m ≠ u.region → regionOf t m = regionOf s m)))
  ∧ ∀ s : State, s.mem.wb = [] → exec .writeBufferDrain s = .next s

/-! ### Start-up and resets -/

/-- The boot stages of R502 with the errors of R503. PWROK_RISE starts stage 1 and samples the straps; with every rail confirmed and both PLLs locked CLOCKS ends in stage 2, else boot stops with
error 1 and the lowest rail or error 2 and the lowest PLL; AUTH takes PREF_SLOT's image, else the other's, else stops with error 0x10 in recovery mode; HUB counts the start-up and logs a pending trip
record; NEAR_TRAIN puts the device's regions 0 to 3 in use and begins dummy mode, or stops with error 0x20. -/
def Claims.BootStages : Prop :=
  ∀ s : State,
    (s.pins.pwrok = false → ∀ slew, exec (.pwrokRise slew) s = .next { s with
        pins := { s.pins with pwrok := true, slew := slew }
        boot := { s.boot with stage := 1 }
        clk := { spread := (bootCfg s).spread, cause := if s.flt.trip = none then 0 else 3 } })
    ∧ (atStage 1 s = true →
      (∃ t, exec (.clocksDone 0 0) s = .next t ∧ t.boot = { s.boot with stage := 2 } ∧ t.clk.rootLock = true ∧ t.clk.tbLock = true)
      ∧ (∀ rails plls, rails < 2 ^ 16 → plls < 4 → rails ≠ 0 → ∃ t, exec (.clocksDone rails plls) s = .next t ∧ t.boot.stage = 1 ∧ t.boot.error = 1
          ∧ hasBit rails t.boot.detail = true ∧ (∀ k, k < t.boot.detail → hasBit rails k = false) ∧ t.port.trained = false)
      ∧ (∀ plls, plls < 4 → plls ≠ 0 → ∃ t, exec (.clocksDone 0 plls) s = .next t ∧ t.boot.stage = 1 ∧ t.boot.error = 2 ∧ hasBit plls t.boot.detail = true
          ∧ (∀ k, k < t.boot.detail → hasBit plls k = false) ∧ t.port.trained = false))
    ∧ (atStage 2 s = true → ∀ refused, refused < 4 → let a := (bootCfg s).prefSlot
      (∀ k f, (k = a ∧ slotGood s refused a = true) ∨ (k = 1 - a ∧ slotGood s refused a = false ∧ slotGood s refused (1 - a) = true) →
          slookup s.boot.slots k = some f →
        exec (.authDone refused) s = .next { s with boot := { s.boot with
          stage := 3, fwMajor := f.major, fwMinor := f.minor, fwPatch := f.patch, activeSlot := k } })
      ∧ (slotGood s refused a = false → slotGood s refused (1 - a) = false → ∃ t, exec (.authDone refused) s = .next t ∧ t.boot.stage = 2 ∧ t.boot.error = 0x10
          ∧ t.boot.detail = 3 ∧ t.boot.recovery = true ∧ t.port.trained = s.pins.perstN))
    ∧ (atStage 3 s = true → ∃ t, exec .hubDone s = .next t ∧ t.boot = { s.boot with stage := 4 } ∧ t.flt.startups = min 0xFFFF (s.flt.startups + 1)
        ∧ t.flt.trip = none
        ∧ (∀ x, s.flt.trip = some x → Claims.recorded s t (fun r => r.code = 0x60 ∧ r.cls = 3 ∧ r.detail0 = x.1 ∧ r.detail1 = x.2)))
    ∧ (atStage 4 s = true →
      (∃ t, exec (.nearTrainDone 0) s = .next t ∧ t.boot = { s.boot with stage := 5, dummy := true } ∧ t.mem.nearTrained = true
        ∧ (∀ n, n < 4 → (regionOf t n).st = .active) ∧ (∀ n, 4 ≤ n → regionOf t n = regionOf s n) ∧ t.srv = s.srv)
      ∧ ∀ k, k ≠ 0 → k < 2 ^ Config.stackCount s.part → ∃ t, exec (.nearTrainDone k) s = .next t ∧ t.boot.stage = 4 ∧ t.boot.error = 0x20 ∧ t.boot.detail = k
          ∧ t.boot.level = 2 ∧ t.boot.recovery = true ∧ t.mem = s.mem)

/-- The end of boot (R502). FAR_MEMORY_DONE trains the enabled ports: those with an expander that meets R345 serve, the map is built of the serving ports and no other, and the capability list is published. READY, with
PERST_N released, ends at stage 0x0F with the host port trained. -/
def Claims.BootEnds : Prop :=
  ∀ s : State,
    (∀ xs : List (Nat × Expander), atStage 6 s = true → (∀ x ∈ xs, x.1 < Config.farPorts s.part) → (xs.map Prod.fst).Nodup →
      ∃ t, exec (.farMemoryDone xs) s = .next t ∧ t.boot = { s.boot with stage := 7, published := true } ∧ t.mem.mapValid = true
        ∧ (∀ p, p ∈ t.mem.mapPorts ↔ ∃ x, (p, x) ∈ xs ∧ (farPortOf s p).enable = true ∧ Claims.meets x)
        ∧ (∀ p x, (p, x) ∈ xs → (farPortOf s p).enable = true → (farPortOf t p).linkUp = true ∧ (farPortOf t p).capacityGib = x.capacityGib
            ∧ (farPortOf t p).serial = x.serial ∧ (farPortOf t p).reject = Claims.rejectOf x ∧ ((farPortOf t p).serving = true ↔ Claims.meets x))
        ∧ t = { s with mem := t.mem, boot := t.boot })
    ∧ (atStage 7 s = true → s.boot.published = true → s.pins.perstN = true →
        exec .ready s = .next { s with boot := { s.boot with stage := 0x0F, ready := true }, port := { s.port with trained := true } })

/-- A stage that the package is not at does not end: each boot command then changes nothing, and PWROK that is high does not rise. -/
def Claims.BootWaits : Prop :=
  ∀ s : State,
    (s.pins.pwrok = true → ∀ slew, exec (.pwrokRise slew) s = .next s)
    ∧ (∀ rails plls, rails < 2 ^ 16 → plls < 4 → atStage 1 s = false → exec (.clocksDone rails plls) s = .next s)
    ∧ (∀ refused, refused < 4 → atStage 2 s = false → exec (.authDone refused) s = .next s)
    ∧ (atStage 3 s = false → exec .hubDone s = .next s)
    ∧ (∀ k, k < 2 ^ Config.stackCount s.part → atStage 4 s = false → exec (.nearTrainDone k) s = .next s)
    ∧ (∀ cores srams, (∀ n ∈ cores, n < 9 * Config.crews s.part) → (∀ c ∈ srams, c < Config.crews s.part) → atStage 5 s = false →
        exec (.arrayTestDone cores srams) s = .next s)
    ∧ (∀ xs : List (Nat × Expander), (∀ x ∈ xs, x.1 < Config.farPorts s.part) → atStage 6 s = false → exec (.farMemoryDone xs) s = .next s)
    ∧ (atStage 7 s = false ∨ s.boot.published = false ∨ s.pins.perstN = false → exec .ready s = .next s)

/-- ARRAY_TEST_DONE (R474, R502): every core and SRAM that fails is FAILED; in each crew no FAILED core is active; nine good cores give active cores 0 to 7 with core 8 as the spare, and fewer give no
spare; dummy mode ends there only after a warm reset. -/
def Claims.ArrayTest : Prop :=
  ∀ (s : State) (cores srams : List Nat), atStage 5 s = true → (∀ n ∈ cores, n < 9 * Config.crews s.part) → (∀ c ∈ srams, c < Config.crews s.part) →
    ∃ t, exec (.arrayTestDone cores srams) s = .next t ∧ t.boot.stage = 6 ∧ t.boot.dummy = (s.boot.dummy && s.clk.cause != 1)
      ∧ (∀ n ∈ cores, hasBit (crewOf t (n / 9)).failed (n % 9) = true) ∧ (∀ c ∈ srams, (crewOf t c).sramFailed = true)
      ∧ (∀ c, c < Config.crews s.part → let x := crewOf t c
          (∀ k, k < 9 → hasBit x.failed k = true → hasBit x.active k = false)
            ∧ ((∀ k, k < 9 → hasBit x.failed k = false) → x.active = 0xFF ∧ x.spare = 8)
            ∧ ((∃ k, k < 9 ∧ hasBit x.failed k = true) → x.spare = 15 ∧ ∀ k, k < 9 → hasBit x.failed k = false → hasBit x.active k = true))

/-- Start-up from PWROK to READY, with the array test; a stage command changes nothing where the package is not at its stage (R474, R502, R503). It rests on the model's readings of log entries
68, 80, 134, 149. -/
def Obligations.StartUp : Prop := Claims.BootStages ∧ Claims.ArrayTest ∧ Claims.BootEnds ∧ Claims.BootWaits

/-- The crews of a package that starts again: of what a crew held only the FAILED units are kept (R474, R488). -/
def Claims.onlyFailedUnits (s t : State) : Prop :=
  ∀ c, { crewOf t c with active := 0xFF, spare := 8 } = { ({} : Crew) with failed := (crewOf s c).failed, sramFailed := (crewOf s c).sramFailed }

/-- PWROK_FALL (R488) leaves the package OFF: every register at its reset value, near and far memory lost, and of the package only the history, the start-up count, the trip record, the boot flash, the FAILED
units and the backup domain kept; what is kept besides stands outside it (the lands that others drive, host memory), or is the model's own (the last read's data, the object and free-value counters,
the queue). -/
def Claims.PowerFalls : Prop :=
  ∀ s : State,
    (s.pins.pwrok = true → ∃ t, exec .pwrokFall s = .next t ∧ Claims.onlyFailedUnits s t
      ∧ t = { State.reset with
          part := s.part, pins := { perstN := s.pins.perstN, warmRstN := s.pins.warmRstN }
          boot := { slots := s.boot.slots, cfg0 := s.boot.cfg0, cfg1 := s.boot.cfg1, serial := s.boot.serial }
          cal := { s.cal with setSec := 0, setFrac := 0 }
          gov := { peakW := Config.peakW s.part, sustainedW := Config.sustainedW s.part }
          mem := { host := s.mem.host, hostBad := s.mem.hostBad, hostFail := s.mem.hostFail }
          port := { readData := s.port.readData }
          flt := { startups := s.flt.startups, history := s.flt.history, trip := s.flt.trip }
          obj := { nextOid := s.obj.nextOid }
          crews := t.crews, freeCtr := s.freeCtr, pending := s.pending })
    ∧ (s.pins.pwrok = false → exec .pwrokFall s = .next s)

/-- WARM_RST_N (R488, R489) ends every request, object and ring and leaves boot at ARRAY_TEST with CAUSE 1, in dummy mode. Besides what PWROK_FALL keeps it keeps the firmware that runs, the near-memory training, the
far-memory map and far content, the fault counters and the restarts, energy, temperatures and the last wake; where near memory is trained the device's regions 0 to 3 are in use again and no other is. -/
def Claims.WarmReset : Prop :=
  ∀ s : State,
    (s.pins.pwrok = true → ∃ t, exec .warmRstN s = .next t ∧ Claims.onlyFailedUnits s t
      ∧ t.pins.pwrok = true ∧ t.boot.stage = 5 ∧ t.boot.error = 0 ∧ t.boot.ready = false ∧ t.boot.evq = [] ∧ t.boot.act = .idle ∧ t.boot.dummy = true
      ∧ t.boot.fwMajor = s.boot.fwMajor ∧ t.boot.fwMinor = s.boot.fwMinor ∧ t.boot.fwPatch = s.boot.fwPatch ∧ t.boot.activeSlot = s.boot.activeSlot ∧ t.boot.slots = s.boot.slots
      ∧ t.clk.cause = 1 ∧ t.clk.ts = s.clk.ts ∧ t.srv = {} ∧ t.net = {} ∧ t.mbox = [] ∧ t.dma = [] ∧ t.cores = []
      ∧ t.obj = { nextOid := s.obj.nextOid } ∧ t.port.rings = [] ∧ t.port.fns = [] ∧ t.port.trained = false ∧ t.port.vfEnable = false
      ∧ t.mem.nearTrained = s.mem.nearTrained ∧ t.mem.mapPorts = s.mem.mapPorts ∧ t.mem.wb = []
      ∧ (∀ n, (regionOf t n).st = if s.mem.nearTrained = true ∧ n < 4 then .active else .disabled)
      ∧ (s.mem.wb = [] → t.mem.far = s.mem.far ∧ t.mem.farPoison = s.mem.farPoison)
      ∧ t.flt.live = [] ∧ t.flt.history = s.flt.history ∧ t.flt.startups = s.flt.startups ∧ t.flt.ceNear = s.flt.ceNear ∧ t.flt.ceSram = s.flt.ceSram
      ∧ t.flt.ue = s.flt.ue ∧ t.flt.mismatches = s.flt.mismatches ∧ t.flt.checksRun = s.flt.checksRun ∧ t.flt.restarts = s.flt.restarts ∧ t.flt.trip = s.flt.trip
      ∧ t.gov.energyUj = s.gov.energyUj ∧ t.gov.temps = s.gov.temps ∧ t.gov.lastWake = s.gov.lastWake ∧ t.gov.st = .active
      ∧ t.cal = { s.cal with setSec := 0, setFrac := 0 })
    ∧ (s.pins.pwrok = false → exec .warmRstN s = .next s)

/-- PWROK_FALL and WARM_RST_N (R488, R489): what each resets and what it keeps. Calendar time is kept by both; the set registers are reset. It rests on the model's readings of log entries
69, 71, 134. -/
def Obligations.PackageResets : Prop := Claims.PowerFalls ∧ Claims.WarmReset

/-- PERST_N (R488, R489): while the package runs every request and conversation ends without a completion, the host's objects and rings, mailboxes and DMA channels are reset, regions whose lower tier is host
memory are DISABLED without their near copy, the package is solo, PERSTS counts and CAUSE is 2; the logs, counters, trace and crews are kept (stated where the event queue has room for the SENDER_RESET edges
of the 64 channels). A package whose clocks stand still changes only the land. PERST_N_RELEASE raises the land. It rests on the model's readings of log entries 69, 70, 147. -/
def Obligations.HostReset : Prop :=
  (∀ s : State, s.pins.perstN = true → s.pins.pwrok = true → s.clk.stopped = false → s.boot.evq.length + 64 ≤ 4096 →
    ∃ t, exec .perstNAssert s = .next t ∧ t.pins = { s.pins with perstN := false } ∧ t.srv.slots = [] ∧ t.srv.holds = [] ∧ t.srv.strokeSince = none ∧ t.srv.convs = []
      ∧ t.obj.models = [] ∧ t.obj.indexes = [] ∧ t.obj.tables = [] ∧ t.obj.vocabs = [] ∧ t.obj.grammars = [] ∧ t.obj.lastHandle = 0
      ∧ t.port.rings = [] ∧ t.port.fns = [] ∧ t.port.alloc = [(0, 1024)] ∧ t.port.trained = false ∧ t.port.vfEnable = false
      ∧ (∀ f, f < 64 → channelOf t f = { fwBits := 2 ^ 31 }) ∧ t.dma = [] ∧ t.net.shell = .solo ∧ t.net.st = s.net.st
      ∧ (∀ n, (regionOf t n).tier = 2 → (regionOf t n).st = .disabled ∧ (regionOf t n).near = []) ∧ t.mem.wb = []
      ∧ t.clk.persts = min 0xFFFF (s.clk.persts + 1) ∧ t.clk.cause = 2 ∧ t.flt = s.flt ∧ t.trace = s.trace ∧ t.crews = s.crews ∧ t.boot.ready = false)
  ∧ (∀ s : State, s.pins.perstN = true → s.pins.pwrok = false ∨ s.clk.stopped = true →
      exec .perstNAssert s = .next { s with pins := { s.pins with perstN := false } })
  ∧ (∀ s : State, s.pins.perstN = false → exec .perstNAssert s = .next s)
  ∧ (∀ s : State, exec .perstNRelease s
      = .next { s with pins := { s.pins with perstN := true }, port := { s.port with trained := s.port.trained || s.boot.recovery } })

/-- FUNCTION_LEVEL_RESET (R404, R410): the function's set-up registers, rings and mailbox channel are at their reset values with SENDER_RESET set on the firmware's side, its waiting commands are gone, its requests end at the
next commit point without a completion, and its free conversations are released once no such request is left; nothing of another function's rings, channels or requests changes. It rests on the model's readings of log entry 70. -/
def Obligations.FunctionReset : Prop :=
  ∀ (s : State) (f : Nat), f < 64 → s.boot.evq.length < 4096 → risingKeys s.port.rings = true → risingKeys s.port.fns = true →
    ∃ t, exec (.functionLevelReset f) s = .next t
      ∧ (∀ n, n < 1024 → ringOf t ⟨f, n⟩ = {}) ∧ fnRegs t f = {} ∧ channelOf t f = { fwBits := 2 ^ 31 }
      ∧ (∀ h ∈ t.srv.holds, h.fn ≠ f) ∧ (∀ x ∈ t.srv.slots, x.2.fn = f → x.2.silent = true ∧ x.2.aborted = true)
      ∧ ((∀ x ∈ s.srv.slots, x.2.fn ≠ f) → ∀ c ∈ t.srv.convs, c.fn = f → c.st ≠ .open ∧ c.st ≠ .paused)
      ∧ ((∃ x ∈ s.srv.slots, x.2.fn = f) → t.srv.convs = s.srv.convs ∧ f ∈ t.srv.releasing) ∧ (f = 0 → t.dma = [])
      ∧ (∀ g n, g ≠ f → n < 1024 → ringOf t ⟨g, n⟩ = ringOf s ⟨g, n⟩) ∧ (∀ g, g ≠ f → fnRegs t g = fnRegs s g ∧ channelOf t g = channelOf s g)
      ∧ (∀ k r, slotOf s k = some r → r.fn ≠ f → slotOf t k = some r) ∧ t.mem.host = s.mem.host ∧ t.flt = s.flt ∧ t.cores = s.cores

/-! ### Serving -/

/-- A completion entry for a request of ring q has been posted (R390): tag, status, opcode and ring at the completion ring's tail, which moves on. -/
def Claims.posts (s t : State) (q : RingRef) (tag opcode status : Nat) : Prop :=
  let cq := cqOf s q; let p := ringOf s cq; let out := readBytes t.mem.host (p.cqBase.toNat + 32 * p.cqTail) 32
  leAt out 0 4 = tag % 2 ^ 32 ∧ leAt out 6 2 = q.ring % 2 ^ 16 ∧ leAt out 8 1 = status % 256 ∧ leAt out 10 1 = opcode % 256
    ∧ (ringOf t cq).cqTail = (p.cqTail + 1) % p.cqSize

/-- A completion of ring q can be posted, and raises no interrupt. -/
def Claims.canPost (s : State) (q : RingRef) : Prop :=
  bitOf (ringOf s (cqOf s q)).cfg 19 = false ∧ Memory.wf s.mem.host = true

/-- Nothing waits for a request's end: no FENCE or ABORT, and no power-state entry. -/
def Claims.nothingWaits (s : State) : Prop := s.srv.holds = [] ∧ s.gov.draining = false

/-- No vector that a merge has folded still waits to move to its place in FULL (R230). -/
def Claims.vectorsSettled (s : State) : Prop := ∀ x ∈ s.obj.indexes, ∀ it ∈ x.items, ∃ k, it.loc = .full k

/-- The order of units at a boundary (R307): every unit has its place once, URGENT ones come first in fetch order, and within HIGH, MEDIUM and LOW they stand by ascending target
instant, those without one last, and by fetch order. -/
def Claims.UnitOrder : Prop :=
  ∀ (s : State) (xs : List (Nat × Request)), (∀ x ∈ xs, x.2.prio ≤ 3) →
    (unitOrder s xs).Perm xs
      ∧ ∃ u v, unitOrder s xs = u ++ v ∧ (∀ x ∈ u, x.2.prio = 0) ∧ (∀ x ∈ v, x.2.prio ≠ 0)
        ∧ u.Pairwise (fun a b => a.2.fetchSeq ≤ b.2.fetchSeq)
        ∧ ∀ k, 1 ≤ k → k ≤ 3 → (v.filter (fun x => x.2.prio == k)).Pairwise (fun a b =>
            (∀ y, targetOf b.2 = some y → ∃ x, targetOf a.2 = some x ∧ x ≤ y)
              ∧ (targetOf a.2 = targetOf b.2 → a.2.fetchSeq ≤ b.2.fetchSeq))

/-- The governor's decision at a boundary (R450, R451), which STROKE_BOUNDARY starts the stroke with: while THROTTLING m is 8 and only URGENT units are admitted; otherwise every URGENT unit is
admitted, m is M_CAP when none is placed, else the largest ratio up to M_CAP at which they fit, 8 where none fits; and the others are admitted in list order up to the first
that would no longer fit. -/
def Claims.GovernorAdmits : Prop :=
  ∀ (s : State) (b : BoundaryData) (placed : List UnitEst), let g := governStroke s b placed
    let urgent := placed.filter (fun u => isUrgent s u.slot); let rest := placed.filter (fun u => !isUrgent s u.slot)
    (s.gov.throttling = true → g = (8, urgent))
    ∧ (s.gov.throttling = false →
        (urgent = [] → g.1 = s.gov.mCap)
        ∧ (urgent ≠ [] → (g.1 = 8 ∨ (strokeFits s b urgent g.1 = true ∧ 8 ≤ g.1 ∧ g.1 ≤ s.gov.mCap))
            ∧ ∀ m, g.1 < m → 8 ≤ m → m ≤ s.gov.mCap → strokeFits s b urgent m = false)
        ∧ ∃ k, g.2 = urgent ++ rest.take k ∧ (∀ j, 1 ≤ j → j ≤ k → j ≤ rest.length → strokeFits s b (urgent ++ rest.take j) g.1 = true)
            ∧ (k < rest.length → strokeFits s b (urgent ++ rest.take (k + 1)) g.1 = false))

/-- The decisions at a stroke boundary: the order of the candidate units, and what the governor admits of them (R307, R450, R451). It rests on the model's readings of log entries 115, 116. -/
def Obligations.BoundaryDecisions : Prop := Claims.UnitOrder ∧ Claims.GovernorAdmits

/-- STROKE_BOUNDARY (R301, R306, R440). With no request a stroke starts with nothing admitted; the first boundary after a restart returns the shell to FORMED, or a solo package to SOLO. A lone
URGENT request that is QUEUED with an installing command is admitted and RUNNING. STROKE_COMMIT (R63, R301): a lone request that is aborted ends ABORTED (0x80), one whose end was decided ends with its
status, an installing command takes effect there, and row writes are published: every row written reads as it was given, and no other byte of the table's region changes (rows of different places); its slot is FREE,
its completion posted, and dummy mode is over (stated where no merged vector waits to move). It rests on the model's readings of log entries 115, 125, 134. -/
def Obligations.StrokesRun : Prop :=
  (∀ (s : State) (b : BoundaryData), canCompose s = true → s.net.nextEpoch = none → s.srv.holds = [] →
    (s.srv.slots = [] → ∃ t, exec (.strokeBoundary b) s = .next t ∧ t.srv.strokeSince = some s.clk.ts ∧ t.srv.strokeNo = s.srv.strokeNo + 1 ∧ t.srv.admitted = []
      ∧ t.srv.slots = [] ∧ t.gov.mNow = (if s.gov.throttling = true then 8 else s.gov.mCap)
      ∧ t.net.shell = (if s.net.shell = .restarting then (if s.net.shellId = 0 then .solo else .formed) else s.net.shell)
      ∧ t.mem = s.mem ∧ t.obj = s.obj ∧ t.cores = s.cores)
    ∧ (∀ n r i, s.srv.slots = [(n, r)] → r.st = .queued → r.work = .install i → r.aborted = false → r.prio = 0 → r.promote = false → convName r = 0 →
        (∀ d, d < 8 → (estOf b n).dieNs.getD d 0 ≤ 8000000) →
      ∃ t, exec (.strokeBoundary b) s = .next t ∧ t.srv.admitted = [n] ∧ t.srv.strokeSince = some s.clk.ts
        ∧ t.srv.slots = [(n, { r with st := .running, wait := 0, holdPages := 0, strokes := r.strokes + 1, firstAdmit := some (r.firstAdmit.getD s.clk.ts)
                                      endsStage := (estOf b n).endsStage })]
        ∧ t.obj = s.obj))
  ∧ (∀ (s : State) (n : Nat) (r : Request) (measured : List Nat), clocksRun s = true → fwRunning s = true → s.srv.strokeSince ≠ none → s.net.shell ≠ .ending →
      s.srv.slots = [(n, r)] → s.srv.admitted = [n] → (∀ c ∈ s.cores, c.2.launch = none) → Claims.nothingWaits s → Claims.canPost s ⟨r.fn, r.ring⟩ →
      r.silent = false → (∀ p, r.work ≠ .pipe p) → Claims.vectorsSettled s →
      let ends := fun (status : Nat) (more : State → Prop) => ∃ t, exec (.strokeCommit measured) s = .next t ∧ t.srv.slots = [] ∧ t.srv.strokeSince = none
        ∧ t.boot.dummy = false ∧ Claims.posts s t ⟨r.fn, r.ring⟩ r.tag r.opcode status ∧ more t
      (r.aborted = true → ends 0x80 (fun _ => True))
      ∧ (r.aborted = false → r.st = .ending → ends r.status (fun _ => True))
      ∧ (r.aborted = false → r.st = .running → r.endsStage = true →
          (∀ us pages, r.work = .install (.serving us pages) → ends 0 (fun t => t.srv.strokeTargetUs = us ∧ t.srv.pageWait = pages))
          ∧ (∀ w a, r.work = .install (.arbitration w a) → ends 0 (fun t => t.port.arbWeight = w ∧ t.port.arbAge = a))
          ∧ (∀ o rows, r.work = .rowWrite o rows → let tab := tableOf s o
              (rows.map (fun y => y.1 / tab.shardCount)).Nodup → (∀ y ∈ rows, y.2.length = tab.rowBytes) → ends 0 (fun t => (∃ x ∈ t.obj.tables, x.oid = o) →
                (∀ y ∈ rows, ∀ i, i < tab.rowBytes → regionByte t tab.region (rowAt tab y.1 + i) = y.2.getD i 0)
                ∧ ∀ a, (∀ y ∈ rows, a < rowAt tab y.1 ∨ rowAt tab y.1 + tab.rowBytes ≤ a) → regionByte t tab.region a = regionByte s tab.region a))))

/-- R228: an INDEX_INSERT or INDEX_DELETE whose entries would take the side list beyond 67,108,864 appends nothing and completes with 0x45 SIDE_LIST_FULL, and its ring stays as it was. Within the limit an
insert appends one entry for each of its records, those that replace a live item among them, each with a vector slot of its own. Stated of a request that is alone in the stroke, where no
merged vector waits to move. It rests on the model's readings of log entry 134. -/
def Obligations.SideListLimit : Prop :=
  ∀ (s : State) (n : Nat) (r : Request) (measured : List Nat) (o : Nat), clocksRun s = true → fwRunning s = true → s.srv.strokeSince ≠ none → s.net.shell ≠ .ending →
    s.srv.slots = [(n, r)] → s.srv.admitted = [n] → (∀ c ∈ s.cores, c.2.launch = none) → Claims.nothingWaits s → Claims.canPost s ⟨r.fn, r.ring⟩ →
    r.silent = false → r.aborted = false → r.st = .running → r.endsStage = true → (∃ x ∈ s.obj.indexes, x.oid = o) → Claims.vectorsSettled s →
    let old := (indexOf s o).side
    let ends := fun (status : Nat) (change : State → Prop) => ∃ t, exec (.strokeCommit measured) s = .next t ∧ t.srv.slots = []
      ∧ Claims.posts s t ⟨r.fn, r.ring⟩ r.tag r.opcode status ∧ (ringOf t ⟨r.fn, r.ring⟩).st = (ringOf s ⟨r.fn, r.ring⟩).st ∧ change t
    let appends := fun (new : List SideEntry) (t : State) => ∀ x ∈ t.obj.indexes, if x.oid = o then x.side = old ++ new else x ∈ s.obj.indexes
    let inserted := fun (items : List (IxItem × List Byte)) (places : List Nat) =>
      (items.zip places).map (fun x => SideEntry.insert { x.1.1 with loc := .side x.2 })
    let nothing := fun (t : State) => ∀ x ∈ t.obj.indexes, x ∈ s.obj.indexes
    (∀ items, r.work = .insert o items →
      (old.length + items.length ≤ 67108864 → ends 0 (fun t => ∃ places, places.length = items.length ∧ places.Nodup ∧ appends (inserted items places) t))
      ∧ (67108864 < old.length + items.length → ends 0x45 nothing))
    ∧ (∀ ids, r.work = .delete o ids →
      let new := (applyDeletes (liveItems (indexOf s o) old.length) ids).1
      (old.length + new.length ≤ 67108864 → ends 0 (appends new))
      ∧ (67108864 < old.length + new.length → ends 0x45 nothing))

/-- Rows about one request or conversation. KV_POOL_EXHAUSTED (R310): a request that has waited PAGE_WAIT_STROKES strokes for a page ends with 0x47. AGEING_PROMOTION (R396): at the limit of its class in ARB_AGE, as it stood at the last boundary, a
request that is READY or WAITING is marked, and the mark makes it URGENT with AGED. FAR_TILE_RESIDENT (R308) makes it READY again. BOATHOUSE_EXPIRY (R327): at its instant a paused conversation is
gone, and its id stands first in the recent table as expired. It rests on the model's readings of log entries 37, 130. -/
def Obligations.RequestEvents : Prop :=
  (∀ (s : State) (n : Nat) (r : Request), slotOf s n = some r → clocksRun s = true →
    (r.st = .waiting → r.wait = 3 → s.srv.pageWait ≤ r.holdPages → Claims.nothingWaits s → Claims.canPost s ⟨r.fn, r.ring⟩ → r.silent = false → risingKeys s.srv.slots = true →
      ∃ t, exec (.kvPoolExhausted n) s = .next t ∧ slotOf t n = none ∧ (∀ k, k ≠ n → slotOf t k = slotOf s k)
        ∧ Claims.posts s t ⟨r.fn, r.ring⟩ r.tag r.opcode 0x47 ∧ (ringOf t ⟨r.fn, r.ring⟩).st = (ringOf s ⟨r.fn, r.ring⟩).st)
    ∧ (1 ≤ r.prio → r.prio ≤ 3 → r.st = .ready ∨ r.st = .waiting → r.aged = false →
        r.tFetch + 10000 * (if r.prio = 1 then fieldOf s.port.ageNow 15 0 else if r.prio = 2 then fieldOf s.port.ageNow 31 16 else fieldOf s.port.ageNow 47 32) ≤ s.clk.ts →
      exec (.ageingPromotion n) s = .next (setSlot s n { r with promote := true })
        ∧ (promoteAged { r with promote := true }).prio = 0 ∧ (promoteAged { r with promote := true }).aged = true)
    ∧ (r.st = .waiting → r.wait = 4 → exec (.farTileResident n) s = .next (setSlot s n { r with st := .ready, wait := 0 })))
  ∧ (∀ (s : State) (fn id : Nat) (c : Conv), fn < 64 → convOf s fn id = some c → c.st = .paused → c.expiryCancelled = false → clocksRun s = true → s.gov.st ≠ .retain →
      c.expirySec < s.cal.sec ∨ (c.expirySec = s.cal.sec ∧ c.expiryFrac ≤ s.cal.frac) → Claims.eventsFlow s →
    ∃ t, exec (.boathouseExpiry fn id) s = .next t ∧ convOf t fn id = none ∧ t.srv.recent.head? = some (fn, id, .expired)
      ∧ (∀ x ∈ s.srv.convs, ¬(x.fn = fn ∧ x.id = id) → x ∈ t.srv.convs) ∧ t.srv.slots = s.srv.slots)

/-! ### Power and heat -/

/-- The governor's registers and measurements. GOV_CTL_WRITE (R547), a 64-bit write: each field is taken where its value is in its own range, PEAK_W and SUSTAINED_W only where SUSTAINED_W then stays at most PEAK_W, and
the bank is held to its new limits. SENSOR_SAMPLE (R444, R448, R451): the temperatures and the energy are taken, HOT and THROTTLING follow them, and the bank gains what SUSTAINED_W allows and loses
what was drawn. PEAK_EVENT (R453) lowers m by 2 and counts an episode once; OVER_SUSTAINED_WINDOW counts a window above SUSTAINED_W; THERMTRIP (R454) stops the clocks and keeps the trip record; PMB_ALERT
(R538) holds the clocks. It rests on the model's readings of log entry 90. -/
def Obligations.GovernorEvents : Prop :=
  (∀ (s : State) (w : RegAccess), pfWrite w s = true → w.half = .full → ∃ t, exec (.govCtlWrite w) s = .next t ∧ t = { s with gov := t.gov }
    ∧ (let f := fun hi lo => fieldOf w.data hi lo; let g := s.gov
       let pOk := Config.peakMinW s.part ≤ f 63 48 ∧ f 63 48 ≤ Config.peakW s.part
       let uOk := Config.sustainedMinW s.part ≤ f 47 32 ∧ f 47 32 ≤ Config.sustainedW s.part
       t.gov.throttleC = (if 85 ≤ f 31 24 ∧ f 31 24 ≤ 105 then f 31 24 else g.throttleC)
         ∧ t.gov.gTh = (if 1 ≤ f 23 16 ∧ f 23 16 ≤ 255 then f 23 16 else g.gTh)
         ∧ t.gov.mCap = (if 8 ≤ f 12 8 ∧ f 12 8 ≤ 16 then f 12 8 else g.mCap)
         ∧ (g.sustainedW ≤ g.peakW → t.gov.sustainedW ≤ t.gov.peakW)
         ∧ (pOk → uOk → f 47 32 ≤ f 63 48 → t.gov.peakW = f 63 48 ∧ t.gov.sustainedW = f 47 32)
         ∧ (pOk → uOk → f 63 48 < f 47 32 → t.gov.peakW = g.peakW ∧ t.gov.sustainedW = g.sustainedW)
         ∧ (pOk → ¬uOk → t.gov.sustainedW = g.sustainedW ∧ t.gov.peakW = (if g.sustainedW ≤ f 63 48 then f 63 48 else g.peakW))
         ∧ (¬pOk → uOk → t.gov.peakW = g.peakW ∧ t.gov.sustainedW = (if f 47 32 ≤ g.peakW then f 47 32 else g.sustainedW))
         ∧ (let m : Int := 50000 * ((t.gov.peakW : Int) - t.gov.sustainedW); t.gov.bankUj = max (-m) (min m g.bankUj))))
  ∧ (∀ (s : State) (x : SensorData), sampleOk x = true → s.pins.pwrok = true → ∃ t, exec (.sensorSample x) s = .next t ∧ t = { s with gov := t.gov }
    ∧ (let total := ((sensedDies s).map (fun d => x.energyUj.getD d 0)).sum; let c : Int := s.gov.throttleC
       (∀ d ∈ sensedDies s, (tempOf t d).dieC = x.dieC.getD d 0 ∧ (tempOf t d).valid = true)
         ∧ (∀ d, d < Config.dies s.part → (tempOf t d).stack0C = x.stack0C.getD d 0 ∧ (tempOf t d).stack1C = x.stack1C.getD d 0)
         ∧ t.gov.energyUj = s.gov.energyUj + total ∧ t.gov.windowUj = s.gov.windowUj + total ∧ t.gov.samples = (total :: s.gov.samples).take 100
         ∧ (t.gov.hot = true ↔ ∃ d ∈ sensedDies s, c ≤ dieTemp t d)
         ∧ ((∃ d ∈ sensedDies s, c + 5 ≤ dieTemp t d) → t.gov.throttling = true)
         ∧ ((∀ d ∈ sensedDies s, dieTemp t d < c - 2) → t.gov.throttling = false)
         ∧ ((∀ d ∈ sensedDies s, dieTemp t d < c + 5) → (∃ d ∈ sensedDies s, c - 2 ≤ dieTemp t d) → t.gov.throttling = s.gov.throttling)
         ∧ (let m : Int := 50000 * ((s.gov.peakW : Int) - s.gov.sustainedW)
            t.gov.bankUj = max (-m) (min m (s.gov.bankUj + 10 * s.gov.sustainedW - total)))))
  ∧ (∀ s : State, clocksRun s = true → 10 * s.gov.peakW < s.gov.samples.headD 0 →
      exec .peakEvent s = .next { s with gov := { s.gov with
        mNow := s.gov.mNow - 2, peakEpisode := true, peakEvents := if s.gov.peakEpisode = true then s.gov.peakEvents else min 0xFFFF (s.gov.peakEvents + 1) } })
  ∧ (∀ s : State, s.pins.pwrok = true → exec .overSustainedWindow s = .next { s with gov := { s.gov with
      windowUj := 0, overSustained := if 100000 * s.gov.sustainedW < s.gov.windowUj then min 0xFFFF (s.gov.overSustained + 1) else s.gov.overSustained } })
  ∧ (∀ (s : State) (n c : Nat), sensorOk s n = true → 115 ≤ c → s.pins.pwrok = true → s.pins.thermtripN = true →
      exec (.thermtrip n c) s = .next { s with pins := { s.pins with thermtripN := false }, clk := { s.clk with stopped := true }, flt := { s.flt with trip := some (n, c) } })
  ∧ ∀ s : State, s.pins.pwrok = true →
      exec (.pmbAlert true) s = .next { s with pins := { s.pins with pmbHold := true }, clk := { s.clk with stopped := true } }
        ∧ exec (.pmbAlert false) s = .next s

/-- The power states (R403, R455 to R458, R498). POWER_DRAIN_TIMEOUT ends the command with 0x4A and the package stays ACTIVE, or with FORCE marks every other request aborted. POWER_STATE_ENTERED reaches STANDBY or
RETAIN, where the cores' engines are empty and the crews keep their SRAM only with the retain bit; a wake that arrived meanwhile starts the exit. POWER_STATE_EXITED returns to ACTIVE with an empty bank and the
duration in µs; from RETAIN the timestamp steps forward by a positive correction and absorbs a negative one at half rate. It rests on the model's readings of log entry 91. -/
def Obligations.PowerTransitions : Prop :=
  ∀ s : State, clocksRun s = true →
    (∀ n r k, s.gov.draining = true → s.gov.force = false → powerSlots s = [(n, k)] → slotOf s n = some r → r.silent = false → s.srv.holds = [] → Claims.canPost s ⟨r.fn, r.ring⟩ →
        risingKeys s.srv.slots = true →
      ∃ t, exec .powerDrainTimeout s = .next t ∧ slotOf t n = none ∧ t.gov.draining = false ∧ t.gov.st = s.gov.st
        ∧ Claims.posts s t ⟨r.fn, r.ring⟩ r.tag r.opcode 0x4A)
    ∧ (s.gov.draining = true → s.gov.force = true → s.srv.strokeSince ≠ none ∨ s.srv.slots.length ≠ 1 →
      ∃ t, exec .powerDrainTimeout s = .next t ∧ (∀ n r, slotOf s n = some r → (∀ k, r.work ≠ .power k) → slotOf t n = some { r with aborted := true })
        ∧ (∀ n r k, slotOf s n = some r → r.work = .power k → slotOf t n = some r) ∧ t.gov = s.gov)
    ∧ (s.gov.st = .entering → s.gov.target = .standby →
      exec .powerStateEntered s = .next { s with gov :=
        if s.gov.wakePending = true then { s.gov with st := .exiting, wakePending := false, exitFrom := 1, exitSince := s.clk.ts }
        else { s.gov with st := .standby, wakePending := false } })
    ∧ (s.gov.st = .entering → s.gov.target = .retain → (∀ c, (dmaOf s c).st ≠ .running) →
      ∃ t, exec .powerStateEntered s = .next t ∧ t.gov.st = (if s.gov.wakePending = true then .exiting else .retain) ∧ t.cores = []
        ∧ (∀ c, crewOf t c = if bitOf s.mem.ctl 1 = true then crewOf s c else { crewOf s c with sram := [], sramPoison := [], syncs := [] })
        ∧ t.clk.rootLock = false ∧ t.clk.retainFrom = s.clk.ts ∧ t.clk.ts = s.clk.ts ∧ t.mem.wb = [] ∧ t.srv = s.srv)
    ∧ (s.gov.st = .exiting → s.gov.deferredRestart = 0 → ∀ ref,
      (s.gov.exitFrom = 1 → exec (.powerStateExited ref) s = .next { s with gov := { s.gov with
          st := .active, bankUj := 0, lastExitUs := min (ceilDiv (s.clk.ts - s.gov.exitSince) 1000) 0xFFFFFFFF, wakeOnDoorbell := false } })
      ∧ (s.gov.exitFrom = 2 → s.clk.retainFrom ≤ s.clk.ts → s.boot.evq.length < 4096 →
          ∃ t, exec (.powerStateExited ref) s = .next t ∧ t.gov.st = .active ∧ t.gov.bankUj = 0 ∧ t.clk.rootLock = true ∧ t.gov.wakeOnDoorbell = false
            ∧ t.gov.lastExitUs = min (ceilDiv (t.clk.ts - s.gov.exitSince) 1000) 0xFFFFFFFF
            ∧ (s.clk.ts ≤ s.clk.retainFrom + ref → t.clk.ts = (s.clk.retainFrom + ref) % 2 ^ 64 ∧ t.clk.halfDebt = s.clk.halfDebt)
            ∧ (s.clk.retainFrom + ref < s.clk.ts → t.clk.ts = s.clk.ts ∧ t.clk.halfDebt = s.clk.halfDebt + (s.clk.ts - (s.clk.retainFrom + ref)))))
    ∧ (s.gov.draining = false → exec .powerDrainTimeout s = .next s)
    ∧ (s.gov.st ≠ .entering → exec .powerStateEntered s = .next s)
    ∧ (s.gov.st ≠ .exiting → ∀ ref, exec (.powerStateExited ref) s = .next s)

/-! ### Novmund links and the regatta -/

/-- The ports (R421, R428, R431). A 64-bit write to NL_CTL[p], whichever of NL_ENABLE, NL_RETRAIN and CLR_CNT it is: MEDIUM, WIDTH4 and ENABLE take their fields, a port that becomes enabled or has RETRAIN written trains, one that is disabled is down,
and CLR_CNT clears its counters. NL_PORT_TRAINED: the link is up at 8 or 4 lanes, DEGRADED at 4 without WIDTH4, or down at 0. NL_LINK_LOST takes it down. It rests on the model's readings of log entry 37. -/
def Obligations.LinkPorts : Prop :=
  (∀ (s : State) (p : Nat) (w : RegAccess), p < 8 → isPort s p = true → pfWrite w s = true → w.half = .full → (nlPortOf s p).medium < 4 →
    ∀ c ∈ ([(.nlEnable p w, 0), (.nlRetrain p w, 6), (.clrCnt p w, 7)] : List (Instr × Nat)), bitOf w.data c.2 = true →
      let x := nlPortOf s p
      ∃ y, exec c.1 s = .next (setNlPort s p y) ∧ y.enable = bitOf w.data 0 ∧ y.width4 = bitOf w.data 3
        ∧ y.medium = (if fieldOf w.data 5 4 < 3 then fieldOf w.data 5 4 else x.medium)
        ∧ (bitOf w.data 0 = true → y.training = (x.training || !x.enable || bitOf w.data 6) ∧ y.linkUp = x.linkUp ∧ y.width = x.width ∧ y.peer = x.peer)
        ∧ (bitOf w.data 0 = false → y.training = false ∧ y.linkUp = false ∧ y.width = 0 ∧ y.degraded = false ∧ y.peer = none)
        ∧ (if bitOf w.data 7 = true then y.fecCorrected = 0 ∧ y.fecUncorrected = 0 ∧ y.retransmits = 0
           else y.fecCorrected = x.fecCorrected ∧ y.fecUncorrected = x.fecUncorrected ∧ y.retransmits = x.retransmits))
  ∧ ∀ (s : State) (p : Nat), isPort s p = true → clocksRun s = true → let x := nlPortOf s p
    (x.training = true → ∀ peer,
      exec (.nlPortTrained p ⟨0, peer⟩) s = .next (setNlPort s p { x with training := false, linkUp := false, width := 0, degraded := false, peer := none })
      ∧ exec (.nlPortTrained p ⟨4, peer⟩) s = .next (setNlPort s p { x with training := false, linkUp := true, width := 4, degraded := !x.width4, peer := peer })
      ∧ exec (.nlPortTrained p ⟨8, peer⟩) s
          = .next (setNlPort s p { x with training := false, linkUp := true, width := if x.width4 = true then 4 else 8, degraded := false, peer := peer }))
    ∧ (x.linkUp = true → exec (.nlLinkLost p) s = .next (setNlPort s p { x with linkUp := false, width := 0, degraded := false, peer := none }))

/-- A frame of each kind with its command. -/
def Claims.frameRows (p : Nat) (f : Frame) : List (Instr × Nat) :=
  [(.dataFrame p f, 0), (.ackFrame p f, 1), (.controlFrame p f, 2), (.timeFrame p f 0, 3)]

/-- The header of a frame that goes out by port p to its destination (R423, R424). -/
def Claims.sentTo (s : State) (p dst kind : Nat) (x : Nat × Frame) : Prop :=
  x.1 = p ∧ x.2.dst = dst ∧ x.2.src = s.net.pkgNum ∧ x.2.kind = kind ∧ x.2.version = 1 ∧ x.2.hops = 4
    ∧ x.2.srcAddr = 0x024E56000000 + (p * 2048 + s.net.pkgNum) % 65536

/-- Frames (R422 to R426, R428). One whose FEC fails is dropped and counted, whatever its kind. A DATA frame for this package that is next in order is delivered and acknowledged, one ahead of its turn is
kept and not delivered, and a repeat is acknowledged and not delivered again. An ACK frame releases the frame it names and no other; a TIME frame leaves its receipt stamp; a CONTROL frame's sender is learned. A frame for
another package goes on by a port of its route with HOPS one lower, or is dropped at HOPS 0. A frame not acknowledged after 20 µs goes out again; after 8 transmissions it is dropped and the path fault of
event 0x50 recorded (no shell member). HEARTBEAT goes to the leader. It rests on the model's readings of log entries 18, 19, 93, 94, 131. -/
def Obligations.Frames : Prop :=
  (∀ (s : State) (p : Nat) (f : Frame), frameOk s p f = true → clocksRun s = true → (nlPortOf s p).linkUp = true → f.fecOk = false →
    let x := nlPortOf s p
    let out := setNlPort s p { x with fecUncorrected := min 0xFFFF (x.fecUncorrected + 1) }
    (∀ r ∈ Claims.frameRows p f, f.kind = r.2 → exec r.1 s = .next out) ∧ (f.kind < 4 → exec (.frameForward p f) s = .next out))
  ∧ (∀ (s : State) (p : Nat) (f : Frame), frameOk s p f = true → f.fecOk = true → frameGood p f s = true →
    (f.dst = s.net.pkgNum →
      (f.kind = 0 → let want := sgetD s.net.rxSeq f.src 0
        (f.seq = want → s.net.early = [] → ∃ t, exec (.dataFrame p f) s = .next t ∧ t.net.delivered = s.net.delivered ++ [f]
            ∧ sgetD t.net.rxSeq f.src 0 = (want + 1) % 2 ^ 32 ∧ t.net.early = []
            ∧ (∀ q, pickPort s f.src = some q → ∃ x, t.net.sent = s.net.sent ++ [x] ∧ Claims.sentTo s q f.src 1 x ∧ x.2.seq = f.seq)
            ∧ t = { s with net := t.net })
        ∧ (f.seq ≠ want → (f.seq + 2 ^ 32 - want) % 2 ^ 32 < 2 ^ 31 → (∀ g ∈ s.net.early, g.src ≠ f.src ∨ g.seq ≠ f.seq) →
            exec (.dataFrame p f) s = .next { s with net := { s.net with early := s.net.early ++ [f] } })
        ∧ (f.seq ≠ want → 2 ^ 31 ≤ (f.seq + 2 ^ 32 - want) % 2 ^ 32 → ∃ t, exec (.dataFrame p f) s = .next t ∧ t.net.delivered = s.net.delivered
            ∧ t.net.rxSeq = s.net.rxSeq ∧ (∀ q, pickPort s f.src = some q → ∃ x, t.net.sent = s.net.sent ++ [x] ∧ Claims.sentTo s q f.src 1 x ∧ x.2.seq = f.seq)
            ∧ t = { s with net := t.net }))
      ∧ (f.kind = 1 → exec (.ackFrame p f) s = .next { s with net := { s.net with
          unacked := s.net.unacked.filter (fun x => decide (x.frame.dst ≠ f.src ∨ x.frame.seq ≠ f.seq)) } })
      ∧ (f.kind = 3 → ∀ stamp, exec (.timeFrame p f stamp) s = .next { s with net := { s.net with timeStamps := sset s.net.timeStamps f.src stamp } })
      ∧ (f.kind = 2 → ∀ g, f.control = .heartbeat g → exec (.controlFrame p f) s = .next { s with net := { s.net with
          learned := sset s.net.learned f.src f.srcAddr, heard := sset s.net.heard g s.clk.ts } }))
    ∧ (f.dst ≠ s.net.pkgNum → f.kind < 4 →
      (f.hops = 0 → exec (.frameForward p f) s = .next s)
      ∧ (∀ q, f.hops ≠ 0 → pickPort s f.dst = some q → ∃ t x, exec (.frameForward p f) s = .next t ∧ t.net.sent = s.net.sent ++ [x] ∧ x.1 = q
          ∧ x.2 = { f with hops := f.hops - 1, srcAddr := x.2.srcAddr } ∧ t.net.delivered = s.net.delivered ∧ t = { s with net := t.net })))
  ∧ (∀ (s : State) (dst seq : Nat) (x : TxFrame), s.net.unacked.find? (fun y => y.frame.dst == dst && y.frame.seq == seq) = some x → clocksRun s = true →
      x.lastTx + 20000 ≤ s.clk.ts →
    (∀ q, x.count < 8 → pickPort s dst = some q → ∃ t y, exec (.retransmit dst seq) s = .next t ∧ t.net.sent = s.net.sent ++ [y] ∧ y.1 = q
        ∧ y.2 = { x.frame with srcAddr := y.2.srcAddr } ∧ (nlPortOf t q).retransmits = min 0xFFFF ((nlPortOf s q).retransmits + 1)
        ∧ (∀ z ∈ t.net.unacked, z.frame.dst = dst → z.frame.seq = seq → z.lastTx = s.clk.ts ∧ z.port = q) ∧ t = { s with net := t.net })
    ∧ (8 ≤ x.count → dst ∉ s.net.shellPkgs → Claims.eventsFlow s → ∃ t, exec (.retransmit dst seq) s = .next t
        ∧ t.net = { s.net with unacked := s.net.unacked.filter (fun y => !(y.frame.dst == dst && y.frame.seq == seq)) }
        ∧ Claims.recorded s t (fun r => r.code = 0x50 ∧ r.cls = 2 ∧ r.action = 0 ∧ r.unitKind = 6 ∧ r.unit = x.port ∧ r.detail0 = dst ∧ r.detail1 = x.count) ∧ t.srv = s.srv))
  ∧ (∀ (s : State) (q : Nat), clocksRun s = true → s.net.st = .member → s.net.shellPkgs = [] → s.net.leader ≠ s.net.pkgNum → pickPort s s.net.leader = some q →
    ∃ t x, exec .heartbeat s = .next t ∧ t.net.sent = s.net.sent ++ [x] ∧ Claims.sentTo s q s.net.leader 2 x ∧ x.2.control = .heartbeat s.net.pkgNum ∧ t = { s with net := t.net })

/-- The regatta (R429 to R432). JOIN of a package that is ALONE takes PKG_NUM, REGATTA_ID and TIME_MASTER and starts joining; LEAVE of a member that leads adds its leave to the next epoch's changes. With no port up 100 ms after JOIN the join ends with
result 3; with links up and no member heard 10 ms after JOIN the package forms a regatta of its own at epoch 1. EPOCH_START carries the next epoch, with the member that joins or without the one that leaves. A time exchange sets the offset; within ±40 ns it counts, and three in a
row lock; the first steps a timestamp that is behind forward, and every other sets a rate of at most 200 ppm; TIME frames go out with it. It rests on the model's readings of log entry 93. -/
def Obligations.RegattaMembership : Prop :=
  (∀ (s : State) (w : RegAccess), pfWrite w s = true → w.half = .full → bitOf w.data 11 = true → bitOf w.data 12 = false → s.net.st = .alone →
      s.net.pkgNum < 2048 → s.net.regattaId < 2 ^ 32 →
    ∃ t, exec (.join w) s = .next t ∧ t.net.st = .joining ∧ t.net.joinAt = some s.clk.ts ∧ t.net.joinResult = 0 ∧ t.net.pkgNum = fieldOf w.data 10 0
      ∧ t.net.regattaId = fieldOf w.data 63 32 ∧ t.net.timeMaster = bitOf w.data 15 ∧ t = { s with net := t.net })
  ∧ (∀ (s : State) (w : RegAccess), pfWrite w s = true → w.half = .full → bitOf w.data 12 = true → bitOf w.data 11 = false → s.net.st = .member → s.net.leader = s.net.pkgNum →
      s.net.pkgNum < 2048 → s.net.regattaId < 2 ^ 32 →
    exec (.leave w) s = .next { s with net := { s.net with
      st := .leaving, timeMaster := bitOf w.data 15, changes := s.net.changes ++ [(s.net.pkgNum, false, false)] } })
  ∧ (∀ s : State, clocksRun s = true → s.net.st = .joining →
    (∀ a, anyPortUp s = false → s.net.joinAt = some a → a + 100000000 ≤ s.clk.ts →
      exec .joinNoPort s = .next { s with net := { s.net with st := .alone, joinResult := 3, joinAt := none } })
    ∧ (∀ a, anyPortUp s = true → s.net.joinAt = some a → a + 10000000 ≤ s.clk.ts → ∃ t, exec .regattaFormAlone s = .next t ∧ t.net.st = .member ∧ t.net.epoch = 1 ∧ t.net.members = [s.net.pkgNum] ∧ t.net.leader = s.net.pkgNum
        ∧ t.net.master = true ∧ t.net.joinResult = 1 ∧ t = { s with net := t.net }))
  ∧ (∀ (s : State) (pkg : Nat) (joins tm : Bool), clocksRun s = true → s.net.st = .member → s.net.leader = s.net.pkgNum → s.net.nextEpoch = none →
      s.net.changes = [(pkg, joins, tm)] →
    ∃ t ms masters, exec .epochStart s = .next t ∧ t.net.nextEpoch = some ((s.net.epoch + 1) % 2 ^ 32, ms, masters) ∧ t.net.changes = []
      ∧ (∀ x, x ∈ ms ↔ if joins = true then x ∈ s.net.members ∨ x = pkg else x ∈ s.net.members ∧ x ≠ pkg) ∧ t.net.epoch = s.net.epoch
      ∧ t.net.members = s.net.members ∧ t = { s with net := t.net })
  ∧ ∀ (s : State) (o : Int), -(2 ^ 31) ≤ o → o < 2 ^ 31 → clocksRun s = true → s.net.st = .member ∨ s.net.st = .leaving →
    ∃ t, exec (.timeExchange o) s = .next t ∧ t.net.offsetNs = o ∧ t.net.goodExchanges = (if -40 ≤ o ∧ o ≤ 40 then s.net.goodExchanges + 1 else 0)
      ∧ (s.net.goodExchanges = 2 → -40 ≤ o → o ≤ 40 → t.net.locked = true) ∧ -200 ≤ t.clk.ratePpm ∧ t.clk.ratePpm ≤ 200
      ∧ (s.net.stepped = false → s.net.master = false → o < 0 → t.clk.ts = (s.clk.ts + o.natAbs) % 2 ^ 64)
      ∧ (s.net.stepped = true ∨ s.net.master = true ∨ 0 ≤ o → t.clk.ts = s.clk.ts)
      ∧ (s.net.master = true → t.clk.ratePpm = 0)
      ∧ (∃ new, t.net.sent = s.net.sent ++ new ∧ ∀ x ∈ new, x.2.kind = 3 ∧ x.2.src = s.net.pkgNum ∧ x.2.dst ≠ s.net.pkgNum) ∧ t = { s with net := t.net, clk := t.clk }

/-! ### Shells and restarts -/

/-- The shell restart on this package (R440 steps 2 to 5): every request ends, only paused conversations stay, the engines and the crews' SRAM and sync objects are empty, dummy mode begins, the restart is counted, and the shell is
RESTARTING, or at the ninth restart within a second has ended. -/
def Claims.RestartRuns : Prop :=
  ∀ s : State, risingKeys s.srv.slots = true → let t := runRestart s
    let recent := (s.clk.ts :: s.net.restarts).filter (fun x => decide (s.clk.ts < x + 1000000000))
    t.srv.slots = [] ∧ t.srv.strokeSince = none ∧ t.srv.admitted = [] ∧ t.cores = [] ∧ (∀ c, (crewOf t c).sram = [] ∧ (crewOf t c).syncs = [])
      ∧ (∀ c ∈ t.srv.convs, c.st = .paused) ∧ t.boot.dummy = true ∧ t.flt.restarts = min 0xFF (s.flt.restarts + 1)
      ∧ (recent.length < 9 → t.net.shell = .restarting) ∧ (9 ≤ recent.length → t.net.shell = .solo ∧ t.obj.modelHandle = [] ∧ t.srv.convs = [])

/-- An event leaves its record, and the restart that it asks for follows: at once in ACTIVE, else at the power state's exit (R462, R476). Beside the record, extra says what the event
does before the restart. -/
def Claims.restartsWith (s : State) (o : Host.Outcome State Fault Refusal) (level : Nat) (r : ErrRec → Prop) (extra : State → Prop) : Prop :=
  ∃ u, Claims.recorded s u r ∧ extra u ∧ u.srv = s.srv ∧ u.net = s.net ∧ u.obj = s.obj ∧ u.gov = s.gov
    ∧ (s.gov.st = .active → o = .next (Claims.after s (restartShell u)))
    ∧ (s.gov.st ≠ .active → o = .next (Claims.after s { u with gov := { u.gov with deferredRestart := max s.gov.deferredRestart level } }))

/-- The same with nothing besides. -/
def Claims.restartsAfter (s : State) (o : Host.Outcome State Fault Refusal) (level : Nat) (r : ErrRec → Prop) : Prop :=
  Claims.restartsWith s o level r (fun _ => True)

/-- A record that a command leaves before its last one: the state after it differs from s in nothing that a restart depends on. -/
def Claims.logsFirst (s s1 : State) (r : ErrRec → Prop) : Prop :=
  Claims.recorded s s1 r ∧ s1.srv = s.srv ∧ s1.net = s.net ∧ s1.obj = s.obj ∧ s1.gov = s.gov ∧ s1.boot = s.boot ∧ s1.clk.ts = s.clk.ts

/-- The events that restart the shell, each with its record: SYNC_TIMEOUT 0x24 of its crew once the stroke's 8 ms have passed with a WAIT open, CDC_TIMEOUT 0x31 where the transfer carried committed
work, and WATCHDOG 0x61 (R173, R475, R499). -/
def Claims.TimersRestart : Prop :=
  ∀ s : State, clocksRun s = true → Claims.eventsFlow s →
    (∀ crew obj since, crew < Config.crews s.part → obj < 1024 → s.srv.strokeSince = some since → since + 8000000 ≤ s.clk.ts → waitOpen s crew obj = true →
      Claims.restartsAfter s (exec (.syncTimeout crew obj) s) 1
        (fun r => r.code = 0x24 ∧ r.cls = 2 ∧ r.action = 2 ∧ r.unitKind = 2 ∧ r.unit = crew ∧ r.committed = true ∧ r.detail0 = obj))
    ∧ (∀ x, x / 256 ≤ 41 → x % 256 ≤ 41 → Claims.restartsAfter s (exec (.cdcTimeout x true) s) 1
        (fun r => r.code = 0x31 ∧ r.cls = 2 ∧ r.action = 2 ∧ r.committed = true ∧ r.detail0 = x))
    ∧ (∀ cox, cox < 4 → 4 ≤ s.boot.stage → Claims.restartsAfter s (exec (.watchdog cox) s) 2
        (fun r => r.code = 0x61 ∧ r.cls = 3 ∧ r.action = 3 ∧ r.unitKind = 7 ∧ r.detail0 = cox))

/-- Where its event has not come, a timer's command changes nothing: no stroke, one younger than 8 ms or no WAIT open for SYNC_TIMEOUT; a cox core that has not started for WATCHDOG. -/
def Claims.TimersWait : Prop :=
  ∀ s : State,
    (∀ crew obj, crew < Config.crews s.part → obj < 1024 →
        (∀ since, s.srv.strokeSince = some since → s.clk.ts < since + 8000000) ∨ waitOpen s crew obj = false → exec (.syncTimeout crew obj) s = .next s)
    ∧ (∀ cox, cox < 4 → s.boot.stage < 4 → exec (.watchdog cox) s = .next s)

/-- SHELL_RESTART: a fault of this member with one of the codes of R440 leaves its record and restarts the shell. A die reset is counted and leaves the record 0x30 of its die first (R475). -/
def Claims.FaultsRestart : Prop :=
  ∀ (s : State) (f : FaultReport), clocksRun s = true → Claims.eventsFlow s → f.unitKind ≤ 8 → f.unit < 2 ^ 16 →
    f.code ∈ [0x20, 0x21, 0x22, 0x23, 0x24, 0x30, 0x31, 0x40, 0x50] → (∀ d, f.dieReset = some d → d < Config.dies s.part) →
    let rec_ := fun (r : ErrRec) => r.code = f.code ∧ r.cls = (if f.code = 0x21 then 3 else 2) ∧ r.action = 2 ∧ r.unitKind = f.unitKind ∧ r.unit = f.unit
      ∧ r.committed = f.committed ∧ r.detail0 = f.detail0 ∧ r.detail1 = f.detail1
    (4 ≤ s.boot.stage → f.dieReset = none → Claims.restartsAfter s (exec (.shellRestart f) s) 1 rec_)
    ∧ (∀ d, 4 ≤ s.boot.stage → f.dieReset = some d →
        ∃ s1, Claims.logsFirst s s1 (fun r => r.code = 0x30 ∧ r.cls = 2 ∧ r.action = 0 ∧ r.unitKind = 1 ∧ r.unit = d)
          ∧ s1.clk.dieResets = min 0xFFFF (s.clk.dieResets + 1) ∧ Claims.restartsAfter s1 (exec (.shellRestart f) s) 1 rec_)
    ∧ (s.boot.stage < 4 → exec (.shellRestart f) s = .next s)

/-- RESTART_FRAME (R440): a restart frame of the package's shell from another member runs the restart here; one of another shell, or with no shell formed, changes nothing; one whose FEC fails is dropped
and counted, and one that is for another package, or that no member sent, is dropped. -/
def Claims.RestartFrames : Prop :=
  ∀ (s : State) (p : Nat) (f : Frame) (shell : Nat), frameOk s p f = true → f.kind = 2 → f.control = .restart shell →
    (f.fecOk = true → frameGood p f s = true → f.dst = s.net.pkgNum →
      (shell ≠ 0 → shell = s.net.shellId → s.net.shell = .formed ∨ s.net.shell = .restarting → exec (.restartFrame p f) s = .next (Claims.after s (runRestart s)))
      ∧ (shell = 0 ∨ shell ≠ s.net.shellId ∨ (s.net.shell ≠ .formed ∧ s.net.shell ≠ .restarting) → exec (.restartFrame p f) s = .next s))
    ∧ (f.fecOk = false → clocksRun s = true → (nlPortOf s p).linkUp = true →
        exec (.restartFrame p f) s
          = .next (setNlPort s p { nlPortOf s p with fecUncorrected := min 0xFFFF ((nlPortOf s p).fecUncorrected + 1) }))
    ∧ (f.fecOk = true → frameGood p f s = false ∨ f.dst ≠ s.net.pkgNum → exec (.restartFrame p f) s = .next s)

/-- Events that restart the shell (R173, R440, R462, R475, R499), the frames by which another member restarts it, and what a restart leaves. It rests on the model's readings of log entries
65, 66, 94. -/
def Obligations.RestartEvents : Prop :=
  Claims.RestartRuns ∧ Claims.TimersRestart ∧ Claims.TimersWait ∧ Claims.FaultsRestart ∧ Claims.RestartFrames

/-- SHELL_FORMED and SHELL_JOIN_TIMEOUT (R435, R436). Once every member has joined the shell is FORMED, and a SHELL_JOIN that waits completes SUCCESS; a join that is not complete at its limit returns the package to SOLO, and
its SHELL_JOIN fails with 0x1F. Before that neither changes anything. -/
def Claims.ShellForms : Prop :=
  ∀ s : State,
    (clocksRun s = true → s.net.shell = .joining → Claims.nothingWaits s →
      (allJoined s = true →
        (joinSlots s = [] → ∃ t, exec .shellFormed s = .next t ∧ t.net.shell = .formed ∧ t.net.joined = [] ∧ t.net.shellPkgs = s.net.shellPkgs ∧ t.srv = s.srv)
        ∧ (∀ n r, s.srv.slots = [(n, r)] → r.work = .shellJoin → r.silent = false → Claims.canPost s ⟨r.fn, r.ring⟩ →
            ∃ t, exec .shellFormed s = .next t ∧ t.net.shell = .formed ∧ t.net.joined = [] ∧ t.net.shellPkgs = s.net.shellPkgs ∧ t.srv.slots = []
              ∧ Claims.posts s t ⟨r.fn, r.ring⟩ r.tag r.opcode 0))
      ∧ (allJoined s = false → s.net.joinLimit ≤ s.clk.ts →
        (joinSlots s = [] → ∃ t, exec .shellJoinTimeout s = .next t ∧ t.net.shell = .solo ∧ t.net.memberCount = 1 ∧ t.net.shellPkgs = [] ∧ t.srv = s.srv)
        ∧ (∀ n r, s.srv.slots = [(n, r)] → r.work = .shellJoin → r.silent = false → Claims.canPost s ⟨r.fn, r.ring⟩ →
            ∃ t, exec .shellJoinTimeout s = .next t ∧ t.net.shell = .solo ∧ t.net.memberCount = 1 ∧ t.net.shellPkgs = [] ∧ t.srv.slots = []
              ∧ Claims.posts s t ⟨r.fn, r.ring⟩ r.tag r.opcode 0x1F ∧ (ringOf t ⟨r.fn, r.ring⟩).errStatus = 0x1F
              ∧ ((ringOf s ⟨r.fn, r.ring⟩).st = .active → (ringOf t ⟨r.fn, r.ring⟩).st = .frozen))))
    ∧ (s.net.shell ≠ .joining ∨ allJoined s = false → exec .shellFormed s = .next s)
    ∧ (s.net.shell ≠ .joining ∨ allJoined s = true ∨ s.clk.ts < s.net.joinLimit → exec .shellJoinTimeout s = .next s)

/-- MEMBER_READY (R440): the lead of a shell that restarts counts a member that is ready, once; elsewhere the command changes nothing. -/
def Claims.MembersReady : Prop :=
  ∀ (s : State) (m : Nat), clocksRun s = true →
    (s.net.shell = .restarting → isLead s = true → m < s.net.memberCount → m ∉ s.net.readyMembers →
      exec (.memberReady m) s = .next { s with net := { s.net with readyMembers := s.net.readyMembers ++ [m] } })
    ∧ (s.net.shell ≠ .restarting ∨ isLead s = false ∨ s.net.memberCount ≤ m ∨ m ∈ s.net.readyMembers → exec (.memberReady m) s = .next s)

/-- MEMBER_LOST (R431): a member whose heartbeats have been missed for 1 ms is recorded as event 0x51. Outside the shell the shell stays as it is: the leader takes the loss into the next epoch's changes, and where the
leader is lost the next lowest member leads. In the shell it ends it, at the commit point of a stroke in progress or at once. Nothing changes while heartbeats still come. -/
def Claims.MembersLost : Prop :=
  ∀ (s : State) (pkg : Nat), pkg < 2048 → clocksRun s = true →
    (pkg ≠ s.net.pkgNum → sgetD s.net.heard pkg 0 + 1000000 ≤ s.clk.ts → Claims.eventsFlow s →
      (pkg ∈ s.net.members → pkg ∉ s.net.shellPkgs → ∃ t, exec (.memberLost pkg) s = .next t ∧ t.srv = s.srv ∧ t.net.shell = s.net.shell ∧ t.net.shellPkgs = s.net.shellPkgs
        ∧ Claims.recorded s t (fun r => r.code = 0x51 ∧ r.cls = 2 ∧ r.action = 0 ∧ r.detail0 = pkg)
        ∧ (s.net.leader = s.net.pkgNum → t.net = { s.net with changes := s.net.changes ++ [(pkg, false, false)] })
        ∧ (s.net.leader ≠ s.net.pkgNum → s.net.leader ≠ pkg → t.net = s.net)
        ∧ (s.net.leader = pkg → (∃ m ∈ s.net.members, m ≠ pkg) →
            t.net.leader ∈ s.net.members ∧ t.net.leader ≠ pkg ∧ ∀ m ∈ s.net.members, m ≠ pkg → t.net.leader ≤ m))
      ∧ (pkg ∈ s.net.shellPkgs → s.net.shell ≠ .solo → ∃ t, exec (.memberLost pkg) s = .next t
          ∧ (s.srv.strokeSince ≠ none → t.net.shell = .ending ∧ t.srv = s.srv) ∧ (s.srv.strokeSince = none → t.net.shell = .solo ∧ t.net.shellPkgs = [])
          ∧ Claims.recorded s t (fun r => r.code = 0x51 ∧ r.cls = 2 ∧ r.action = 4 ∧ r.detail0 = pkg ∧ r.detail1 = s.net.epoch)))
    ∧ (pkg = s.net.pkgNum ∨ (pkg ∉ s.net.members ∧ pkg ∉ s.net.shellPkgs) ∨ s.clk.ts < sgetD s.net.heard pkg 0 + 1000000 → exec (.memberLost pkg) s = .next s)

/-- RESTART_READY_TIMEOUT (R440): with a member of the shell not ready 100 ms after the restart began the shell ends, and where that is the only one its loss is recorded as event 0x51. With every
member ready, or before that, nothing changes. -/
def Claims.MembersLate : Prop :=
  ∀ s : State, clocksRun s = true →
    (s.net.shell = .restarting → isLead s = true → s.net.restarts.headD 0 + 100000000 ≤ s.clk.ts → Claims.eventsFlow s →
      ∀ m pkg, s.net.shellPkgs[m]? = some pkg → m < s.net.memberCount → m ∉ s.net.readyMembers →
        ∃ t, exec .restartReadyTimeout s = .next t ∧ (s.srv.strokeSince ≠ none → t.net.shell = .ending) ∧ (s.srv.strokeSince = none → t.net.shell = .solo)
          ∧ ((∀ k, k < s.net.memberCount → k ≠ m → k ∈ s.net.readyMembers) →
              Claims.recorded s t (fun r => r.code = 0x51 ∧ r.cls = 2 ∧ r.action = 4 ∧ r.detail0 = pkg)))
    ∧ (s.net.shell ≠ .restarting ∨ isLead s = false ∨ s.clk.ts < s.net.restarts.headD 0 + 100000000 ∨ (∀ m, m < s.net.memberCount → m ∈ s.net.readyMembers) →
        exec .restartReadyTimeout s = .next s)

/-- Shells (R431, R435, R436, R440): how they form, how the lead counts the members that are ready, and how they lose members and end. It rests on the model's readings of log entries
94, 148. -/
def Obligations.ShellMembership : Prop := Claims.ShellForms ∧ Claims.MembersReady ∧ Claims.MembersLost ∧ Claims.MembersLate

/-! ### Silent errors, firmware and board management -/

/-- REPEAT_CHECK_COMPLETE (R466, R467, R470). A re-run on another crew whose rows agree is counted and its sample dropped; it is a clean check of a core in WATCH, and WATCH_CLEAN of them end its WATCH. One whose
rows differ counts a mismatch and leaves the sample with its checker while an arbiter's crew serves; where none does, each of the two cores has an event 0x21 and the shell restarts. -/
def Claims.RepeatChecks : Prop :=
  ∀ (s : State) (x : Sample) (c : CheckResult), sampleOf s c.sample = some x → c.core < 9 * Config.crews s.part → c.rowsDiffer.Nodup →
    (clocksRun s = true → x.checker = none → coreServes s c.core = true → c.core / 9 ≠ x.core / 9 →
      (c.rowsDiffer = [] →
        (inWatch s (.core x.core) = false → inWatch s (.crew (x.core / 9)) = false →
          exec (.repeatCheckComplete c) s = .next { s with flt := { s.flt with
            checksRun := (s.flt.checksRun + 1) % 2 ^ 64, samples := s.flt.samples.filter (fun y => y.id != x.id) } })
        ∧ ∃ t, exec (.repeatCheckComplete c) s = .next t ∧ t.flt.checksRun = (s.flt.checksRun + 1) % 2 ^ 64
            ∧ t.flt.samples = s.flt.samples.filter (fun y => y.id != x.id) ∧ t.srv = s.srv
            ∧ (inWatch s (.core x.core) = true → let n := sgetD (crewOf s (x.core / 9)).clean (x.core % 9) 0 + 1
                (n < fieldOf s.flt.ctl 39 28 → inWatch t (.core x.core) = true ∧ sgetD (crewOf t (x.core / 9)).clean (x.core % 9) 0 = n)
                ∧ (fieldOf s.flt.ctl 39 28 ≤ n → inWatch t (.core x.core) = false)))
      ∧ (c.rowsDiffer ≠ [] → arbiterCrews s (x.core / 9) (c.core / 9) ≠ [] →
        exec (.repeatCheckComplete c) s = .next { s with flt := { s.flt with
          checksRun := (s.flt.checksRun + 1) % 2 ^ 64, mismatches := min 0xFF (s.flt.mismatches + 1)
          samples := s.flt.samples.map (fun z => if z.id == x.id then { x with checker := some c.core, rowsDiffer := c.rowsDiffer } else z) } })
      ∧ (c.rowsDiffer ≠ [] → arbiterCrews s (x.core / 9) (c.core / 9) = [] → Claims.eventsFlow s →
        ∃ s1, Claims.logsFirst s s1 (fun r => r.code = 0x21 ∧ r.cls = 3 ∧ r.unitKind = 3 ∧ r.unit = x.core ∧ r.isRepeat = true)
          ∧ Claims.restartsWith s1 (exec (.repeatCheckComplete c) s) 1 (fun r => r.code = 0x21 ∧ r.cls = 3 ∧ r.action = 2 ∧ r.unitKind = 3 ∧ r.unit = c.core)
              (fun u => u.flt.mismatches = min 0xFF (s.flt.mismatches + 1) ∧ ∀ y ∈ u.flt.samples, y.id ≠ x.id)))
    ∧ (x.checker ≠ none ∨ coreServes s c.core = false ∨ c.core / 9 = x.core / 9 → exec (.repeatCheckComplete c) s = .next s)

/-- ARBITER_COMPLETE (R467). An arbiter that agrees with the original run charges the checker: event 0x20, and its core in WATCH, or, in WATCH before, the shell restarts; one that agrees with the checker
charges the original core and restarts the shell; one that agrees with neither leaves an event 0x21 for each of the three cores and restarts it. The sample is dropped. -/
def Claims.Arbiters : Prop :=
  ∀ (s : State) (x : Sample) (k : Nat) (a : ArbiterResult), sampleOf s a.sample = some x → x.checker = some k → a.core < 9 * Config.crews s.part →
    let dropped := fun (u : State) => u.flt.samples = s.flt.samples.filter (fun y => y.id != x.id)
    (clocksRun s = true → coreServes s a.core = true → a.core / 9 ≠ x.core / 9 → a.core / 9 ≠ k / 9 → Claims.eventsFlow s →
      (a.agreement = .originalAndArbiter → inWatch s (.core k) = false → ∃ t, exec (.arbiterComplete a) s = .next t ∧ dropped t ∧ t.srv = s.srv
          ∧ Claims.recorded s t (fun r => r.code = 0x20 ∧ r.cls = 2 ∧ r.action = 0 ∧ r.unitKind = 3 ∧ r.unit = k ∧ r.isRepeat = true)
          ∧ (unitOut s (.core k) = false → inWatch t (.core k) = true ∧ ∀ r, t.flt.live.head? = some r → r.verdict = 1))
      ∧ (a.agreement = .originalAndArbiter → inWatch s (.core k) = true → Claims.restartsWith s (exec (.arbiterComplete a) s) 1
          (fun r => r.code = 0x20 ∧ r.cls = 2 ∧ r.unitKind = 3 ∧ r.unit = k ∧ r.isRepeat = true) dropped)
      ∧ (a.agreement = .checkerAndArbiter → Claims.restartsWith s (exec (.arbiterComplete a) s) 1
          (fun r => r.code = 0x20 ∧ r.cls = 2 ∧ r.action = 2 ∧ r.unit = x.core ∧ r.suspect = true ∧ r.fn = x.fn ∧ r.tag = x.tag ∧ r.ring = x.ring) dropped)
      ∧ (a.agreement = .none → ∃ s1 s2, Claims.logsFirst s s1 (fun r => r.code = 0x21 ∧ r.cls = 3 ∧ r.unit = x.core)
          ∧ Claims.logsFirst s1 s2 (fun r => r.code = 0x21 ∧ r.cls = 3 ∧ r.unit = k)
          ∧ Claims.restartsWith s2 (exec (.arbiterComplete a) s) 1 (fun r => r.code = 0x21 ∧ r.cls = 3 ∧ r.action = 2 ∧ r.unit = a.core) dropped))
    ∧ (coreServes s a.core = false ∨ a.core / 9 = x.core / 9 ∨ a.core / 9 = k / 9 → exec (.arbiterComplete a) s = .next s)

/-- A check sample that no re-run has taken within a second is dropped (R466); a younger one, or one with a checker, stays, and a number that names none changes nothing. -/
def Claims.SamplesDrop : Prop :=
  ∀ (s : State) (n : Nat),
    (∀ x, sampleOf s n = some x → x.checker = none → x.takenAt + 1000000000 ≤ s.clk.ts →
      exec (.checkSampleDropped n) s = .next { s with flt := { s.flt with samples := s.flt.samples.filter (fun y => y.id != n) } })
    ∧ (∀ x, sampleOf s n = some x → x.checker ≠ none ∨ s.clk.ts < x.takenAt + 1000000000 → exec (.checkSampleDropped n) s = .next s)
    ∧ (sampleOf s n = none → exec (.checkSampleDropped n) s = .next s ∧ (∀ c : CheckResult, c.sample = n → c.core < 9 * Config.crews s.part → c.rowsDiffer.Nodup →
          exec (.repeatCheckComplete c) s = .next s)
        ∧ ∀ a : ArbiterResult, a.sample = n → a.core < 9 * Config.crews s.part → exec (.arbiterComplete a) s = .next s)

/-- DIRECTED_TEST_COMPLETE (R470, R471). A core or a crew's SRAM that passes, with fewer events in its history than HIST_LIMIT, leaves TESTING for WATCH with no clean checks; one that fails, or whose history has that many, is FAILED
with an event 0x22 or 0x23 of VERDICT PERMANENT, and the shell restarts. A unit that is not in TESTING stays as it is. -/
def Claims.DirectedTests : Prop :=
  ∀ (s : State) (n : Nat) (passed : Bool), clocksRun s = true →
    (n < 9 * Config.crews s.part →
      (inTesting s (.core n) = true →
        (passed = true → windowEvents s (.core n) < fieldOf s.flt.ctl 27 24 → ∃ t, exec (.directedTestComplete (.core n) passed) s = .next t
            ∧ inTesting t (.core n) = false ∧ inWatch t (.core n) = true ∧ sgetD (crewOf t (n / 9)).clean (n % 9) 0 = 0
            ∧ (∀ c, c ≠ n / 9 → crewOf t c = crewOf s c) ∧ t = { s with crews := t.crews })
        ∧ (passed = false ∨ fieldOf s.flt.ctl 27 24 ≤ windowEvents s (.core n) → Claims.eventsFlow s →
            Claims.restartsWith s (exec (.directedTestComplete (.core n) passed) s) 1
              (fun r => r.code = 0x22 ∧ r.cls = 2 ∧ r.action = 2 ∧ r.unitKind = 3 ∧ r.unit = n ∧ r.verdict = 3)
              (fun u => hasBit (crewOf u (n / 9)).failed (n % 9) = true ∧ inTesting u (.core n) = false)))
      ∧ (inTesting s (.core n) = false → exec (.directedTestComplete (.core n) passed) s = .next s))
    ∧ (n < Config.crews s.part →
      (inTesting s (.crew n) = true →
        (passed = true → windowEvents s (.crew n) < fieldOf s.flt.ctl 27 24 → ∃ t, exec (.directedTestComplete (.crew n) passed) s = .next t
            ∧ inTesting t (.crew n) = false ∧ inWatch t (.crew n) = true ∧ sgetD (crewOf t n).clean 9 0 = 0
            ∧ (∀ c, c ≠ n → crewOf t c = crewOf s c) ∧ t = { s with crews := t.crews })
        ∧ (passed = false ∨ fieldOf s.flt.ctl 27 24 ≤ windowEvents s (.crew n) → Claims.eventsFlow s →
            Claims.restartsWith s (exec (.directedTestComplete (.crew n) passed) s) 1
              (fun r => r.code = 0x23 ∧ r.cls = 2 ∧ r.action = 2 ∧ r.unitKind = 2 ∧ r.unit = n ∧ r.verdict = 3)
              (fun u => (crewOf u n).sramFailed = true ∧ inTesting u (.crew n) = false)))
      ∧ (inTesting s (.crew n) = false → exec (.directedTestComplete (.crew n) passed) s = .next s))

/-- Check samples, their arbiters and directed tests (R466, R467, R470, R471). It rests on the model's readings of log entries 67, 92. -/
def Obligations.SilentErrors : Prop := Claims.RepeatChecks ∧ Claims.Arbiters ∧ Claims.SamplesDrop ∧ Claims.DirectedTests

/-- What an activation does when its step is due (R512, R513). With the image loaded and fewer than 2,048 events queued, composition is held at a stroke boundary. ACTIVATION_RESUME runs the new image, shows it in REV, and completes the
command with SUCCESS (stated with no event waiting and no conversation). When the queue stayed full the command fails with 0x31 and the activation ends; so it does when the new image has not composed after 100 ms, and then the
running image stays and every shell restarts. -/
def Claims.ActivationRuns : Prop :=
  ∀ s : State, clocksRun s = true →
    (s.boot.act = .loaded → s.srv.strokeSince = none → s.gov.st = .active → s.boot.evq.length < 2048 →
      exec .activationHold s = .next { s with boot := { s.boot with act := .held, activating := true, actSince := s.clk.ts } })
    ∧ (∀ n r slot, s.srv.slots = [(n, r)] → r.work = .activate slot → r.silent = false → Claims.nothingWaits s → Claims.canPost s ⟨r.fn, r.ring⟩ →
      (∀ f, s.boot.act = .held → s.boot.evq = [] → s.srv.convs = [] → slookup s.boot.slots s.boot.actSlot = some f →
        ∃ t, exec .activationResume s = .next t ∧ t.boot.act = .idle ∧ t.boot.activating = false ∧ t.boot.fwMajor = f.major ∧ t.boot.fwMinor = f.minor
          ∧ t.boot.fwPatch = f.patch ∧ t.boot.activeSlot = s.boot.actSlot ∧ t.srv.slots = [] ∧ Claims.posts s t ⟨r.fn, r.ring⟩ r.tag r.opcode 0)
      ∧ (s.boot.act = .loaded → 2048 ≤ s.boot.evq.length → ∃ t, exec .activationBusyTimeout s = .next t ∧ t.boot.act = .idle ∧ t.boot.activating = false
          ∧ t.boot.activeSlot = s.boot.activeSlot ∧ t.srv.slots = [] ∧ Claims.posts s t ⟨r.fn, r.ring⟩ r.tag r.opcode 0x31 ∧ (ringOf t ⟨r.fn, r.ring⟩).errStatus = 0x31)
      ∧ (s.boot.act = .held → s.boot.evq = [] → s.boot.actSince + 100000000 ≤ s.clk.ts → s.gov.st = .active →
          ∃ t, exec .startFailed s = .next t ∧ t.boot.act = .idle ∧ t.boot.activating = false ∧ t.boot.activeSlot = s.boot.activeSlot ∧ t.boot.fwMajor = s.boot.fwMajor
            ∧ t.srv.slots = [] ∧ (ringOf t ⟨r.fn, r.ring⟩).errStatus = 0x31 ∧ t.flt.restarts = min 0xFF (s.flt.restarts + 1) ∧ t.boot.dummy = true
            ∧ (bitOf s.flt.ctl 0 = false → Claims.posts s t ⟨r.fn, r.ring⟩ r.tag r.opcode 0x31)))

/-- A step of an activation that is not due changes nothing. -/
def Claims.ActivationWaits : Prop :=
  ∀ s : State,
    (s.boot.act ≠ .loaded ∨ s.srv.strokeSince ≠ none ∨ s.gov.st ≠ .active ∨ 2048 ≤ s.boot.evq.length → exec .activationHold s = .next s)
    ∧ (s.boot.act ≠ .held → exec .activationResume s = .next s)
    ∧ (s.boot.act ≠ .loaded ∨ s.boot.evq.length < 2048 → exec .activationBusyTimeout s = .next s)
    ∧ (s.boot.act ≠ .held ∨ s.clk.ts < s.boot.actSince + 100000000 → exec .startFailed s = .next s)

/-- Firmware activation: its steps when they are due, and when not (R512, R513). It rests on the model's readings of log entries 95, 148. -/
def Obligations.FirmwareActivation : Prop := Claims.ActivationRuns ∧ Claims.ActivationWaits

/-- The board-management endpoint (R501, R511, R517). A firmware image goes into the slot that is not running and no other; a boot configuration record goes into the copy that is not in use, with GENERATION one higher; a sensor answers its value in
8 bytes. -/
def Claims.PldmAnswers : Prop :=
  ∀ s : State, clocksRun s = true →
    (∀ img : FwImage, img.slot < 2 →
      (img.slot ≠ s.boot.activeSlot → exec (.pldmFwSlotUpdate img) s = .next { s with boot := { s.boot with slots := sset s.boot.slots img.slot img } })
      ∧ (img.slot = s.boot.activeSlot → exec (.pldmFwSlotUpdate img) s = .next s))
    ∧ (∀ slot spread, slot < 2 → spread < 3 → ∃ t, exec (.pldmBootcfgUpdate slot spread) s = .next t
        ∧ (bootCfg t).valid = true ∧ t = { s with boot := { s.boot with cfg0 := t.boot.cfg0, cfg1 := t.boot.cfg1 } }
        ∧ (let new : BootCfg := { valid := true, generation := ((bootCfg s).generation + 1) % 2 ^ 32, prefSlot := slot, spread := spread }
           if s.boot.cfg0.valid = true ∧ (s.boot.cfg1.valid = false ∨ s.boot.cfg1.generation ≤ s.boot.cfg0.generation) then t.boot.cfg1 = new ∧ t.boot.cfg0 = s.boot.cfg0
           else t.boot.cfg0 = new ∧ t.boot.cfg1 = s.boot.cfg1))
    ∧ (let answers := fun (n : Nat) => (Host.Outcome.next { s with pins := { s.pins with bmcOut := leBytes 8 n } } : Host.Outcome State Fault Refusal)
       exec (.pldmSensorRead .powerW) s = answers (s.gov.samples.sum / 1000) ∧ exec (.pldmSensorRead .energyMj) s = answers (s.gov.energyUj / 1000)
         ∧ exec (.pldmSensorRead .healthLevel) s = answers s.boot.level ∧ exec (.pldmSensorRead .bootStage) s = answers s.boot.stage
         ∧ ∀ d which, d < 9 → which < 5 → exec (.pldmSensorRead (.temp d which)) s
             = answers (let x := tempOf s d; [codeOf 8 x.dieC, codeOf 8 x.stack0C, codeOf 8 x.stack1C, codeOf 8 x.trainC, bit x.valid].getD which 0))

/-- CPER_EXPORT (R477 to R479): 328 bytes that begin CPER and hold the 64 bytes of the record; a number past the history's end answers nothing. SETDASA (R537) assigns the dynamic address to static address 0x4D alone. -/
def Claims.BoardReads : Prop :=
  ∀ s : State,
    (clocksRun s = true → (∀ n h, s.flt.history[n]? = some h → ∃ t, exec (.cperExport n) s = .next t ∧ t.pins.bmcOut.length = 328
        ∧ slice t.pins.bmcOut 0 4 = [0x43#8, 0x50#8, 0x45#8, 0x52#8] ∧ slice t.pins.bmcOut 200 64 = recordBytes h.record
        ∧ t = { s with pins := { s.pins with bmcOut := t.pins.bmcOut } })
      ∧ ∀ d, d < 128 → exec (.setdasa 0x4D d) s = .next { s with pins := { s.pins with i3cAddr := some d } })
    ∧ (∀ n, s.flt.history[n]? = none → exec (.cperExport n) s = .next s)
    ∧ (∀ a d, a < 128 → d < 128 → a ≠ 0x4D → exec (.setdasa a d) s = .next s)
    ∧ (clocksRun s = false → (∀ img : FwImage, img.slot < 2 → exec (.pldmFwSlotUpdate img) s = .next s)
      ∧ (∀ slot spread, slot < 2 → spread < 3 → exec (.pldmBootcfgUpdate slot spread) s = .next s)
      ∧ (∀ x, sensorKnown x = true → exec (.pldmSensorRead x) s = .next s) ∧ (∀ n, exec (.cperExport n) s = .next s)
      ∧ ∀ d, d < 128 → exec (.setdasa 0x4D d) s = .next s)

/-- The next states of the test access port of IEEE 1149.1 for TMS 0 and 1, by state (R539). -/
def Claims.tapTable : List (Nat × Nat) :=
  [(1, 0), (1, 2), (3, 9), (4, 5), (4, 5), (6, 8), (6, 7), (4, 8), (1, 2), (10, 0), (11, 12), (11, 12), (13, 15), (13, 14), (11, 15), (1, 2)]

/-- Boundary scan (R539): TRST_N low resets the controller; otherwise it steps by TMS, and BYPASS captures 0 and shifts TDI. GPIO[3] falls at the pulse's end (R524). -/
def Claims.ScanAndPulse : Prop :=
  ∀ s : State,
    (∀ tms tdi, s.pins.pwrok = true →
      exec (.boundaryScan tms tdi false) s = .next { s with pins := { s.pins with tapState := 0, tapBypass := false } }
      ∧ ∀ x, Claims.tapTable[s.pins.tapState]? = some x →
          exec (.boundaryScan tms tdi true) s = .next { s with pins := { s.pins with
            tapState := if tms = true then x.2 else x.1
            tapBypass := if s.pins.tapState = 3 then false else if s.pins.tapState = 4 then tdi else s.pins.tapBypass } })
    ∧ (∀ tms tdi trst, s.pins.pwrok = false → exec (.boundaryScan tms tdi trst) s = .next s)
    ∧ exec .gpio3PulseEnd s = .next { s with pins := { s.pins with gpio3 := false } }

/-- Board management: PLDM, CPER, I3C, boundary scan and the GPIO pulse (R477 to R479, R501, R511, R517, R524, R537, R539). It rests on the model's readings of log entries 22, 96, 97, 132. -/
def Obligations.BoardManagement : Prop := Claims.PldmAnswers ∧ Claims.BoardReads ∧ Claims.ScanAndPulse

/-! ### Registers -/

/-- Plain registers of window 0 (R518): offset, how the state holds them, and their writable fields with the values each has (R15). -/
def Claims.plainRegs (f : Nat) : List (Nat × (State → Reg) × List (Nat × Nat × (Nat → Bool))) :=
  [(0x10000, fun s => (fnRegs s f).doorbell, [(63, 12, fun _ => true)]),
   (0x10008, fun s => (fnRegs s f).summary, [(63, 7, fun _ => true)]),
   (0x10018, fun s => (fnRegs s f).sweep, [(9, 0, within 1 512), (19, 10, within 1 512), (29, 20, within 1 512), (39, 30, within 1 512)])]

/-- Those of the physical function alone. -/
def Claims.pfRegs : List (Nat × (State → Reg) × List (Nat × Nat × (Nat → Bool))) :=
  [(0x10020, fun s => s.port.arbWeight, [(7, 0, within 1 255), (15, 8, within 1 255), (23, 16, within 1 255)]),
   (0x10028, fun s => s.port.arbAge, [(15, 0, within 1 65535), (31, 16, within 1 65535), (47, 32, within 1 65535)]),
   (0x80000, fun s => s.flt.ctl, [(0, 0, fun _ => true), (5, 1, fun _ => true), (15, 8, fun v => decide (1 ≤ v)), (23, 16, fun v => decide (1 ≤ v)),
      (27, 24, fun v => decide (1 ≤ v)), (39, 28, fun v => decide (1 ≤ v)), (47, 40, fun v => decide (1 ≤ v)), (63, 48, fun _ => true)]),
   (0xB0000, fun s => s.trace.ctl, [(0, 0, fun _ => true), (1, 1, fun _ => true), (15, 8, fun _ => true)])]

/-- Offsets of window 0 at which a register takes writes: a function's own registers, and those that the physical function has besides (R518). -/
def Claims.takesWrites (fn o : Nat) : Prop :=
  o ∈ [0x10000, 0x10008, 0x10018, 0x20800, 0x20808, 0x20810, 0x20818] ∨ (0x11000 ≤ o ∧ o < 0x20000 ∧ o % 64 ≤ 24) ∨ (0x20000 ≤ o ∧ o < 0x20400)
    ∨ (0x20820 ≤ o ∧ o < 0x21000 ∧ o % 64 ≤ 24) ∨ (0x40000 ≤ o ∧ o < 0x40200)
    ∨ (fn = 0 ∧ (o ∈ [0x10020, 0x10028, 0x50010, 0x50018, 0x50020, 0x60000, 0x70000, 0x70010, 0x70018, 0x80000, 0x91000, 0xA0000, 0xA0008, 0xB0000, 0xB0010]
        ∨ (0x10100 ≤ o ∧ o < 0x10300) ∨ (0x30000 ≤ o ∧ o < 0x30400 ∧ o % 64 ≤ 40) ∨ (0x50100 ≤ o ∧ o < 0x50200) ∨ (0x70100 ≤ o ∧ o < 0x70200 ∧ o % 64 = 0)
        ∨ (0x71000 ≤ o ∧ o < 0x73000 ∧ o % 32 ≤ 16) ∨ (0x90000 ≤ o ∧ o < 0x90200 ∧ o % 64 = 0) ∨ (0x92000 ≤ o ∧ o < 0x96000)))

/-- A register after a write of any width (R15, R17): each writable field takes the value it would have with the written half in place where that value is in its range, and keeps its own otherwise. -/
def Claims.fieldsTake (w : RegAccess) (fields : List (Nat × Nat × (Nat → Bool))) (old new : Reg) : Prop :=
  ∀ x ∈ fields, let v := fieldOf (merged old w) x.1 x.2.1
    fieldOf new x.1 x.2.1 = if x.2.2 v = true then v else fieldOf old x.1 x.2.1

/-- REGISTER_WRITE (R15, R17, R379, R384, R488, R518). An access that is not aligned is a fault; one that the port does not take changes nothing. A write of 64 or 32 bits sets each writable field whose value is in range and keeps the others, in every function's window for
the function's own registers, and in the physical function's alone for the rest. A read-only or unlisted offset ignores it, and so does the set-up of a ring that is not DISABLED. Scratch of the backup domain takes all 64 bits. -/
def Claims.WritesLand : Prop :=
  ∀ (s : State) (o : Nat) (w : RegAccess), w.fn < 64 → o < 2 ^ 26 →
    (o % 8 ≠ 0 → exec (.registerWrite o w) s = .fault .misalignedAccess)
    ∧ (o % 8 = 0 → hostUp s = false ∨ fnPresent s w.fn = false → exec (.registerWrite o w) s = .next s)
    ∧ (o % 8 = 0 → hostUp s = true → fnPresent s w.fn = true →
      (∀ r ∈ Claims.plainRegs w.fn, o = r.1 → ∃ t, exec (.registerWrite o w) s = .next t ∧ Claims.fieldsTake w r.2.2 (r.2.1 s) (r.2.1 t)
          ∧ (∀ g, g ≠ w.fn → fnRegs t g = fnRegs s g) ∧ t = { s with port := { s.port with fns := t.port.fns } })
      ∧ (w.fn = 0 → ∀ r ∈ Claims.pfRegs, o = r.1 → ∃ t, exec (.registerWrite o w) s = .next t ∧ Claims.fieldsTake w r.2.2 (r.2.1 s) (r.2.1 t)
          ∧ t = { s with port := { s.port with arbWeight := t.port.arbWeight, arbAge := t.port.arbAge }, flt := { s.flt with ctl := t.flt.ctl }
                         trace := { s.trace with ctl := t.trace.ctl } })
      ∧ (¬Claims.takesWrites w.fn o → exec (.registerWrite o w) s = .next s)
      ∧ (∀ n, n < 960 → o = 0x11000 + 64 * n ∨ o = 0x11008 + 64 * n ∨ o = 0x11010 + 64 * n → (ringOf s ⟨w.fn, n⟩).st ≠ .disabled ∨ ringExists s ⟨w.fn, n⟩ = false →
          exec (.registerWrite o w) s = .next s)
      ∧ (∀ n, n < 960 → (ringOf s ⟨w.fn, n⟩).st = .disabled → ringExists s ⟨w.fn, n⟩ = true → let r := ringOf s ⟨w.fn, n⟩
          (o = 0x11000 + 64 * n → ∃ r', exec (.registerWrite o w) s = .next (setRing s ⟨w.fn, n⟩ r') ∧ Claims.fieldsTake w [(63, 12, fun _ => true)] r.sqBase r'.sqBase
              ∧ { r' with sqBase := r.sqBase } = r)
          ∧ (o = 0x11008 + 64 * n → ∃ r', exec (.registerWrite o w) s = .next (setRing s ⟨w.fn, n⟩ r') ∧ Claims.fieldsTake w [(49, 6, fun _ => true)] r.cfg r'.cfg
              ∧ { r' with cfg := r.cfg } = r)
          ∧ (o = 0x11010 + 64 * n → ∃ r', exec (.registerWrite o w) s = .next (setRing s ⟨w.fn, n⟩ r') ∧ Claims.fieldsTake w [(63, 12, fun _ => true)] r.cqBase r'.cqBase
              ∧ { r' with cqBase := r.cqBase } = r))
      ∧ (∀ n, n < 32 → o = 0x50100 + 8 * n → w.fn = 0 → s.cal.powered = true → s.srv.convs = [] →
          exec (.registerWrite o w) s = .next { s with cal := { s.cal with scratch := sset s.cal.scratch n (merged (sgetD s.cal.scratch n 0) w) } }))

/-- SRIOV_VF_ENABLE (R379, R383): VF Enable is set or cleared with NumVFs, which a set VF Enable holds. When it clears, every virtual function is reset as by a function-level reset: its requests end without a completion and its ring pairs
are at their reset values (stated where the event queue has room for the SENDER_RESET edges of their 63 channels). A port that is not trained takes nothing. -/
def Claims.VfEnable : Prop :=
  ∀ (s : State) (n : Nat), n < 64 →
    (s.port.trained = true → s.clk.stopped = false →
      (s.port.vfEnable = false → ∀ on, exec (.sriovVfEnable on n) s = .next { s with port := { s.port with vfEnable := on, numVfs := n } })
      ∧ (s.port.vfEnable = true → exec (.sriovVfEnable true n) s = .next s)
      ∧ (s.port.vfEnable = true → s.boot.evq.length + 63 ≤ 4096 → ∃ t, exec (.sriovVfEnable false n) s = .next t ∧ t.port.vfEnable = false ∧ t.port.numVfs = n
          ∧ (∀ f, 1 ≤ f → f < 64 → ∀ x ∈ t.srv.slots, x.2.fn = f → x.2.silent = true) ∧ (∀ f k, 1 ≤ f → f < 64 → k < 1024 → ringOf t ⟨f, k⟩ = {})
          ∧ (∀ k, k < 1024 → ringOf t ⟨0, k⟩ = ringOf s ⟨0, k⟩) ∧ fnRegs t 0 = fnRegs s 0 ∧ channelOf t 0 = channelOf s 0))
    ∧ (s.port.trained = false ∨ s.clk.stopped = true → ∀ on, exec (.sriovVfEnable on n) s = .next s)

/-- Register writes of window 0, and VF Enable (R15, R17, R379, R383, R384, R488, R518). It rests on the model's readings of log entries 51, 60, 98. -/
def Obligations.RegisterWrites : Prop := Claims.WritesLand ∧ Claims.VfEnable
end

