-- ==== Sys2Proof/Laws/PerInstr.lean ====
section
/-!
SUPPORT. No family of statements is made over all commands as syntax; the statements over all commands are about exec.
-/
end

