-- ==== Sys2Proof/Laws/Tier.lean ====
section
/-!
SUPPORT. What the operations over memory regions (Machine/Tier.lean) can do: each leaves everything but the memories as it was, and keeps the
canonical form of host memory, far content and every tile of every near copy.
-/

namespace Sys2Proof.Machine

open Sys2Proof

/-- Host memory, far content and every tile of every near copy are in canonical form. -/
def tiersWf (s : State) : Prop :=
  Memory.wf s.mem.host = true ∧ Memory.wf s.mem.far = true ∧ ∀ n, ∀ x ∈ (regionOf s n).near, Memory.wf x.2.data = true

/-- t is s with other memories, which are in canonical form where those of s are. -/
structure MemOnly (s t : State) : Prop where
  rest : t = { s with mem := t.mem }
  wf : tiersWf s → tiersWf t

theorem reset_tiersWf : tiersWf State.reset := ⟨rfl, rfl, fun _ _ hx => absurd hx List.not_mem_nil⟩

theorem MemOnly.refl (s : State) : MemOnly s s := ⟨rfl, id⟩

theorem MemOnly.trans {s t u : State} (a : MemOnly s t) (b : MemOnly t u) : MemOnly s u :=
  ⟨by rw [b.rest, a.rest], b.wf ∘ a.wf⟩

theorem MemOnly.foldl {α : Type} (l : List α) (f : State → α → State) (s : State) (h : ∀ t x, MemOnly t (f t x)) : MemOnly s (l.foldl f s) := by
  induction l generalizing s with
  | nil => exact MemOnly.refl s
  | cons x xs ih => exact (h s x).trans (ih _)

/-- A fold that carries a position beside the state. -/
theorem MemOnly.foldlPos {α : Type} (l : List α) (f : State × Nat → α → State × Nat) (x0 : State × Nat) (h : ∀ t x, MemOnly t.1 (f t x).1) :
    MemOnly x0.1 (l.foldl f x0).1 := by
  induction l generalizing x0 with
  | nil => exact MemOnly.refl _
  | cons x xs ih => exact (h x0 x).trans (ih _)

theorem mem_of_slookup {α : Type} (m : Sparse α) (a : Nat) (v : α) (h : slookup m a = some v) : (a, v) ∈ m := by
  induction m with
  | nil => cases h
  | cons x m ih =>
    obtain ⟨k, w⟩ := x
    unfold slookup at h
    split at h
    · next hk => cases h; exact hk ▸ List.mem_cons_self
    · split at h
      · cases h
      · exact List.mem_cons_of_mem _ (ih h)

/-- A region whose tiles are in canonical form takes the place of another. -/
theorem setRegion_memOnly (s : State) (n : Nat) (r : Region) (h : tiersWf s → ∀ x ∈ r.near, Memory.wf x.2.data = true) : MemOnly s (setRegion s n r) :=
  ⟨rfl, fun w => ⟨w.1, w.2.1, fun m x hx => by
    by_cases e : m = n
    · subst e; rw [regionOf, setRegion, sgetD_sset_self] at hx; exact h w x hx
    · rw [regionOf, setRegion, sgetD_sset_other _ _ _ _ _ e] at hx; exact w.2.2 m x hx⟩⟩

/-- Tile t of a region takes another content in canonical form. -/
theorem setTile_memOnly (s : State) (n t : Nat) (x : Tile) (h : tiersWf s → Memory.wf x.data = true) :
    MemOnly s (setRegion s n { regionOf s n with near := sset (regionOf s n).near t x }) :=
  setRegion_memOnly s n _ (fun w y hy => by
    rcases mem_sset _ _ _ _ hy with e | m
    · rw [e]; exact h w
    · exact w.2.2 n y m)

theorem tile_wf (s : State) (n t : Nat) (w : tiersWf s) : Memory.wf (sgetD (regionOf s n).near t {}).data = true := by
  unfold sgetD
  cases h : slookup (regionOf s n).near t with
  | none => rfl
  | some x => exact w.2.2 n _ (mem_of_slookup _ _ _ h)

theorem lowerRead_wf (s : State) (r : Region) (o n : Nat) (w : tiersWf s) : Memory.wf (lowerRead s r o n).1 = true := by
  unfold lowerRead
  split
  · exact memSlice_wf _ _ _ w.2.1
  · exact memSlice_wf _ _ _ w.1
  · rfl

theorem lowerWrite_regions (s : State) (r : Region) (o n : Nat) (piece : Mem) (poison : List Nat) :
    (lowerWrite s r o n piece poison).mem.regions = s.mem.regions := by
  unfold lowerWrite; split <;> rfl

theorem lowerWrite_memOnly (s : State) (r : Region) (o n : Nat) (piece : Mem) (poison : List Nat) (h : tiersWf s → Memory.wf piece = true) :
    MemOnly s (lowerWrite s r o n piece poison) := by
  refine ⟨by unfold lowerWrite; split <;> rfl, fun w => ?_⟩
  have k := lowerWrite_wf s r o n piece poison w.1 w.2.1 (h w)
  exact ⟨k.1, k.2, fun m x hx => w.2.2 m x (by rwa [regionOf, lowerWrite_regions] at hx)⟩

theorem writeBackOne_memOnly (s : State) (n t : Nat) : MemOnly s (writeBackOne s n t) := by
  unfold writeBackOne
  simp only []
  split
  · next x hx =>
    have wx : tiersWf s → Memory.wf x.data = true := fun w => w.2.2 n _ (mem_of_slookup _ _ _ hx)
    split
    · have a := lowerWrite_memOnly s (regionOf s n) (t * (regionOf s n).tileBytes) (regionOf s n).tileBytes x.data x.poison wx
      refine ⟨by rw [setRegion, a.rest], fun w => (setRegion_memOnly _ n _ (fun _ y hy => ?_)).wf (a.wf w)⟩
      rcases mem_sset _ _ _ _ hy with e | m
      · rw [e]; exact wx w
      · exact w.2.2 n y m
    · exact MemOnly.refl s
  · exact MemOnly.refl s

theorem writeBackTile_memOnly (s : State) (n t : Nat) : MemOnly s (writeBackTile s n t) := by
  unfold writeBackTile
  split
  · exact (writeBackOne_memOnly s n _).trans (writeBackOne_memOnly _ n _)
  · exact writeBackOne_memOnly s n t

theorem evictTile_memOnly (s : State) (n t : Nat) : MemOnly s (evictTile s n t) :=
  (writeBackTile_memOnly s n t).trans (setRegion_memOnly _ n _ (fun w x hx => w.2.2 n x (mem_serase _ _ _ hx)))

theorem useClock_memOnly (s : State) (k : Nat) : MemOnly s { s with mem := { s.mem with useClock := k } } := ⟨rfl, id⟩

theorem fillTile_memOnly (s : State) (n t : Nat) : MemOnly s (fillTile s n t) := by
  unfold fillTile
  simp only []
  have c := useClock_memOnly s (s.mem.useClock + 1)
  split
  · next x hx =>
    refine c.trans (setRegion_memOnly _ n _ (fun w y hy => ?_))
    rcases mem_sset _ _ _ _ hy with e | m
    · rw [e]; exact w.2.2 n (t, x) (mem_of_slookup _ _ _ hx)
    · exact w.2.2 n y m
  · refine MemOnly.trans ?_ (setTile_memOnly _ n t _ (fun w => lowerRead_wf _ _ _ _ w))
    split
    · exact c.trans (evictTile_memOnly _ n _)
    · exact c

theorem tileWrite_wf (x : Tile) (o : Nat) (bs : List Byte) (pois : List Nat) (dirty : Bool) (h : Memory.wf x.data = true) :
    Memory.wf (tileWrite x o bs pois dirty).data = true := writeBytes_wf _ _ _ h

theorem storeTiles_memOnly (dirty : Bool) (s : State) (n o : Nat) (bs : List Byte) (pois : List Nat) : MemOnly s (storeTiles dirty s n o bs pois) :=
  MemOnly.foldlPos _ _ (s, 0) (fun t p => (fillTile_memOnly t.1 n p.1).trans
    (setTile_memOnly _ n p.1 _ (fun w => tileWrite_wf _ _ _ _ _ (tile_wf _ n p.1 w))))

theorem lowerStore_memOnly (s : State) (n o : Nat) (bs : List Byte) (pois : List Nat) : MemOnly s (lowerStore s n o bs pois) := by
  refine MemOnly.foldlPos _ _ (s, 0) (fun t p => ?_)
  simp only []
  have a := lowerWrite_memOnly t.1 (regionOf s n) (p.1 * (regionOf s n).tileBytes) (regionOf s n).tileBytes
    (tileWrite { data := (lowerRead t.1 (regionOf s n) (p.1 * (regionOf s n).tileBytes) (regionOf s n).tileBytes).1
                 poison := (lowerRead t.1 (regionOf s n) (p.1 * (regionOf s n).tileBytes) (regionOf s n).tileBytes).2 } p.2.1 ((bs.drop t.2).take p.2.2)
      ((pois.filter (fun w => decide (o + t.2 ≤ 32 * w + 31) && decide (32 * w < o + t.2 + p.2.2))).map
        (fun w => w - p.1 * (regionOf s n).tileBytes / 32)) false).data
    (tileWrite { data := (lowerRead t.1 (regionOf s n) (p.1 * (regionOf s n).tileBytes) (regionOf s n).tileBytes).1
                 poison := (lowerRead t.1 (regionOf s n) (p.1 * (regionOf s n).tileBytes) (regionOf s n).tileBytes).2 } p.2.1 ((bs.drop t.2).take p.2.2)
      ((pois.filter (fun w => decide (o + t.2 ≤ 32 * w + 31) && decide (32 * w < o + t.2 + p.2.2))).map
        (fun w => w - p.1 * (regionOf s n).tileBytes / 32)) false).poison
    (fun w => tileWrite_wf _ _ _ _ _ (lowerRead_wf _ _ _ _ w))
  split
  · next y hy => exact a.trans (setTile_memOnly _ n p.1 _ (fun w => tileWrite_wf _ _ _ _ _ (w.2.2 n _ (mem_of_slookup _ _ _ hy))))
  · exact a

theorem publishUnit_memOnly (u : WbUnit) (s : State) : MemOnly s (publishUnit u s) := ⟨rfl, id⟩

theorem publishBytes_memOnly (n o : Nat) (bs : List Byte) (s : State) : MemOnly s (publishBytes n o bs s) :=
  MemOnly.foldlPos _ _ (s, 0) (fun _ _ => publishUnit_memOnly _ _)

theorem drainUnit_memOnly (u : WbUnit) (s : State) : MemOnly s (drainUnit u s) := by
  unfold drainUnit
  simp only []
  split
  · refine MemOnly.foldl _ _ s (fun t p => ?_)
    split
    · exact storeTiles_memOnly true t _ _ _ _
    · exact lowerStore_memOnly t _ _ _ _
  · exact MemOnly.refl s

theorem drainAll_memOnly (s : State) : MemOnly s (drainAll s) :=
  MemOnly.trans (t := { s with mem := { s.mem with wb := [] } }) ⟨rfl, id⟩ (MemOnly.foldl _ _ _ (fun t u => drainUnit_memOnly u t))

theorem readSpans_memOnly (n tb : Nat) (ps : List (Nat × Nat × Nat)) (s : State) : MemOnly s (readSpans n tb ps s).2 := by
  induction ps generalizing s with
  | nil => exact MemOnly.refl s
  | cons p ps ih => exact (fillTile_memOnly s n p.1).trans (ih _)

/-- A read of a region moves tiles and changes nothing besides. -/
theorem regionRead_memOnly (s : State) (n o len : Nat) : MemOnly s (regionRead s n o len).2 := by
  unfold regionRead
  split
  · exact MemOnly.refl s
  · exact readSpans_memOnly _ _ _ s

theorem prefetchTile_memOnly (n t : Nat) (s : State) : MemOnly s (prefetchTile n t s) := by
  unfold prefetchTile
  simp only []
  split
  · exact MemOnly.refl s
  · split
    · exact fillTile_memOnly s n t
    · exact (fillTile_memOnly s n t).trans (setRegion_memOnly _ n _ (fun w x hx => w.2.2 n x (mem_serase _ _ _ hx)))

end Sys2Proof.Machine
end

