-- ==== Sys2Proof/Tests/Slice0.lean ====
section
/-!
SUPPORT. Tests of the model: well-formedness, witnesses of every hypothesis of the obligations, and worked examples of the manual.
-/

set_option Elab.async false

open Sys2Proof Sys2Proof.Machine

namespace Sys2Proof.Tests

/-! ### Small states and operands -/

/-- The fields of a lane word with everything 0: FP32, no predicate, registers 0. -/
def lf : LaneFields := ⟨0, 0, 0, 0, 0, false, 0, 0, 0⟩

/-- The same with TYPE INT32. -/
def lfInt : LaneFields := { lf with ty := 1 }

/-- A package that has started: power, clocks, host port, firmware. -/
def up : State :=
  { State.reset with
    pins := { State.reset.pins with pwrok := true, perstN := true }
    boot := { State.reset.boot with stage := 0x0F, ready := true }
    port := { State.reset.port with trained := true } }

/-- A 64-bit write by the physical function. -/
def wr (x : Nat) : RegAccess := ⟨0, .full, BitVec.ofNat 64 x⟩

/-- An entry from its bytes, the first lowest. -/
def entry (bs : List Nat) : Entry := BitVec.ofNat 512 ((bs.zipIdx).foldl (fun n p => n + p.1 * 2 ^ (8 * p.2)) 0)

/-- Ring pair 0 of the physical function, ACTIVE, with one entry published. -/
def ringUp : State := setRing up ⟨0, 0⟩ { ringOf up ⟨0, 0⟩ with st := .active, producer := 1 }

def ring0 : RingRef := ⟨0, 0⟩

/-- A stream instruction of one INT8 row by an INT8 tile. -/
def passI : PassOp := ⟨0, 0, .tileStore, 0x8000, 0, 1, 7, 7, none, false, false, []⟩

/-- A frame to package 0 of kind k. -/
def frame (k : Nat) : Frame :=
  { version := 1, kind := k, hops := 4, src := 1, dst := 0, shell := 0, seq := 0, payload := [], control := .heartbeat 1, srcAddr := 0, fecOk := true }

/-- The state a command leads to; none where it stops. -/
def run (c : Instr) (s : State) : Option State :=
  match exec c s with
  | .next t => some t
  | _ => none

/-- The refusal a command meets, if it does. -/
def refusal (c : Instr) (s : State) : Option Refusal :=
  match exec c s with
  | .refused r => some r
  | _ => none

/-- The fault a command meets, if it does. -/
def faultOf (c : Instr) (s : State) : Option Fault :=
  match exec c s with
  | .fault r => some r
  | _ => none

/-! ### Well-formedness: a term for each check, refused -/

/-- An entry of another opcode, a ring out of range, and selectors that belong to another row. -/
theorem test_wf_entries :
    Instr.wf .dv8 (.loadModel ring0 (entry [0x03])) = false ∧ Instr.wf .dv8 (.loadModel ⟨64, 0⟩ (entry [0x02])) = false
      ∧ Instr.wf .dv8 (.loadModel ⟨0, 1024⟩ (entry [0x02])) = false ∧ Instr.wf .dv8 (.loadModel ring0 (entry [0x02])) = true
      ∧ Instr.wf .dv8 (.enterPowerStateStandby ring0 (entry [9, 0, 0, 0, 0, 0, 0, 0, 2])) = false
      ∧ Instr.wf .dv8 (.enterPowerStateActive ring0 (entry [9, 0, 0, 0, 0, 0, 0, 0, 2])) = false
      ∧ Instr.wf .dv8 (.getLogErrorPage ring0 (entry [10, 0, 0, 0, 0, 0, 0, 0, 2])) = false
      ∧ Instr.wf .dv8 (.setFeatureServing ring0 (entry [11, 0, 0, 0, 0, 0, 0, 0, 0x10])) = false
      ∧ Instr.wf .dv8 (.setFeatureArbitration ring0 (entry [11, 0, 0, 0, 0, 0, 0, 0, 0x21])) = false
      ∧ Instr.wf .dv8 (.setFeatureGet ring0 (entry [11, 0, 0, 0, 0, 0, 0, 0, 0x10, 0])) = false
      ∧ Instr.wf .dv8 (.pauseConversation ring0 (entry ([0x25] ++ List.replicate 15 0 ++ [1]))) = false
      ∧ Instr.wf .dv8 (.release ring0 (entry [0x25])) = false ∧ Instr.wf .dv8 (.query ring0 (entry [0x02])) = false := by decide +kernel

/-- Functions, rings, cores, crews, regions, channels and ports out of range. -/
theorem test_wf_numbers :
    Instr.wf .dv8 (.sweep 64) = false ∧ Instr.wf .dv8 (.ringEnable ⟨0, 1024⟩) = false ∧ Instr.wf .dv8 (.ringAllocWrite 64 (wr 0)) = false
      ∧ Instr.wf .dv8 (.functionLevelReset 64) = false ∧ Instr.wf .dv8 (.syncTimeout 64 0) = false ∧ Instr.wf .dv8 (.syncTimeout 0 1024) = false
      ∧ Instr.wf .dv2 (.tileOffered 144) = false ∧ Instr.wf .dv2 (.tileOffered 143) = true ∧ Instr.wf .dv8 (.matmul ⟨0, 0, 576, 0⟩) = false
      ∧ Instr.wf .dv8 (.regionEnable 0 256) = false ∧ Instr.wf .dv8 (.regionFlush 64 0) = false ∧ Instr.wf .dv8 (.regionConfigWrite 256 .base (wr 0)) = false
      ∧ Instr.wf .dv2 (.fmpRetrain 2 (wr 2)) = false ∧ Instr.wf .dv8 (.fmpRetrain 0 (wr 1)) = false ∧ Instr.wf .dv8 (.fmpReadTimeout 0 0 50000) = false
      ∧ Instr.wf .dv8 (.patrolScrub ⟨0, 16, .clean⟩) = false ∧ Instr.wf .dv8 (.patrolScrub ⟨256, 0, .clean⟩) = false
      ∧ Instr.wf .dv8 (.ceRate (.core 576) 9) = false ∧ Instr.wf .dv8 (.ceRate (.crew 64) 9) = false
      ∧ Instr.wf .dv8 (.dmaStart 16 (wr 1)) = false ∧ Instr.wf .dv8 (.dmaStart 0 (wr 2)) = false ∧ Instr.wf .dv8 (.dmaPause 0 (wr 1)) = false
      ∧ Instr.wf .dv8 (.dmaUnitMoved 16) = false ∧ Instr.wf .dv8 (.mailboxResponse 64) = false ∧ Instr.wf .dv8 (.mbH2dPost ⟨0, .high, 0⟩) = false
      ∧ Instr.wf .dv8 (.calCommit (wr 4)) = false ∧ Instr.wf .dv8 (.boathouseExpiry 64 1) = false := by decide +kernel

/-- Events whose operands lie outside what the manual lets them report. -/
theorem test_wf_events :
    Instr.wf .dv8 (.cdcTimeout (42 * 256) false) = false ∧ Instr.wf .dv8 (.cdcTimeout 42 false) = false ∧ Instr.wf .dv8 (.clocksDone (2 ^ 16) 0) = false
      ∧ Instr.wf .dv8 (.clocksDone 0 4) = false ∧ Instr.wf .dv8 (.authDone 4) = false ∧ Instr.wf .dv2 (.nearTrainDone 16) = false
      ∧ Instr.wf .dv2 (.arrayTestDone [144] []) = false ∧ Instr.wf .dv2 (.arrayTestDone [] [16]) = false
      ∧ Instr.wf .dv8 (.thermtrip 64 114) = false ∧ Instr.wf .dv8 (.thermtrip 63 115) = false ∧ Instr.wf .dv8 (.thermtrip 68 115) = false
      ∧ Instr.wf .dv8 (.thermtrip 67 115) = true ∧ Instr.wf .dv8 (.sensorSample ⟨[], [], [], []⟩) = false
      ∧ Instr.wf .dv8 (.sensorSample ⟨List.replicate 9 128, List.replicate 9 0, List.replicate 9 0, List.replicate 9 0⟩) = false
      ∧ Instr.wf .dv8 (.join (wr 0)) = false ∧ Instr.wf .dv8 (.leave (wr 0)) = false ∧ Instr.wf .dv8 (.nlEnable 8 (wr 1)) = false
      ∧ Instr.wf .dv8 (.nlPortTrained 0 ⟨5, none⟩) = false ∧ Instr.wf .dv2 (.nlPortTrained 4 ⟨8, none⟩) = false
      ∧ Instr.wf .dv8 (.timeExchange (2 ^ 31)) = false ∧ Instr.wf .dv8 (.memberLost 2048) = false ∧ Instr.wf .dv8 (.watchdog 4) = false
      ∧ Instr.wf .dv8 (.pldmBootcfgUpdate 2 0) = false ∧ Instr.wf .dv8 (.pldmBootcfgUpdate 0 3) = false ∧ Instr.wf .dv8 (.pldmSensorRead (.temp 9 0)) = false
      ∧ Instr.wf .dv8 (.pldmSensorRead (.temp 0 5)) = false ∧ Instr.wf .dv8 (.setdasa 128 0) = false ∧ Instr.wf .dv8 (.registerWrite (2 ^ 26) (wr 0)) = false
      ∧ Instr.wf .dv8 (.registerWrite 0 ⟨64, .full, 0⟩) = false ∧ Instr.wf .dv8 (.sriovVfEnable true 64) = false
      ∧ Instr.wf .dv8 (.repeatCheckComplete ⟨0, 0, [1, 1]⟩) = false := by decide +kernel

/-- Frames: each field at the first value its width does not hold, another kind, and a control frame that is no restart. -/
theorem test_wf_frames :
    Instr.wf .dv8 (.dataFrame 8 (frame 0)) = false ∧ Instr.wf .dv8 (.dataFrame 0 { frame 0 with version := 16 }) = false
      ∧ Instr.wf .dv8 (.dataFrame 0 { frame 0 with hops := 16 }) = false ∧ Instr.wf .dv8 (.dataFrame 0 { frame 0 with src := 2048 }) = false
      ∧ Instr.wf .dv8 (.dataFrame 0 { frame 0 with dst := 2048 }) = false ∧ Instr.wf .dv8 (.dataFrame 0 { frame 0 with shell := 2 ^ 32 }) = false
      ∧ Instr.wf .dv8 (.dataFrame 0 { frame 0 with seq := 2 ^ 32 }) = false
      ∧ Instr.wf .dv8 (.dataFrame 0 { frame 0 with payload := List.replicate 4097 0 }) = false ∧ Instr.wf .dv8 (.dataFrame 0 (frame 1)) = false
      ∧ Instr.wf .dv8 (.frameForward 0 (frame 4)) = false ∧ Instr.wf .dv8 (.restartFrame 0 (frame 2)) = false ∧ Instr.wf .dv8 (.dataFrame 0 (frame 0)) = true := by
  decide +kernel

/-- Fault reports: kind, unit, code and die out of range. -/
theorem test_wf_reports :
    let f : FaultReport := { unitKind := 3, unit := 0, code := 0x22, committed := true, detail0 := 0, detail1 := 0, dieReset := none }
    Instr.wf .dv8 (.shellRestart f) = true ∧ Instr.wf .dv8 (.shellRestart { f with unitKind := 9 }) = false
      ∧ Instr.wf .dv8 (.shellRestart { f with unit := 2 ^ 16 }) = false ∧ Instr.wf .dv8 (.shellRestart { f with code := 0x10 }) = false
      ∧ Instr.wf .dv2 (.shellRestart { f with dieReset := some 2 }) = false := by decide +kernel

/-- Stream instructions: M of 0, M beyond 16,777,216, and a pair of formats that R118 does not list. -/
theorem test_wf_passes :
    Instr.wf .dv8 (.pass 0 passI) = true ∧ Instr.wf .dv8 (.pass 0 { passI with m := 0 }) = false ∧ Instr.wf .dv8 (.pass 0 { passI with m := 16777217 }) = false
      ∧ Instr.wf .dv8 (.pass 0 { passI with statFormat := 0 }) = false ∧ Instr.wf .dv8 (.pass 576 passI) = false := by decide +kernel

/-- Lane words: reserved PRED, BSRC, TYPE and WHEN, a TYPE the opcode does not have, and fields that R150 gives as 0. -/
theorem test_wf_lanes :
    Instr.wf .dv8 (.add 0 lf) = true ∧ Instr.wf .dv8 (.add 576 lf) = false ∧ Instr.wf .dv8 (.add 0 { lf with pred := 5 }) = false
      ∧ Instr.wf .dv8 (.add 0 { lf with bsrc := 3 }) = false ∧ Instr.wf .dv8 (.add 0 { lf with ty := 2 }) = false
      ∧ Instr.wf .dv8 (.add 0 { lf with imm := 0xD0000000 }) = false ∧ Instr.wf .dv8 (.div 0 lfInt) = false ∧ Instr.wf .dv8 (.shl 0 lf) = false
      ∧ Instr.wf .dv8 (.cmpeq 0 { lf with vd := 4 }) = false ∧ Instr.wf .dv8 (.sel 0 { lf with vc := 5 }) = true
      ∧ Instr.wf .dv8 (.sget 0 { lf with imm := 256 }) = false := by decide +kernel

/-- The meanings refuse such terms by name. -/
theorem test_refusals :
    refusal (.sweep 64) up = some .illFormed ∧ refusal (.add 0 { lf with pred := 5 }) up = some .illFormed
      ∧ refusal (.loadModel ring0 (entry [0x03])) up = some .illFormed ∧ refusal (.pass 0 { passI with m := 0 }) up = some .illFormed
      ∧ refusal (.st 0 lf) up = some .portUnbound ∧ faultOf (.registerWrite 0x10001 (wr 0)) up = some .misalignedAccess
      ∧ faultOf (.pass 0 { passI with rowAddr := 0x200000 }) up = some .addressOutside := by decide +kernel


/-! ### Witnesses: concrete states and operands that meet a statement's hypotheses -/

theorem witness_StepRunsFront : ({ up with pending := [.ready] } : State).pending = Instr.ready :: [] := rfl

theorem witness_IdleStep :
    up.pending = [] ∧ clocksRun up = true ∧ up.gov.st ≠ .retain ∧ up.clk.ratePpm = 0 ∧ up.clk.rateFrac = 0 ∧ up.clk.halfDebt = 0
      ∧ clocksRun State.reset = false := by decide +kernel

theorem witness_CalendarStaysLegal :
    CalLegal up.cal ∧ (match step { up with pending := [.calendarTick] } with | .next _ => true | _ => false) = true := by
  unfold CalLegal HoldingLegal
  decide +kernel

theorem witness_MachineKeeps :
    Claims.touchesCal .ready = false ∧ (run .ready up).isSome = true ∧ (run .warmRstN up).isSome = true ∧ (run .pwrokFall up).isSome = true
      ∧ (match step { up with pending := [.ready] } with | .next _ => true | _ => false) = true := by decide +kernel

theorem witness_FaultsOnly :
    faultOf (.pass 0 { passI with rowAddr := 0x200000 }) up = some .addressOutside ∧ faultOf (.registerWrite 4 (wr 0)) up = some .misalignedAccess := by decide +kernel

/-- Every opcode of two sources, and every opcode of one, may run on core 0 with one TYPE or the other; the last element has its sources. -/
theorem witness_LaneElementwise :
    (∀ r ∈ Claims.binaryRows lf, laneOk r.2.1 lf = true ∨ laneOk r.2.1 lfInt = true) ∧ (∀ r ∈ Claims.unaryRows lf, laneOk r.2.1 lf = true ∨ laneOk r.2.1 lfInt = true)
      ∧ isCore up 575 = true ∧ whenHolds (coreOf up 575) (laneWhen lf) = true ∧ whenHolds (coreOf up 575) (laneWhen lfInt) = true
      ∧ (vecReg (coreOf up 575) 15)[255]? = some 0 ∧ (sourceB (coreOf up 575) lf)[255]? = some 0 ∧ (enabled (coreOf up 575) lf)[255]? = some true := by decide +kernel

theorem witness_LaneFmaAndMoves :
    (∀ op ∈ [LaneOp.fma, .sel, .mov, .bcast], laneOk op lf = true) ∧ laneOk .iota lfInt = true ∧ isCore up 0 = true
      ∧ whenHolds (coreOf up 0) (laneWhen lf) = true ∧ (vecReg (coreOf up 0) 0)[0]? = some 0 ∧ (sourceB (coreOf up 0) lf)[0]? = some 0
      ∧ (predReg (coreOf up 0) 3)[255]? = some true ∧ laneArg { lf with imm := 255 } = 255 ∧ laneOk .bcast { lf with imm := 255 } = true
      ∧ (vecReg (coreOf up 0) 0)[255]? = some 0 := by decide +kernel

theorem witness_LaneCompares :
    (∀ r ∈ Claims.compareRows lf, laneOk r.2.1 { lf with vd := 3 } = true) ∧ isCore up 0 = true ∧ whenHolds (coreOf up 0) (laneWhen { lf with vd := 3 }) = true
      ∧ (predReg (coreOf up 0) 3)[255]? = some true ∧ (enabled (coreOf up 0) { lf with vd := 3 })[255]? = some true := by decide +kernel

theorem witness_LaneReductions :
    (∀ r ∈ Claims.reduceRows lf, laneOk r.2.1 { lf with imm := 1 } = true ∧ laneOk r.2.1 lf = true) ∧ isCore up 0 = true ∧ whenHolds (coreOf up 0) (laneWhen lf) = true
      ∧ (vecReg (coreOf up 0) 0).length = 256 ∧ (enabled (coreOf up 0) lf).length = 256 ∧ (vecReg (coreOf up 0) 0)[255]? = some 0 := by decide +kernel

/-- A model of one list of one record with the operation op, which waits for nothing. -/
def oneRecord (op : Nat) : Model :=
  { oid := 1, handle := 1, recs := [BitVec.ofNat 256 (1 + 2 * 2 ^ 64), BitVec.ofNat 256 op], descs := [{ cls := 2, fmt := 9, rank := 1, placement := 0, scale := 0xFFFF, tiled := false, dataOff := 0, ext := [64, 1, 1, 1, 1, 1], stride := [1, 64, 64, 64, 64, 64] }] }

/-- A request in slot 0 with one run of that list, RUNNING. -/
def oneRun (op : Nat) : State :=
  { up with
    obj := { up.obj with models := [oneRecord op] }
    srv := { up.srv with
      slots := [(0, { fn := 0, ring := 1, tag := 7, opcode := 0x38, prio := 2, entry := 0, fetchSeq := 0, tFetch := 0, st := .running
                      work := .pipe { stages := [7], unit := some { stage := 5, model := 1, runs := [{}] } } })]
      admitted := [0], strokeSince := some 0 } }

/-- The record of that run, on core 0. -/
def theRecord : RecRef := ⟨0, 0, 0, 1⟩

/-- The same with a launch on core 0 that binds every port to the tensor of the model. -/
def launched : State :=
  let s := oneRun 0x20
  setCore s 0 { coreOf s 0 with launch := some { slot := 0, run := 0, model := 1, recIdx := 1, e0 := 64, ext := [1], idx := [0], prog := [BitVec.ofNat 64 (0x51 * 2 ^ 56)], pc := 0
                                                 ports := [0, 0, 0, 0, 0, 0], selPort := 0xFFFF, isQ := false, params := [], base := 0, bound := 0, left := 0 } }

theorem witness_LaneScalarAndSync :
    (∀ op ∈ [LaneOp.nop, .wait, .sget, .signal], laneOk op lf = true) ∧ laneOk .sget { lf with imm := 255 } = true ∧ isCore launched 0 = true
      ∧ whenHolds (coreOf launched 0) (laneWhen lf) = true ∧ (vecReg (coreOf up 0) 0)[255]? = some 0 ∧ (coreOf up 0).launch = none
      ∧ ((coreOf launched 0).launch.bind (fun l => (slotOf launched l.slot).bind (fun q => unitRun q l.run))).isSome = true := by decide +kernel

/-- A core whose hand-off queue has one tile, of 40-bit integers. -/
def tiled (pops : Nat) : State :=
  setCore up 0 { coreOf up 0 with queue := [(0, ⟨.ready, pops, some ⟨true, List.replicate 64 (List.replicate 64 0), 64, [], [], none⟩⟩)] }

theorem witness_LaneLoadAndPop :
    laneOk .ld lf = true ∧ isCore launched 0 = true ∧ whenHolds (coreOf launched 0) (laneWhen lf) = true ∧ portDesc (coreOf launched 0) (laneArg lf % 4) = some 0
      ∧ (portIndex (coreOf launched 0) (descOf (loadEng launched 0).model 0) 63).isSome = true ∧ portIndex (coreOf launched 0) (descOf (loadEng launched 0).model 0) 64 = none
      ∧ laneOk .popq lfInt = true ∧ ((oldestTile (coreOf (tiled 0) 0)).map (fun t => t.1.isInt)) = some true ∧ (oldestTile (coreOf (tiled 15) 0)).isSome = true
      ∧ (coreOf (tiled 15) 0).launch = none ∧ (sgetD (coreOf (tiled 15) 0).queue 0 {}).pops + 1 = 16 ∧ oldestTile (coreOf up 0) = none := by decide +kernel

theorem witness_LaneStoreAndPush :
    laneOk .st { lf with imm := 1 } = true ∧ isCore launched 0 = true ∧ whenHolds (coreOf launched 0) (laneWhen { lf with imm := 1 }) = true
      ∧ portDesc (coreOf launched 0) (4 + laneArg { lf with imm := 1 } % 2) = some 0 ∧ isMx (descOf (loadEng launched 0).model 0).fmt = false
      ∧ ((coreOf launched 0).launch.bind (fun l => (slotOf launched l.slot).bind (fun q => unitRun q l.run))).isSome = true
      ∧ laneOk .selpush lf = true ∧ (coreOf up 0).sel.mode = 0 ∧ (coreOf (setCore up 0 { coreOf up 0 with sel := { mode := 2 } }) 0).sel.mode ≠ 0 := by decide +kernel

/-- FIRST(0) holds in an iteration with i0 = 0 only; outside it an ADD is suppressed, and it runs. -/
theorem witness_LaneFrame :
    let l := { lf with imm := 0x10000000 }
    let s := setCore launched 0 { coreOf launched 0 with launch := (coreOf launched 0).launch.map (fun l => { l with idx := [1], ext := [2] }) }
    runs s (.add 0 l) = true ∧ whenHolds (coreOf s 0) (laneWhen l) = false ∧ (run (.add 0 lf) up).isSome = true := by decide +kernel

theorem witness_ArrayPassRuns :
    isCore up 575 = true ∧ passRuns up 575 passI = true ∧ pairSupported passI.rowFormat passI.statFormat = true ∧ passRuns up 0 { passI with m := 65 } = true
      ∧ pairIsInt passI.rowFormat = true := by decide +kernel

theorem witness_ArrayTilesAndGaps :
    let t : OutTile := ⟨true, [], 1, [], [], none⟩
    let s := setCore up 0 { coreOf up 0 with outTiles := [t], fillAt := 15 }
    let full := setCore up 0 { coreOf up 0 with outTiles := [t], queue := [(0, ⟨.held, 3, some t⟩)] }
    let d := { (setCore up 0 { coreOf up 0 with products := 64, gated := 64 }) with boot := { up.boot with dummy := true } }
    isCore s 0 = true ∧ (coreOf s 0).outTiles = t :: [] ∧ (sgetD (coreOf s 0).queue 15 {}).st = .free ∧ (sgetD (coreOf full 0).queue 0 {}).st ≠ .free
      ∧ (sgetD (coreOf full 0).queue 0 {}).st ≠ .filling ∧ (coreOf up 0).outTiles = [] ∧ d.boot.dummy = true ∧ isActiveCore d 0 = true ∧ (coreOf d 0).products ≠ 0
      ∧ (coreOf d 0).gated ≤ (coreOf d 0).products ∧ (coreOf (setCore up 0 { coreOf up 0 with inGap := true }) 0).inGap = true := by decide +kernel

theorem witness_IntegerAccumulation : pairIsInt passI.rowFormat = true ∧ passRuns up 0 passI = true ∧ 1 ≤ passI.m ∧ passI.m ≤ 16777216 := by decide +kernel

/-- A record of each operation that may start, and one that may not since it has run. -/
theorem witness_RecordsRun :
    (∀ r ∈ Claims.runRows, (recCtx (oneRun r.2.1) theRecord r.2.1).isSome = true) ∧ isCore (oneRun 0x10) theRecord.core = true
      ∧ (∀ op ∈ [0x10, 0x11, 0x12, 0x20, 0x21, 0x30, 0x31, 0x32, 0x40, 0x41, 0x50, 0x51], recCtx up theRecord op = none) := by decide +kernel

theorem witness_ExchangesAlone :
    shellSize (oneRun 0x40) = 1 ∧ (oneRun 0x40).net.myMember = 0 ∧ (recCtx (oneRun 0x40) theRecord 0x40).isSome = true
      ∧ (recCtx (oneRun 0x41) theRecord 0x41).isSome = true := by decide +kernel

theorem witness_LaunchesRun :
    let q := setSlot (oneRun 0x21) 0 { (slotOf (oneRun 0x21) 0).get (by decide +kernel) with
      work := .pipe { stages := [7], unit := some { stage := 5, model := 1, runs := [{ done := [0] }] } } }
    let q := setCore q 0 { coreOf q 0 with queue := [(0, ⟨.ready, 0, some ⟨true, [], 1, [], [], some (0, 0, boundRecord (oneRecord 0x21) 1)⟩⟩)] }
    (recCtx (oneRun 0x20) theRecord 0x20).isSome = true ∧ (recCtx q theRecord 0x21).isSome = true ∧ (coreOf q 0).launch = none ∧ (coreOf (oneRun 0x20) 0).launch = none ∧ waitDue (loadEng launched 0) = true
      ∧ ((coreOf launched 0).launch.bind (fun l => (slotOf launched l.slot).bind (fun q => unitRun q l.run))).isSome = true ∧ (coreOf up 0).launch = none := by decide +kernel


/-- An entry from fields (byte, length, value). -/
def ent (fs : List (Nat × Nat × Nat)) : Entry := BitVec.ofNat 512 (fs.foldl (fun n f => n + f.2.2 % 2 ^ (8 * f.2.1) * 2 ^ (8 * f.1)) 0)

/-- Ring 1 of the physical function, ACTIVE, with one entry published. -/
def ring1 : RingRef := ⟨0, 1⟩
def ioUp : State := setRing ringUp ring1 { ringOf up ring1 with cfg := 0x0000000121200040#64, st := .active, producer := 1 }

theorem witness_RingCommands :
    let c := setRing up ring0 { ringOf up ring0 with cfg := 0x0000000080400000#64 }
    let top := setRing up ring0 { ringOf up ring0 with cfg := 0x0000000084000000#64 }
    let a := setRing up ring0 { ringOf up ring0 with st := .active }
    let z := setRing up ring0 { ringOf up ring0 with st := .frozen }
    let two := setRing a ⟨0, 1⟩ { ringOf up ⟨0, 1⟩ with st := .active }
    let far := setRing up ring0 { ringOf up ring0 with cfg := 0x0000000121200040#64 }
    Claims.ringReach c ring0 ∧ Claims.ringReach a ⟨0, 1023⟩
      ∧ (ringOf c ring0).st = .disabled ∧ fieldOf (ringOf c ring0).cfg 31 27 = 16 ∧ 4 ≤ fieldOf (ringOf up ring0).cfg 26 22 ∧ fieldOf (ringOf c ring0).cfg 26 22 = 1
      ∧ fieldOf (ringOf top ring0).cfg 26 22 = 16 ∧ fieldOf (ringOf top ring0).cfg 31 27 = 16 ∧ fieldOf (ringOf top ring0).cfg 41 32 = ring0.ring
      ∧ (ringOf far ring0).st = .disabled ∧ fieldOf (ringOf far ring0).cfg 41 32 = 1 ∧ fieldOf (ringOf far ring0).cfg 31 27 = 4 ∧ fieldOf (ringOf far ring0).cfg 26 22 = 4
      ∧ (ringOf far ⟨0, 1⟩).st ≠ .active ∧ (ringOf a ring0).st = .active ∧ (ringOf z ring0).st = .frozen
      ∧ (∀ x ∈ ringsOf a 0, x.1 = 0 ∨ x.2.st ≠ .active ∨ fieldOf x.2.cfg 41 32 ≠ 0)
      ∧ (∃ x ∈ ringsOf two 0, x.1 ≠ 0 ∧ x.2.st = .active ∧ fieldOf x.2.cfg 41 32 = 0)
      ∧ (ringOf (setRing up ring0 { ringOf up ring0 with st := .stopping }) ring0).st = .stopping ∧ (∀ x ∈ up.srv.slots, x.2.fn = 0 → x.2.ring = 0 → x.2.silent = true) := by
  unfold Claims.ringReach
  decide +kernel

theorem witness_RingAllocation :
    hostUp up = true ∧ up.port.vfEnable = false ∧ (∀ x ∈ ringsOf up 0, x.2.st = .disabled)
      ∧ ((sset [(0, 1024)] 63 0).map Prod.snd).sum ≤ 1024 ∧ 1024 < ((sset up.port.alloc 63 1).map Prod.snd).sum ∧ ((sset up.port.alloc 0 1024).map Prod.snd).sum ≤ 1024
      ∧ ({ up with port := { up.port with vfEnable := true } } : State).port.vfEnable = true ∧ (∃ x ∈ ringsOf ringUp 0, x.2.st ≠ .disabled) := by decide +kernel

theorem witness_CompletionEntry :
    bitOf (ringOf ringUp (cqOf ringUp ring0)).cfg 19 = false ∧ Memory.wf ringUp.mem.host = true
      ∧ (let last := setRing ringUp ring0 { ringOf ringUp ring0 with cqTail := 15 }
         ((ringOf last ring0).cqTail + 1) % (ringOf last ring0).cqSize = 0) := by decide +kernel

theorem witness_ModerationAndHeldErrors :
    let m := setRing up ⟨0, 1023⟩ { ringOf up ring0 with cfg := 0x00003FC0210BC040#64 ||| 0x0003FC0000000000#64, modCountNow := 1, modSince := some 0 }
    let open_ := setMsix m 0 31 { msixOf m 0 31 with masked := false }
    let h := setRing ringUp ring0 { ringOf ringUp ring0 with heldErrors := 1 }
    let late : State := { m with port := { m.port with streamDue := [31], streamAt := [(31, 9)] }, clk := { m.clk with ts := 9 + 1000 * 255 } }
    bitOf (ringOf m ⟨0, 1023⟩).cfg 19 = true ∧ fieldOf (ringOf m ⟨0, 1023⟩).cfg 49 42 = 255 ∧ (ringOf m ⟨0, 1023⟩).modCountNow ≠ 0
      ∧ (ringOf late ⟨0, 1023⟩).modSince = some 0 ∧ 0 + 1000 * fieldOf (ringOf late ⟨0, 1023⟩).cfg 49 42 ≤ late.clk.ts
      ∧ slookup late.port.streamAt (32 * 0 + 31) = some 9 ∧ 9 + 1000 * fieldOf (ringOf late ⟨0, 1023⟩).cfg 49 42 = late.clk.ts ∧ slookup up.port.streamAt 31 = none
      ∧ (msixOf m 0 (fieldOf (ringOf m ⟨0, 1023⟩).cfg 18 14)).masked = true ∧ (msixOf open_ 0 31).masked = false ∧ Memory.wf open_.mem.host = true
      ∧ 32 * ring0.fn + 31 ∈ late.port.streamDue
      ∧ (ringOf h ring0).heldErrors ≠ 0 ∧ cqFree (ringOf h (cqOf h ring0)) ≠ 0 := by decide +kernel

/-- Host memory with the summary bit of ring 0 and a submission record for it. -/
def swept (index : Nat) : State :=
  let s := setRing ringUp ring0 { ringOf ringUp ring0 with producer := 0, cqRec := some (0, 0), sqRec := some (0, 0) }
  let s := { s with port := { s.port with fns := [(0, { fnRegs s 0 with summary := 0x1000, doorbell := 0x2000 })] } }
  { s with mem := { s.mem with host := writeBytes (writeBytes [] 0x1000 [1]) 0x2000 (leBytes 4 index ++ leBytes 4 1) } }

theorem witness_SweepTakesDoorbells :
    ∀ index ∈ [0, 15, 16], let s := swept index
      hostUp s = true ∧ (ringOf s ring0).st = .active ∧ ringExists s ring0 = true ∧ s.gov.st = .active ∧ Memory.wf s.mem.host = true ∧ s.boot.evq.length < 4096
        ∧ (ringsOf s 0).any (fun x => x.2.st == .active) = true ∧ (∀ x ∈ ringsOf s 0, x.2.reread = false)
        ∧ summaryBits (readBytes s.mem.host 0x1000 128) = [0] ∧ firstCovered (s.mem.hostFail ++ s.mem.hostBad) 0x1000 (0x1000 + 128) = none ∧ 0x1000 + 128 ≤ 0x2000
        ∧ (fnRegs s 0).summary.toNat = 0x1000 ∧ (fnRegs s 0).doorbell.toNat = 0x2000 ∧ (ringOf s ring0).handledAt = none
        ∧ (ringOf s ring0).cqRec = some (leAt (readBytes s.mem.host 0x2000 16) 8 2, leAt (readBytes s.mem.host 0x2000 16) 12 4)
        ∧ (ringOf s ring0).sqRec ≠ some (leAt (readBytes s.mem.host 0x2000 16) 0 2, leAt (readBytes s.mem.host 0x2000 16) 4 4)
        ∧ (index < 16 ↔ leAt (readBytes s.mem.host 0x2000 16) 0 2 < (ringOf s ring0).sqSize) := by decide +kernel

theorem witness_FenceAndAbort :
    let f := ent [(0, 1, 0x3F), (4, 4, 9)]
    let a := ent [(0, 1, 0x08), (4, 4, 9), (8, 4, 7), (12, 2, 1)]
    let held : Request := { fn := 0, ring := 1, tag := 7, opcode := 0x27, prio := 2, entry := 0, fetchSeq := 3, tFetch := 0, st := .running, work := .pipe {} }
    let with_ := fun (r : Request) => ({ ioUp with srv := { ioUp.srv with slots := [(0, r)], fetchSeq := 4 } } : State)
    let s := { ioUp with srv := { ioUp.srv with slots := [(0, held)], fetchSeq := 4 } }
    runs ioUp (.fence ring1 f) = true ∧ Claims.takes ioUp ring1 f ∧ Claims.takes s ring1 f ∧ entryZero f [] = .ok () ∧ s.srv.holds = [] ∧ s.gov.draining = false
      ∧ (∀ x ∈ s.srv.slots, x.2.fetchSeq < s.srv.fetchSeq) ∧ (∃ x ∈ s.srv.slots, x.2.fn = ring1.fn ∧ x.2.ring = ring1.ring ∧ x.2.silent = false) ∧ ioUp.srv.slots = []
      ∧ (∀ x ∈ (with_ { held with silent := true }).srv.slots, x.2.fn ≠ ring1.fn ∨ x.2.ring ≠ ring1.ring ∨ x.2.silent = true)
      ∧ runs s (.abort ring0 a) = true ∧ Claims.takes s ring0 a ∧ Claims.takes ioUp ring0 a ∧ entryZero a [(8, 6)] = .ok () ∧ entryAt a 12 2 < allocOf s 0
      ∧ taggedSlot ioUp 0 (entryAt a 12 2) (entryAt a 8 4) = none ∧ taggedSlot s 0 (entryAt a 12 2) (entryAt a 8 4) = some (0, held)
      ∧ held.opcode ∉ [0x09, 0x0C, 0x0D, 0x0F] ∧ held.st ≠ .ending ∧ held.aborted = false ∧ slotOf s 0 = some held
      ∧ (∀ r ∈ [{ held with st := .ready }, { held with st := .ending }, { held with aborted := true }, { held with opcode := 0x0F }],
          Claims.takes (with_ r) ring0 a ∧ taggedSlot (with_ r) 0 1 7 = some (0, r)) := by
  unfold Claims.takes
  decide +kernel

theorem witness_PowerStateEntry :
    let busy := oneRun 0x10
    let b := { busy with port := ringUp.port }
    let held : State := { b with boot := { b.boot with act := .held } }
    let pair : State := { ringUp with net := { ringUp.net with shell := .formed, memberCount := 2 } }
    let second : State := { b with srv := { b.srv with slots := b.srv.slots ++ [(1, { fn := 0, ring := 0, tag := 8, opcode := 0x09, prio := 0, entry := 0, fetchSeq := 0, tFetch := 0, st := .queued, work := .power 1 })] } }
    (∀ k ∈ [1, 2], let e := ent [(0, 1, 9), (4, 4, 9), (8, 1, k), (9, 1, 1), (12, 4, 60000)]
      (∀ s ∈ [ringUp, b, held, second, pair], Claims.powerEntryTaken s ring0 e))
      ∧ runs ringUp (.enterPowerStateStandby ring0 (ent [(0, 1, 9), (8, 1, 1)])) = true ∧ runs ringUp (.enterPowerStateRetain ring0 (ent [(0, 1, 9), (8, 1, 2)])) = true
      ∧ ringUp.gov.st = .active ∧ ringUp.net.shell = .solo ∧ ringUp.boot.act = .idle ∧ ringUp.srv.holds = [] ∧ powerSlots ringUp = [] ∧ ringUp.srv.slots = []
      ∧ ringUp.srv.strokeSince = none ∧ b.srv.slots ≠ [] ∧ risingKeys b.srv.slots = true ∧ powerSlots b = []
      ∧ held.boot.act ≠ .idle ∧ held.net.shell = .solo ∧ powerSlots held = [] ∧ held.gov.draining = false ∧ powerSlots second ≠ [] ∧ second.srv.strokeSince ≠ none
      ∧ pair.net.shell ≠ .solo ∧ pair.gov.draining = false := by
  unfold Claims.powerEntryTaken Claims.takes
  decide +kernel


/-! ### Entries -/

/-- A model with a binding for each of EMBED, RERANK, PREFILL, DECODE and GENERIC, for a vocabulary of two tokens. -/
def stockModel : Model :=
  { oid := 1, handle := 1, recs := [BitVec.ofNat 256 (1 + 2 ^ 64)]
    binds := [0, 1, 2, 3, 5].map (fun k => { stage := k, list := 0, outDim := 8, vocabTokens := 2, seqLen := 64 }) }

/-- Host memory with blocks at 0x1000 (ARBITRATION), 0x1040 (SERVING), 0x1080 (PARTITION), 0x10C0 (BOATHOUSE), 0x1100 (PASSAGE_STORE, UNBIND), 0x1140
(a shell block) with its list at 0x1180, 0x11C0 (a table block), 0x1200 (one that deletes), 0x1240 (search parameters), 0x1280 (generation parameters),
0x1400 (a query block of SEARCH alone) and 0x1500 (a table row). -/
def blocks : Mem :=
  [(0x1000, [1, 1, 1, 0, 0, 0, 0, 0, 1, 0, 1, 0, 1]), (0x1040, [0xF4, 1, 1]), (0x1080, [15]), (0x10C0, [64, 0, 0, 0, 1, 0, 0, 0, 0, 16, 0, 0, 0, 0, 0, 0, 1]),
   (0x1100, [0, 1]), (0x1140, [5, 0, 0, 0, 2, 0, 0, 0, 0, 0, 0, 0, 0, 0, 0, 0, 0x80, 0x11]), (0x1180, [0, 0, 1]),
   (0x11C0, [3, 0, 0, 0, 7, 0, 0, 0, 1, 0, 0, 0, 0, 0, 0, 0, 4, 0, 0, 0, 0, 0, 1]), (0x1200, [1, 0, 1]), (0x1240, [1, 0, 0, 0, 0, 0, 0, 0, 0xFF, 0xFF]),
   (0x1280, [1]), (0x1292, [2, 0, 1, 0, 0xFF, 0xFF]), (0x12B8, [0, 0x20]),
   (0x1400, [4]), (0x1418, [32]), (0x142C, [1]), (0x1434, [1]), (0x1450, [0x40, 0x12]), (0x1429, [1])].foldl (fun m x => writeBytes m x.1 (x.2.map (BitVec.ofNat 8))) []

/-- Host memory with an image of 4,096 bytes (R176 to R184, R193) and its gather list at 0x2000: one WORK descriptor of one FP32 element, a list of one EMIT record, and a binding of
GENERIC. The CRC of bytes 16 to 19 was computed apart from the model. -/
def imageHost : Mem :=
  [(0x2000, [0, 96]), (0x2009, [16]),
   (0x6000, [68, 82, 84, 72, 73, 77, 71, 49, 1]), (0x600B, [1]), (0x600D, [1]), (0x6010, [9]), (0x6012, [177, 226]), (0x6019, [16]), (0x6021, [16]),
   (0x6039, [1]), (0x6040, [64]), (0x6048, [1]), (0x6050, [64, 1]), (0x6058, [64]), (0x6060, [2]), (0x6068, [192, 1]), (0x6080, [128, 1]),
   (0x6088, [64]), (0x6090, [1]), (0x6098, [192, 1]), (0x6100, [2]), (0x6102, [1]), (0x6104, [255, 255]), (0x6110, [1]), (0x6114, [1]),
   (0x6118, [1]), (0x611C, [1]), (0x6120, [1]), (0x6124, [1]), (0x6128, [1]), (0x6140, [1]), (0x6148, [2]), (0x614C, [1]), (0x6150, [4]),
   (0x6160, [81]), (0x6180, [5])].foldl (fun m x => writeBytes m x.1 (x.2.map (BitVec.ofNat 8))) []

/-- A package with everything that the sample entries name: a model, a vocabulary, an index with its passage store, a template, a table, a conversation that
is paused and one that is open, region 64 for the boathouse, and the blocks above. -/
def stocked : State :=
  let s := setRegion ioUp 64 { regionOf ioUp 64 with size := 0x1000, cfg := 1, st := .active }
  { s with
    mem := { s.mem with host := blocks }
    obj := { s.obj with
      nextOid := 10, models := [stockModel], modelHandle := [(1, 1)]
      vocabs := [{ oid := 2, bos := 0, eos := 0, pad := 0, sep := 0, tokens := [⟨[0x61], 0⟩, ⟨[0x62], 0⟩] }], vocabSlot := [(0, 2)]
      indexes := [{ oid := 3, idCap := 4, parts := 1, dim := 8 }], indexSlot := [(0, 3)]
      templates := [{ oid := 4, vocabTokens := 2 }], templateSlot := [(0, 4)]
      passages := [(0, { region := 64, offset := 0, vocabTokens := 2, itemCount := 1, tableOff := 64, tokenOff := 72, imageLen := 4096 })]
      tables := [{ oid := 5, rows := 4, rowBytes := 4 }], tableSlot := [(1, 5)] }
    srv := { s.srv with convs := [{ fn := 0, id := 7, st := .paused }, { fn := 0, id := 8, st := .open }] } }

/-- The same in a regatta of two packages, without objects and conversations. -/
def apart : State :=
  { stocked with
    obj := {}
    srv := { stocked.srv with convs := [] }
    net := { stocked.net with st := .member, members := [0, 1], leader := 0 } }

/-- The lead of a shell of two. -/
def leading : State := { stocked with net := { stocked.net with st := .member, shell := .formed, shellId := 5, memberCount := 2, shellPkgs := [0, 1] } }

/-- For each row of Claims.entryRows an entry that the package takes. -/
def samples : List (State × RingRef × Entry) :=
  [({ ioUp with mem := { ioUp.mem with host := imageHost } }, ring0, ent [(0, 1, 0x02), (8, 8, 0x2000), (16, 4, 1)]), (stocked, ring0, ent [(0, 1, 0x03), (8, 2, 1)]), (stocked, ring0, ent [(0, 1, 0x04), (8, 1, 15)]),
   (stocked, ring0, ent [(0, 1, 0x05), (8, 1, 255)]), (stocked, ring0, ent [(0, 1, 0x06), (8, 1, 63)]), (stocked, ring0, ent [(0, 1, 0x07)]),
   (stocked, ring0, ent [(0, 1, 0x08)]), (stocked, ring0, ent [(0, 1, 0x0A), (8, 1, 1), (16, 8, 0x3000), (24, 4, 64)]),
   (stocked, ring0, ent [(0, 1, 0x0A), (8, 1, 2), (16, 8, 0x3000)]), (stocked, ring0, ent [(0, 1, 0x0B), (8, 1, 0x10), (16, 8, 0x1000)]),
   (stocked, ring0, ent [(0, 1, 0x0B), (8, 1, 0x21), (16, 8, 0x1040)]), (stocked, ring0, ent [(0, 1, 0x0B), (8, 1, 0x22), (16, 8, 0x1080)]),
   (apart, ring0, ent [(0, 1, 0x0B), (8, 1, 0x23), (16, 8, 0x10C0)]), (stocked, ring0, ent [(0, 1, 0x0B), (8, 1, 0x31), (16, 8, 0x5000)]),
   (stocked, ring0, ent [(0, 1, 0x0B), (8, 1, 0x32), (16, 8, 0x1100)]), (stocked, ring0, ent [(0, 1, 0x0B), (8, 1, 0x10), (9, 1, 1), (16, 8, 0x3000)]),
   (apart, ring0, ent [(0, 1, 0x0C), (8, 8, 0x1140)]), (stocked, ring0, ent [(0, 1, 0x0D)]), (stocked, ring0, ent [(0, 1, 0x0E), (8, 8, 0x11C0)]),
   (stocked, ring0, ent [(0, 1, 0x0E), (8, 8, 0x1200)]), (leading, ring0, ent [(0, 1, 0x0F), (8, 4, 5)]), (stocked, ring0, ent [(0, 1, 0x09)]),
   (stocked, ring1, ent [(0, 1, 0x20), (8, 8, 0x1400)]), (stocked, ring1, ent [(0, 1, 0x21), (8, 2, 1), (24, 4, 4)]),
   (stocked, ring1, ent [(0, 1, 0x22), (12, 4, 1), (24, 4, 32), (40, 4, 192), (44, 4, 1), (48, 8, 0x1240)]),
   (stocked, ring1, ent [(0, 1, 0x23), (8, 2, 1), (12, 2, 8), (24, 4, 4), (28, 4, 1), (48, 4, 192)]),
   (stocked, ring1, ent [(0, 1, 0x29), (12, 4, 131072), (28, 4, 1), (48, 4, 524544)]),
   (stocked, ring1, ent [(0, 1, 0x24), (8, 2, 1), (24, 4, 4), (32, 8, 0x1280)]), (stocked, ring1, ent [(0, 1, 0x25), (8, 8, 8)]),
   (stocked, ring1, ent [(0, 1, 0x25), (8, 8, 8), (16, 1, 1)]), (stocked, ring1, ent [(0, 1, 0x26), (8, 8, 7)]), (stocked, ring1, ent [(0, 1, 0x27), (24, 4, 1)]),
   (stocked, ring1, ent [(0, 1, 0x28), (24, 4, 4)]), (stocked, ring1, ent [(0, 1, 0x30), (12, 4, 1)]), (stocked, ring1, ent [(0, 1, 0x31), (12, 4, 1)]),
   (stocked, ring1, ent [(0, 1, 0x32), (8, 2, 1), (12, 4, 1)]), (stocked, ring1, ent [(0, 1, 0x33), (8, 2, 1), (12, 4, 1), (24, 8, 0x4000), (32, 4, 4)]),
   (stocked, ring1, ent [(0, 1, 0x38), (8, 2, 1)]), (stocked, ring1, ent [(0, 1, 0x3F)])]

/-- What the body of a row makes of a sample: 1 a slot, 2 a completion, 3 a wait, else 256 and the status of its error. -/
def outcome (row : (RingRef → Entry → Instr) × (RingRef → Entry → State → Except CmdErr Taken)) (x : State × RingRef × Entry) : Nat :=
  match row.2 x.2.1 x.2.2 (Claims.fetched x.2.1 x.1) with
  | .ok (.slot _ _) => 1
  | .ok (.done _ _ _) => 2
  | .ok (.hold _ _ _) => 3
  | .error e => 256 + e.status


/-! ### A model image that the nine checks pass -/

/-- The state and entry of LOAD_MODEL's sample. -/
def loadState : State := { ioUp with mem := { ioUp.mem with host := imageHost } }
def loadEntry : Entry := ent [(0, 1, 0x02), (8, 8, 0x2000), (16, 4, 1)]

/-- The bytes of the image up to its last that is not 0. -/
def imageHead : List Byte := readBytes imageHost 0x6000 512

theorem readBytes_add (m : Mem) (a n k : Nat) : readBytes m a (n + k) = readBytes m a n ++ readBytes m (a + n) k := by
  induction n generalizing a with
  | zero => simp [readBytes]
  | succ n ih => rw [Nat.add_right_comm, readBytes, readBytes, ih, Nat.add_right_comm a 1 n]; rfl

theorem readBytes_beyond (m : Mem) (a n : Nat) (h : ∀ x ∈ m, x.1 < a) : readBytes m a n = List.replicate n 0 := by
  induction n generalizing a with
  | zero => rfl
  | succ n ih =>
    rw [readBytes, ih (a + 1) (fun x hx => Nat.lt_succ_of_lt (h x hx)), List.replicate_succ]
    congr 1
    unfold readByte sgetD
    have : slookup m a = none := by
      clear ih
      induction m with
      | nil => rfl
      | cons x m ihm =>
        have hx := h x (by simp)
        have hm := ihm (fun y hy => h y (by simp [hy]))
        obtain ⟨k, b⟩ := x
        simp only at hx
        have hk : ¬ a = k := by omega
        simp [slookup, hm, hk]
    rw [this]; rfl

theorem image_bytes : readBytes imageHost 0x6000 4096 = imageHead ++ List.replicate 3584 0 := by
  have h : ∀ x ∈ imageHost, x.1 < 0x6000 + 512 := by decide +kernel
  have e := readBytes_add imageHost 0x6000 512 3584
  rw [readBytes_beyond imageHost _ 3584 h] at e
  exact e

/-- The CRC register takes each of the values given after n bytes more. -/
def crcSteps (n c : Nat) (xs : List Byte) : List Nat → Bool
  | [] => true
  | d :: ds => (xs.take n).foldl crcByte c == d && crcSteps n d (xs.drop n) ds

theorem crcSteps_last (n c : Nat) (xs : List Byte) (ds : List Nat) (h : crcSteps n c xs ds = true) :
    xs.foldl crcByte c = (xs.drop (n * ds.length)).foldl crcByte ((c :: ds).getLast (by simp)) := by
  induction ds generalizing c xs with
  | nil => simp
  | cons d ds ih =>
    simp only [crcSteps, Bool.and_eq_true, beq_iff_eq] at h
    have e : xs.foldl crcByte c = (xs.drop n).foldl crcByte d := by
      rw [← h.1, ← List.foldl_append, List.take_append_drop]
    rw [e, ih d _ h.2, List.drop_drop, List.length_cons, Nat.mul_succ, Nat.add_comm]
    simp

theorem crcSteps_all (n c d : Nat) (xs : List Byte) (ds : List Nat) (h : crcSteps n c xs ds = true) (hl : xs.length ≤ n * ds.length)
    (hd : (c :: ds).getLast (by simp) = d) : xs.foldl crcByte c = d := by
  rw [crcSteps_last n c xs ds h, List.drop_eq_nil_of_le hl, List.foldl_nil, hd]

/-- The CRC register along the head, every 32 bytes, and along the zeros, every 64. -/
def headSteps : List Nat := [2928775690, 124376469, 4175282791, 4201268348, 1582888664, 553012771, 1242485095, 2846180712, 1705297206, 2388572824,
  465900193, 575239517, 1417848444, 296338019, 3148729235, 3638722610]
def zeroSteps : List Nat :=
  [1626490097, 2615582796, 3077840301, 2547456474, 3155125067, 3328778105, 280986555, 1616172618, 2911026897,
  3888811746, 4158290396, 2969161515, 1031574948, 2451786334, 3033382428, 3005859788, 2126102914, 631474066, 3575667439,
  1671389368, 865306922, 2247731012, 4254919361, 3597467928, 3008840120, 36934783, 4073604903, 2391312297, 3044561381,
  2208871031, 1403913776, 290680268, 638165910, 4134295680, 922319576, 3796470173, 3358745331, 1319436116, 3755679663,
  3278279996, 2636280762, 3754432297, 743939475, 3392682736, 909236490, 3734165607, 3157767501, 2992590200, 2193053644,
  2153104714, 2038212895, 3264793651, 939294611, 2850143067, 1739921000, 491716598]

theorem image_crc : crcOk (imageHead ++ List.replicate 3584 0) 16 = true := by
  have h0 : (zeroed4 imageHead 16).foldl crcByte 0xFFFFFFFF = 3638722610 :=
    crcSteps_all 32 _ _ _ headSteps (by decide +kernel) (by decide +kernel) (by decide +kernel)
  have h1 : (List.replicate 3584 (0 : Byte)).foldl crcByte 3638722610 = 491716598 :=
    crcSteps_all 64 _ _ _ zeroSteps (by decide +kernel) (Nat.le_of_eq List.length_replicate) (by decide +kernel)
  have hl : imageHead.length = 512 := by decide +kernel
  have hz : zeroed4 (imageHead ++ List.replicate 3584 0) 16 = zeroed4 imageHead 16 ++ List.replicate 3584 0 := by
    unfold zeroed4
    rw [List.take_append_of_le_length (by omega), List.drop_append_of_le_length (by omega)]
    simp only [List.append_assoc]
  rw [crcOk, crc32, hz, List.foldl_append, h0, h1]
  decide +kernel

theorem length_both (a b : List Byte) (m n : Nat) (ha : a.length = m) (hb : b.length = n) : (a ++ b).length = m + n := by
  rw [List.length_append, ha, hb]

theorem image_check : modelCheck (imageHead ++ List.replicate 3584 0) = none := by
  have hl : (imageHead ++ List.replicate 3584 (0 : Byte)).length = 4096 := by
    have h : imageHead.length = 512 := by decide +kernel
    exact length_both _ _ 512 3584 h List.length_replicate
  have h1 : modelCheck1 (imageHead ++ List.replicate 3584 0) = true := by
    rw [modelCheck1, image_crc, hl]; decide +kernel
  have h2 : modelCheck2 (imageHead ++ List.replicate 3584 0) = true := by
    rw [modelCheck2, hl]; decide +kernel
  have h3 : modelCheck3 (imageHead ++ List.replicate 3584 0) = true := by decide +kernel
  have hp : parseModel (imageHead ++ List.replicate 3584 0) = { parseModel (imageHead ++ List.replicate 3584 0) with len := 4096 } := by
    unfold parseModel; rw [hl]
  rw [modelCheck, h1, h2, h3, hp]
  decide +kernel

theorem image_gathered : gatherRead (Claims.fetched ring0 loadState) 0x2000 1 = .ok (readBytes imageHost 0x2000 16, imageHead ++ List.replicate 3584 0) := by
  have h1 : needRead (Claims.fetched ring0 loadState) 0x2000 (16 * 1) = .ok (readBytes imageHost 0x2000 16) := by
    have : firstCovered ((Claims.fetched ring0 loadState).mem.hostFail ++ (Claims.fetched ring0 loadState).mem.hostBad) 0x2000 (0x2000 + 16 * 1) = none := by decide +kernel
    rw [needRead, hostRead, this]; rfl
  have h2 : needRead (Claims.fetched ring0 loadState) 0x6000 4096 = .ok (imageHead ++ List.replicate 3584 0) := by
    have : firstCovered ((Claims.fetched ring0 loadState).mem.hostFail ++ (Claims.fetched ring0 loadState).mem.hostBad) 0x6000 (0x6000 + 4096) = none := by decide +kernel
    rw [needRead, hostRead, this, ← image_bytes]; rfl
  have h3 : gatherEntry (readBytes imageHost 0x2000 16) 0 = (0x6000, 4096) := by decide +kernel
  have h4 : gatherSpace (readBytes imageHost 0x2000 16) 0 = false := by decide +kernel
  simp only [gatherRead, h1, bind, Except.bind, gatherData, h3, h4, h2, Bool.false_eq_true, if_false, List.append_nil]

/-- What LOAD_MODEL makes of an entry whose fields and image pass. -/
theorem load_slot (S : State) (e : Entry) (l bs : List Byte) (n0 : entryAt e 16 4 = 1) (a0 : entryAt e 8 8 = 0x2000) (e0 : entryZero e [(8, 12)] = .ok ())
    (e1 : gatherFields l 1 = .ok ()) (e2 : modelCount S < 64) (hc : modelCheck bs = none) (hg : gatherRead S 0x2000 1 = .ok (l, bs))
    (u : Model × State) (hp : placeModel { parseModel bs with oid := (takeOid S).1 } (takeOid S).2 = .ok u) (hr : placedNear u.2 [u.1] [] [] ≤ nearRoom S) :
    loadModelBody ring0 e S = .ok (.slot (.install (.model u.1)) u.2) := by
  simp [loadModelBody, hg, n0, a0, e0, e1, e2, hc, hp, hr, bind, Except.bind, must, imageOk, within]

/-- The image finds its room, and its placing leaves the slots as they were. -/
theorem image_placed : ∃ u, placeModel { parseModel (imageHead ++ List.replicate 3584 0) with oid := (takeOid (Claims.fetched ring0 loadState)).1 } (takeOid (Claims.fetched ring0 loadState)).2 = .ok u
    ∧ placedNear u.2 [u.1] [] [] ≤ nearRoom (Claims.fetched ring0 loadState) ∧ u.2.srv.holds = [] ∧ risingKeys u.2.srv.slots = true := by
  have h : (match placeModel { parseModel (imageHead ++ List.replicate 3584 0) with oid := (takeOid (Claims.fetched ring0 loadState)).1 } (takeOid (Claims.fetched ring0 loadState)).2 with
    | .ok u => decide (placedNear u.2 [u.1] [] [] ≤ nearRoom (Claims.fetched ring0 loadState)) && (u.2.srv.holds == [] && risingKeys u.2.srv.slots)
    | .error _ => false) = true := by decide +kernel
  split at h
  · next u hu =>
    simp only [Bool.and_eq_true, decide_eq_true_eq, beq_iff_eq] at h
    exact ⟨u, hu, h.1, h.2.1, h.2.2⟩
  · cases h

/-- LOAD_MODEL of the image takes a slot, as EntriesTakeSlots asks. -/
theorem witness_LoadModel : runs loadState (.loadModel ring0 loadEntry) = true ∧ Claims.takes loadState ring0 loadEntry
    ∧ ∃ w u, loadModelBody ring0 loadEntry (Claims.fetched ring0 loadState) = .ok (.slot w u) ∧ (∀ n, w ≠ .power n) ∧ u.srv.holds = [] ∧ risingKeys u.srv.slots = true := by
  obtain ⟨u, hp, hr, hh, hk⟩ := image_placed
  have h := load_slot (Claims.fetched ring0 loadState) loadEntry _ _ (by decide +kernel) (by decide +kernel) (by decide +kernel) (by decide +kernel) (by decide +kernel)
    image_check image_gathered u hp hr
  refine ⟨by decide +kernel, by unfold Claims.takes; decide +kernel, _, _, h, fun n hn => ?_, hh, hk⟩
  cases hn


/-! ### Entries, continued -/

/-- The body of a row takes a sample as EntriesAct asks: it goes to a slot, or is done at its fetch. -/
def bodyTakes (row : (RingRef → Entry → Instr) × (RingRef → Entry → State → Except CmdErr Taken)) (x : State × RingRef × Entry) : Bool :=
  match row.2 x.2.1 x.2.2 (Claims.fetched x.2.1 x.1) with
  | .ok (.slot (.power _) _) => false
  | .ok (.slot _ u) => u.srv.holds.isEmpty && risingKeys u.srv.slots
  | .ok (.done _ _ u) => u.srv.holds.isEmpty && !u.gov.draining
  | _ => false

/-- Every row but LOAD_MODEL (witness_LoadModel) and FENCE (witness_FenceAndAbort). -/
theorem witness_EntriesAct :
    ∀ p ∈ ((Claims.entryRows.zip samples).drop 1).dropLast,
      runs p.2.1 (p.1.1 p.2.2.1 p.2.2.2) = true ∧ Claims.takes p.2.1 p.2.2.1 p.2.2.2 ∧ bodyTakes p.1 p.2 = true := by
  unfold Claims.takes
  decide +kernel

/-- The body of a row refuses an entry. -/
def bodyFails (row : (RingRef → Entry → Instr) × (RingRef → Entry → State → Except CmdErr Taken)) (s : State) (q : RingRef) (e : Entry) : Bool :=
  match row.2 q e (Claims.fetched q s) with
  | .error _ => true
  | _ => false

/-- Each sample with the tag that no command may have fails a header check, and with a reserved byte set a check of its body. -/
theorem witness_CommandErrorFreezes :
    ∀ p ∈ Claims.entryRows.zip samples, let s := p.2.1; let q := p.2.2.1; let e := p.2.2.2 ||| ent [(4, 4, 0xFFFFFFFF)]; let r := p.2.2.2 ||| ent [(63, 1, 1)]
      (runs s (p.1.1 q e) = true ∧ canFetch q (entOp e) s = true ∧ (headerError q e s).isSome = true)
        ∧ (runs s (p.1.1 q r) = true ∧ canFetch q (entOp r) s = true ∧ headerError q r s = none ∧ bodyFails p.1 s q r = true)
        ∧ s.net.myMember = 0 ∧ s.srv.holds = [] ∧ s.gov.draining = false := by decide +kernel


/-! ### Mailboxes and DMA -/

/-- A message of a type with its COOKIE in the next slot of channel 3, whose indexes stand before their wrap. -/
def mailed (msg : List Byte) : State :=
  setChannel up 3 { h2d := writeBytes [] (64 * 15) msg, h2dProd := 0, h2dCons := 31, d2hProd := 15, d2hCons := 0 }

theorem witness_MailboxHostSide :
    let w := fun (d : Nat) => (⟨0, .full, BitVec.ofNat 64 d⟩ : RegAccess)
    let s := setChannel up 0 { channelOf up 0 with h2dCons := 31, h2dProd := 31, d2hCons := 30, d2hProd := 2 }
    (∀ d ∈ [15 + 30 * 2 ^ 24, 16 + 30 * 2 ^ 24, 31 + 30 * 2 ^ 24], fnWrite (w d) s = true ∧ s.boot.evq.length < 4096 ∧ covers (w d) 4 0 = true
        ∧ fieldOf (written (w d)) 28 24 = (channelOf s 0).d2hCons)
      ∧ (15 + 32 - 31) % 32 = 16 ∧ (16 + 32 - 31) % 32 = 17
      ∧ (∀ d ∈ [31 + 2 * 2 ^ 24, 31 + 3 * 2 ^ 24], covers (w d) 28 24 = true ∧ fieldOf (written (w d)) 4 0 = (channelOf s 0).h2dProd ∧ (31 + 32 - (channelOf s 0).h2dCons) % 32 ≤ 16)
      ∧ (2 + 32 - 30) % 32 ≤ (2 + 32 - 30) % 32 ∧ ¬((3 + 32 - 30) % 32 ≤ (2 + 32 - 30) % 32)
      ∧ (let d := w 0xFFFFFFFF7FFFFFFF
         fnWrite d up = true ∧ covers d 30 0 = true ∧ up.boot.evq.length + 30 ≤ 4096) := by decide +kernel

theorem witness_MailboxMessages :
    (∀ msg ∈ ([[1, 0, 0, 56, 9], [2, 0, 0, 0, 9], [0, 0, 0, 0, 9], [0xFF, 0xFF, 0, 3, 9]] : List (List Nat)), let s := mailed (msg.map (BitVec.ofNat 8))
      fwRunning s = true ∧ (channelOf s 3).h2dCons ≠ (channelOf s 3).h2dProd ∧ d2hRoom (channelOf s 3) = true ∧ (channelOf s 3).held = []
        ∧ Memory.wf (channelOf s 3).d2h = true)
      ∧ (let s := setChannel up 63 { held := [[1], [2]] }
         fwRunning s = true ∧ (channelOf s 63).held = [1] :: [[2]] ∧ d2hRoom (channelOf s 63) = true ∧ Memory.wf (channelOf s 63).d2h = true)
      ∧ (channelOf up 63).held = [] := by decide +kernel

/-- Channel 15 with a transfer of n bytes of host memory from 0x1000 to 0x2FF0, in a state. -/
def moving (st : DmaState) (n : Nat) (aborting : Bool) : State :=
  setDma { up with mem := { up.mem with host := writeBytes [] 0x1000 [1, 2, 3] } } 15
    { src := 0x1000, dst := 0x2FF0, count := BitVec.ofNat 64 n, cpl := 0x8000, st := st, aborting := aborting }

theorem witness_DmaControl :
    (Claims.dmaAction up 15 (wr 0x0102030000000001) 0 ∧ dmaIdle (dmaOf up 15) = true)
      ∧ (∀ st ∈ [DmaState.running, .pausing, .paused], dmaIdle (dmaOf (moving st 20 false) 15) = false)
      ∧ (∀ st ∈ [DmaState.idle, .done, .aborted, .error], dmaIdle (dmaOf (moving st 20 false) 15) = true)
      ∧ (∀ k < 4, Claims.dmaAction (moving .paused 20 false) 15 (wr (2 ^ k)) k)
      ∧ (dmaOf (moving .running 20 false) 15).st ≠ .paused ∧ bitOf (dmaOf (moving .paused 20 false) 15).ctl 8 = false
      ∧ Memory.wf (moving .paused 20 false).mem.host = true := by
  unfold Claims.dmaAction
  decide +kernel

theorem witness_DmaMovesUnits :
    ∀ s ∈ [moving .running 16 false, moving .pausing 16 false, moving .running 17 false, moving .pausing 17 false, moving .running 17 true], let d := dmaOf s 15
      clocksRun s = true ∧ (d.st = .running ∨ d.st = .pausing) ∧ bitOf d.ctl 40 = false ∧ bitOf d.ctl 41 = false ∧ bitOf d.ctl 42 = false ∧ bitOf d.ctl 43 = false
        ∧ s.mem.hostFail = [] ∧ s.mem.hostBad = [] ∧ Memory.wf s.mem.host = true ∧ d.bytesDone < d.count.toNat
        ∧ min (d.count.toNat - d.bytesDone) (4096 - (d.dst.toNat + d.bytesDone) % 4096) = 16 := by decide +kernel

/-! ### The calendar and the clocks -/

/-- A calendar at its last unit, with TRIM −128. -/
def lastUnit : State := { up with cal := { up.cal with sec := 2 ^ 40 - 1, frac := 65535, trim := -128, valid := true, host := ⟨true, 3, 7⟩ } }

/-- The same package in RETAIN; one whose trim takes back all that the calendar has; and one without backup power. -/
def lastRetain : State := { lastUnit with gov := { lastUnit.gov with st := .retain } }
def trimmed : State := { up with cal := { up.cal with frac := 256, trim := -128 } }
def unbacked : State := { up with cal := { up.cal with powered := false, setSec := 9 } }

theorem witness_LatchingReads :
    canRead .host up = true ∧ canRead .cox up = true ∧ canRead .bmc up = true ∧ hostUp up = true ∧ (holdingOf lastUnit.cal .host).held = true
      ∧ (holdingOf up.cal .host).held = false := by decide +kernel

theorem witness_CalendarKeepsTime :
    (∀ c ∈ [lastUnit.cal, lastRetain.cal, trimmed.cal, unbacked.cal], CalLegal c) ∧ (wrote (wr 0x805) 0 = true ∧ pfWrite (wr 0x805) up = true ∧ up.cal.powered = true ∧ up.srv.convs = [] ∧ covers (wr 0x805) 15 8 = true
        ∧ wrote ⟨0, .low, 1⟩ 0 = true)
      ∧ lastUnit.cal.powered = true ∧ lastUnit.gov.st ≠ .retain ∧ 0 ≤ (calUnits lastUnit.cal : Int) + 2 * lastUnit.cal.trim
      ∧ lastRetain.gov.st = .retain ∧ clocksRun lastRetain = true ∧ (calUnits trimmed.cal : Int) + 2 * trimmed.cal.trim = 0
      ∧ unbacked.cal.powered = false := by
  unfold CalLegal HoldingLegal
  decide +kernel

theorem witness_ClockFaults :
    up.pins.pwrok = true ∧ (∀ x ∈ [0, 41, 41 * 256, 41 * 256 + 41], x / 256 ≤ 41 ∧ x % 256 ≤ 41) ∧ clocksRun up = true ∧ up.boot.evq.length + 2 ≤ 4096
      ∧ bitOf up.flt.ctl 0 = false := by decide +kernel

/-! ### Memory tiers -/

/-- Region 64: 4 KiB of host memory from 0x10000 in a near copy of 64 MiB, in a state. -/
def tiered (st : RegionState) (near : Sparse Tile) : State :=
  setRegion { up with mem := { up.mem with mapValid := true } } 64
    { base := 0x8000000000010000#64, size := 0x1000#64, cfg := 0x0000000000400001#64, st := st, near := near }

/-- The same while a command of an operation is in progress. -/
def working (op : Nat) (st : RegionState) : State :=
  let s := tiered st [(0, { dirty := true })]
  { s with mem := { s.mem with busy := true, cmd := some (op, 64) } }

theorem witness_RegionCommands :
    hostUp up = true ∧ (working 1 .disabled).mem.busy = true ∧ up.mem.busy = false ∧ (regionOf (tiered .disabled []) 64).st = .disabled
      ∧ (regionOf (tiered .flushing []) 64).st ≠ .disabled ∧ (regionOf (tiered .flushing []) 64).st ≠ .active ∧ (regionOf (tiered .active [(0, {})]) 64).st = .active
      ∧ regionBound (tiered .active []) 64 = false ∧ risingKeys (regionOf (tiered .active [(0, {})]) 64).near = true
      ∧ (let b := tiered .active []
         let b : State := { b with srv := { b.srv with bhRegion := 64 } }
         (regionOf b 64).st = .active ∧ regionBound b 64 = true ∧ hostUp b = true)
      ∧ (∀ x ∈ [(1, RegionState.disabled), (2, .disabling), (3, .flushing), (4, .active)], (working x.1 x.2).mem.cmd = some (x.1, 64) ∧ clocksRun (working x.1 x.2) = true)
      ∧ (let s := working 1 .disabled
         let z := setRegion s 64 { regionOf s 64 with size := 0 }
         let n := setRegion s 64 { regionOf s 64 with cfg := 0x0000FFFFFFFF0001#64 }
         let o := setRegion s 65 { regionOf s 64 with st := .active }
         let f := setRegion s 64 { regionOf s 64 with base := 0x4000000000000000#64 }
         regionValid s (regionOf s 64) = true ∧ regionOverlaps s 64 (regionOf s 64) = false ∧ (regionOf s 64).nearMib * 2 ^ 20 ≤ nearFree s (regionOf s 64).partn
           ∧ regionPorts s (regionOf s 64) = [] ∧ regionValid z (regionOf z 64) = false
           ∧ nearFree n (regionOf n 64).partn < (regionOf n 64).nearMib * 2 ^ 20 ∧ regionOverlaps o 64 (regionOf o 64) = true ∧ regionOverlaps f 64 (regionOf f 64) = true) := by
  decide +kernel


/-- A far-memory map of port 0 alone, with 64 GiB; its link is up or not, and the port serves or not. -/
def farUp (link serving : Bool) : State :=
  { tiered .disabled [] with
    mem := { (tiered .disabled []).mem with
      mapPorts := [0], ports := [(0, { enable := true, capacityGib := 64, serving := serving, linkUp := link, retraining := !link, serial := 77, timeouts := 2 })]
      regions := [(64, { base := 0x4000000000000000#64, size := 0x1000#64, cfg := 0x0000000000400001#64, st := .disabled })] } }

/-- The same with region 64 in use and a clean tile of it near. -/
def farUsed (link : Bool) : State := setRegion (farUp link true) 64 { regionOf (farUp link true) 64 with st := .active, near := [(0, {})] }

theorem witness_RegionPortDown :
    let s : State := { farUp false true with mem := { (farUp false true).mem with busy := true, cmd := some (1, 64) } }
    regionValid s (regionOf s 64) = true ∧ regionOverlaps s 64 (regionOf s 64) = false ∧ (regionOf s 64).nearMib * 2 ^ 20 ≤ nearFree s (regionOf s 64).partn
      ∧ (∃ p ∈ regionPorts s (regionOf s 64), (farPortOf s p).serving = false ∨ (farPortOf s p).linkUp = false) := by decide +kernel

theorem witness_MemorySetUp :
    pfWrite (wr 0xC000000000001000) up = true ∧ fieldOf (wr 0xC000000000001000).data 63 62 = 3 ∧ (regionOf up 255).st = .disabled ∧ (regionOf (tiered .active []) 64).st ≠ .disabled
      ∧ farInUse (farUsed true) = true ∧ farInUse (farUp true true) = false ∧ (farUp true true).mem.mapValid = true ∧ bitOf (wr 0x1800).data 0 ≠ bitOf (farUp true true).mem.ctl 0
      ∧ 0 < Config.farPorts up.part ∧ (∀ d ∈ [0x02, 0x03, 0x13, 0x23], wrote (wr d) 1 = true ∧ pfWrite (wr d) up = true) ∧ (farPortOf up 0).maxRate < 4
      ∧ (farPortOf (farUp true true) 0).enable = true ∧ portInUse (farUp true true) 0 = false := by decide +kernel

theorem witness_FarMemoryPorts :
    (clocksRun (farUsed true) = true ∧ (farPortOf (farUsed true) 0).serving = true ∧ (farPortOf (farUsed true) 0).linkUp = true)
      ∧ ((farPortOf (farUsed false) 0).retraining = true ∧ Claims.eventsFlow (farUsed false) ∧ (farUsed false).srv.convs = [] ∧ (farUsed false).mem.wb = []
          ∧ portRegions (farUsed false) 0 = [64] ∧ (∀ n ∈ portRegions (farUsed false) 0, ∀ x ∈ (regionOf (farUsed false) n).near, x.2.dirty = false))
      ∧ ((farPortOf (farUp true true) 0).serving = true ∧ 50000 < 50001 ∧ regionAt (farUp true true) 0x100000 = none
          ∧ Claims.eventsFlow (farUp true true) ∧ (farPortOf (farUp true true) 0).timeouts + 1 = 3)
      ∧ (let s := farUp true false
         s.mem.mapValid = true ∧ clocksRun s = true ∧ (farPortOf s 0).enable = true ∧ (farPortOf s 0).serving = false ∧ farInUse s = false)
      ∧ (∀ g ∈ [64, 4096], Claims.meets ⟨1, true, false, true, g, true, true, true, true, true, true⟩)
      ∧ (∀ g ∈ [63, 4097], ¬Claims.meets ⟨1, true, false, true, g, true, true, true, true, true, true⟩) := by
  unfold Claims.eventsFlow Claims.meets
  decide +kernel

/-- Region 64 of near memory with its one tile of 4 KiB, dirty or not. -/
def scrubbed (dirty : Bool) : State := tiered .active [(0, { data := [(0, 5)], dirty := dirty })]

theorem witness_ScrubAndDrain :
    (clocksRun (scrubbed true) = true ∧ fieldOf (scrubbed true).mem.ctl 15 8 ≠ 0 ∧ (scrubbed true).gov.st ≠ .retain ∧ Claims.eventsFlow (scrubbed true)
        ∧ (∀ o ∈ [0, 4096 - 32], o % 32 = 0 ∧ slookup (regionOf (scrubbed true) 64).near (o / (regionOf (scrubbed true) 64).tileBytes) = some { data := [(0, 5)], dirty := true })
        ∧ (∀ m ∈ (scrubbed true).obj.models, m.nearRegion ≠ 64))
      ∧ (∀ u ∈ [UnitRef.core 0, .core 575, .crew 0, .crew 63], unitPresent up u = true ∧ inWatch up u = false ∧ unitOut up u = false) ∧ fieldOf up.flt.ctl 15 8 ≤ 16
      ∧ 4 ≤ up.boot.stage ∧ Claims.eventsFlow up
      ∧ (let s := scrubbed false
         let u : WbUnit := ⟨64, 0, [(4095, 7), (4094, 6)], []⟩
         let w : State := { s with mem := { s.mem with wb := [u] } }
         let d : State := { tiered .disabled [] with mem := { (tiered .disabled []).mem with wb := [u] } }
         w.mem.wb = u :: [] ∧ clocksRun w = true ∧ (regionOf w 64).serves = true ∧ (regionOf w 64).writeBack = true
           ∧ runsOf (sortBy (fun a b : Nat × Byte => decide (a.1 < b.1)) u.bytes) = [(4094, [6, 7])] ∧ (4096 * 0 + 4094) % (regionOf w 64).tileBytes + 2 ≤ (regionOf w 64).tileBytes
           ∧ slookup (regionOf w 64).near ((4096 * 0 + 4094) / (regionOf w 64).tileBytes) = some { data := [(0, 5)] } ∧ (regionOf d 64).serves = false ∧ up.mem.wb = []) := by
  unfold Claims.eventsFlow
  decide +kernel

/-! ### Start-up and resets -/

/-- Boot at a stage, with both firmware slots good, before the host port trains. -/
def booting (n : Nat) : State :=
  { up with
    boot := { up.boot with stage := n, ready := false, published := true, slots := [(0, ⟨0, true, true, true, 1, true, 1, 0, 0⟩), (1, ⟨1, true, true, true, 1, true, 1, 1, 0⟩)] }
    flt := { up.flt with trip := some (67, 115) }, port := { up.port with trained := false } }

theorem witness_StartUp :
    State.reset.pins.pwrok = false ∧ (∀ n ∈ [1, 2, 3, 4, 5, 6, 7], atStage n (booting n) = true)
      ∧ (∀ r ∈ [1, 2 ^ 16 - 1], r < 2 ^ 16 ∧ r ≠ 0) ∧ (∀ p ∈ [1, 2, 3], p < 4 ∧ p ≠ 0)
      ∧ (bootCfg (booting 2)).prefSlot = 0 ∧ slotGood (booting 2) 0 0 = true ∧ slotGood (booting 2) 1 0 = false ∧ slotGood (booting 2) 1 1 = true
      ∧ slotGood (booting 2) 3 0 = false ∧ slotGood (booting 2) 3 1 = false ∧ (slookup (booting 2).boot.slots 1).isSome = true
      ∧ (∀ k ∈ [1, 2 ^ 16 - 1], k ≠ 0 ∧ k < 2 ^ Config.stackCount (booting 4).part) ∧ (booting 7).boot.published = true ∧ (booting 7).pins.perstN = true
      ∧ (∀ n ∈ [0, 575], n < 9 * Config.crews (booting 5).part) ∧ (∀ c ∈ [0, 63], c < Config.crews (booting 5).part)
      ∧ (∀ n ∈ [1, 2, 3, 4, 5, 6, 7], atStage n (booting 0) = false) ∧ (booting 1).pins.pwrok = true
      ∧ (let xs : List (Nat × Expander) := [(3, ⟨1, true, false, true, 64, true, true, true, true, true, true⟩), (0, ⟨2, true, false, true, 63, true, true, true, true, true, true⟩)]
         (∀ x ∈ xs, x.1 < Config.farPorts (booting 6).part) ∧ (xs.map Prod.fst).Nodup) := by decide +kernel

theorem witness_PackageResets :
    up.pins.pwrok = true ∧ (booting 1).pins.pwrok = true ∧ stocked.pins.pwrok = true ∧ up.mem.wb = [] ∧ State.reset.pins.pwrok = false := by decide +kernel

theorem witness_HostReset : stocked.pins.perstN = true ∧ stocked.pins.pwrok = true ∧ stocked.clk.stopped = false ∧ stocked.srv.convs ≠ [] ∧ stocked.obj.models ≠ []
      ∧ stocked.boot.evq.length + 64 ≤ 4096 ∧ ({ stocked with boot := { stocked.boot with evq := List.replicate 4032 .strokeBound } } : State).boot.evq.length + 64 = 4096
      ∧ ({ stocked with clk := { stocked.clk with stopped := true } } : State).clk.stopped = true ∧ State.reset.pins.perstN = false := by decide +kernel

theorem witness_FunctionReset :
    ∀ s ∈ [up, ioUp, { ioUp with srv := { ioUp.srv with convs := [{ fn := 0, id := 7, st := .paused }] } }],
      s.boot.evq.length < 4096 ∧ risingKeys s.port.rings = true ∧ risingKeys s.port.fns = true ∧ (∀ x ∈ s.srv.slots, x.2.fn ≠ 0)
        ∧ (∃ x ∈ (oneRun 0x10).srv.slots, x.2.fn = 0) ∧ (oneRun 0x10).boot.evq.length < 4096 := by decide +kernel


/-! ### Serving and power -/

/-- A request of ring 0 of the physical function in a state, with work. -/
def asked (st : SlotState) (w : Work) : Request :=
  { fn := 0, ring := 0, tag := 0xFFFFFFFE, opcode := 0x0B, prio := 0, entry := 0, fetchSeq := 5, tFetch := 0, st := st, work := w }

/-- The request alone, in slot 3, with a stroke open in which it was admitted; index 3 holds one item and table 5 four rows. -/
def alone (r : Request) : State :=
  { ringUp with
    srv := { ringUp.srv with slots := [(3, r)], strokeSince := some 7, admitted := [3] }
    mem := { ringUp.mem with regions := [(9, { size := 0x1000#64, cfg := 0x400001#64, st := .active })] }
    obj := { ringUp.obj with tables := [{ oid := 5, rows := 4, rowBytes := 4, region := 9 }], indexes := [{ oid := 3, idCap := 4, items := [⟨1, 0, [], .full 0⟩] }] } }

/-- The same before a stroke. -/
def waitingFor (r : Request) : State := { alone r with srv := { (alone r).srv with strokeSince := none, admitted := [] } }

theorem witness_BoundaryDecisions :
    let x := asked .ready (.merge 3 0)
    let xs := [(0, { x with prio := 3 }), (1, x), (2, { x with prio := 2, fetchSeq := 4 })]
    let s := { alone x with srv := { (alone x).srv with slots := xs } }
    (∀ x ∈ xs, x.2.prio ≤ 3) ∧ s.gov.throttling = false ∧ isUrgent s 1 = true ∧ isUrgent s 0 = false ∧ State.reset.gov.throttling = false
      ∧ ({ s with gov := { s.gov with throttling := true } } : State).gov.throttling = true := by decide +kernel

theorem witness_StrokesRun :
    (canCompose up = true ∧ up.net.nextEpoch = none ∧ up.srv.holds = [] ∧ up.srv.slots = [])
      ∧ (let r := asked .queued (.install (.serving 500 1)); let s := waitingFor r
         canCompose s = true ∧ s.net.nextEpoch = none ∧ s.srv.holds = [] ∧ s.srv.slots = [(3, r)] ∧ r.aborted = false ∧ r.promote = false ∧ convName r = 0
           ∧ (∀ d < 8, (estOf ⟨[⟨3, [8000000, 0, 8000000], [], false, false, true⟩], []⟩ 3).dieNs.getD d 0 ≤ 8000000))
      ∧ (∀ r ∈ [{ asked .running (.install (.serving 500 1)) with aborted := true }, { asked .ending (.install (.serving 500 1)) with status := 0x1C },
             asked .running (.install (.serving 500 1)), asked .running (.install (.arbitration 0 0)), asked .running (.rowWrite 5 [(0, [1, 1, 1, 1]), (3, [2, 2, 2, 2])])], let s := alone r
         clocksRun s = true ∧ fwRunning s = true ∧ s.srv.strokeSince ≠ none ∧ s.net.shell ≠ .ending ∧ s.srv.slots = [(3, r)] ∧ s.srv.admitted = [3] ∧ (∀ c ∈ s.cores, c.2.launch = none)
           ∧ Claims.nothingWaits s ∧ Claims.canPost s ⟨r.fn, r.ring⟩ ∧ r.silent = false ∧ (r.st = .running → r.endsStage = true))
      ∧ (let s := alone (asked .running (.rowWrite 5 []))
         let tab := tableOf s 5
         ([(0, [1, 1, 1, 1]), (3, [2, 2, 2, 2])].map (fun y : Nat × List Byte => y.1 / tab.shardCount)).Nodup ∧ tab.rowBytes = 4 ∧ ∃ x ∈ s.obj.tables, x.oid = 5) := by
  unfold Claims.nothingWaits Claims.canPost
  decide +kernel

/-- No vector waits to move in these states (StrokesRun, SideListLimit). -/
theorem witness_vectorsSettled (r : Request) : Claims.vectorsSettled (alone r) := by
  intro x hx it hit
  have e : x = { oid := 3, idCap := 4, items := [⟨1, 0, [], .full 0⟩] } := List.mem_singleton.1 hx
  subst e
  exact ⟨0, congrArg IxItem.loc (List.mem_singleton.1 hit)⟩

/-- An insert and a delete of items, one live and one not. -/
theorem witness_SideListLimit :
    ∀ r ∈ [asked .running (.insert 3 [(⟨2, 0, [], .side 0⟩, [])]), asked .running (.delete 3 [1, 9])], let s := alone r
      clocksRun s = true ∧ fwRunning s = true ∧ s.srv.strokeSince ≠ none ∧ s.net.shell ≠ .ending ∧ s.srv.slots = [(3, r)] ∧ s.srv.admitted = [3]
        ∧ (∀ c ∈ s.cores, c.2.launch = none) ∧ Claims.nothingWaits s ∧ Claims.canPost s ⟨r.fn, r.ring⟩ ∧ r.silent = false ∧ r.aborted = false ∧ r.endsStage = true
        ∧ (∃ x ∈ s.obj.indexes, x.oid = 3) := by
  unfold Claims.nothingWaits Claims.canPost
  decide +kernel

/-- The premises hold whatever the side list's length, the limit among them (no index has items, so that no vector waits to move). -/
theorem witness_SideListLimit_any (side : List SideEntry) (items : List (IxItem × List Byte)) :
    let r := asked .running (.insert 3 items); let s0 := alone r
    let s : State := { s0 with obj := { s0.obj with indexes := [{ oid := 3, side := side }] } }
    clocksRun s = true ∧ fwRunning s = true ∧ s.srv.strokeSince ≠ none ∧ s.net.shell ≠ .ending ∧ s.srv.slots = [(3, r)] ∧ s.srv.admitted = [3]
      ∧ (∀ c ∈ s.cores, c.2.launch = none) ∧ Claims.nothingWaits s ∧ Claims.canPost s ⟨0, 0⟩ ∧ (∃ x ∈ s.obj.indexes, x.oid = 3) ∧ (indexOf s 3).side = side := by
  refine ⟨rfl, rfl, by simp [alone], (show ShellState.solo ≠ .ending by decide), rfl, rfl, by simp [alone, ringUp, setRing, up, State.reset], ⟨rfl, rfl⟩, ?_, ⟨_, List.mem_singleton.2 rfl, rfl⟩, rfl⟩
  unfold Claims.canPost
  exact ⟨show bitOf (ringOf ringUp (cqOf ringUp ring0)).cfg 19 = false by decide +kernel, rfl⟩

/-- A package with a paused conversation that expires now, and requests that wait in slots 3 and 4 for a page and for a far tile. -/
def expiring : State :=
  let s := alone { asked .waiting (.merge 3 0) with prio := 1, wait := 3, holdPages := 64 }
  { s with
    srv := { s.srv with slots := s.srv.slots ++ [(4, { asked .waiting (.merge 3 0) with prio := 3, wait := 4 })], convs := [{ fn := 63, id := 7, st := .paused, expirySec := 5, expiryFrac := 1 }] }
    cal := { s.cal with sec := 5, frac := 1 }, clk := { s.clk with ts := 50000000 } }

theorem witness_RequestEvents :
    let s := expiring
    let r := { asked .waiting (.merge 3 0) with prio := 1, wait := 3, holdPages := 64 }
    let f := { asked .waiting (.merge 3 0) with prio := 3, wait := 4 }
    slotOf s 3 = some r ∧ slotOf s 4 = some f ∧ clocksRun s = true ∧ s.srv.pageWait ≤ r.holdPages ∧ Claims.nothingWaits s ∧ Claims.canPost s ⟨0, 0⟩ ∧ r.silent = false
      ∧ risingKeys s.srv.slots = true ∧ r.aged = false ∧ r.tFetch + 10000 * fieldOf s.port.ageNow 15 0 ≤ s.clk.ts ∧ f.tFetch + 10000 * fieldOf s.port.ageNow 47 32 ≤ s.clk.ts
      ∧ s.gov.st ≠ .retain ∧ convOf s 63 7 = some { fn := 63, id := 7, st := .paused, expirySec := 5, expiryFrac := 1 } ∧ Claims.eventsFlow s := by
  unfold Claims.nothingWaits Claims.canPost Claims.eventsFlow
  decide +kernel

/-- What the sensors report at a temperature of every die, with energy e of every rail. -/
def sensed (t : Int) (e : Nat) : SensorData := ⟨List.replicate 9 t, List.replicate 9 t, List.replicate 9 (-128), List.replicate 9 e⟩

/-- A package after a sample at a temperature. -/
def heated (t : Int) : State := (run (.sensorSample (sensed t 4000)) { up with gov := { up.gov with throttling := true } }).getD up

theorem witness_GovernorEvents :
    pfWrite (wr 0) up = true ∧ (∀ t ∈ [-128, 94, 95, 97, 101, 102, 127], sampleOk (sensed t 4000) = true) ∧ up.pins.pwrok = true
      ∧ ((∀ d ∈ sensedDies up, 97 + 5 ≤ dieTemp (heated 102) d) ∧ (∀ d ∈ sensedDies up, dieTemp (heated 94) d < 97 - 2) ∧ (∀ d ∈ sensedDies up, dieTemp (heated 95) d = 97 - 2)
          ∧ sensedDies up ≠ [])
      ∧ (let p : State := { up with gov := { up.gov with samples := [26001] } }
         clocksRun p = true ∧ 10 * p.gov.peakW < p.gov.samples.headD 0)
      ∧ sensorOk up 67 = true ∧ sensorOk up 61 = true ∧ sensorOk up 62 = false ∧ up.pins.thermtripN = true
      ∧ (∀ d ∈ [Config.peakMinW .dv8 * 2 ^ 48 + Config.sustainedMinW .dv8 * 2 ^ 32, Config.sustainedMinW .dv8 * 2 ^ 32, Config.peakMinW .dv8 * 2 ^ 48],
          pfWrite (wr d) up = true) := by decide +kernel

/-- A package in a power state, with a power-state entry in slot 0 and another request in slot 3. -/
def leavingTo (st target : PwrState) (force : Bool) : State :=
  let s := alone (asked .running (.install (.serving 500 1)))
  { s with
    srv := { s.srv with slots := (0, asked .queued (.power 1)) :: s.srv.slots }
    gov := { s.gov with st := st, target := target, draining := st == .active, force := force, exitFrom := if target = .retain then 2 else 1 }, clk := { s.clk with ts := 1000, retainFrom := 900 } }

theorem witness_PowerTransitions :
    (let s := leavingTo .active .standby false
     clocksRun s = true ∧ s.gov.draining = true ∧ s.gov.force = false ∧ powerSlots s = [(0, 1)] ∧ slotOf s 0 = some (asked .queued (.power 1)) ∧ s.srv.holds = [] ∧ Claims.canPost s ⟨0, 0⟩
       ∧ risingKeys s.srv.slots = true)
      ∧ (let s := leavingTo .active .standby true
         s.gov.draining = true ∧ s.gov.force = true ∧ s.srv.strokeSince ≠ none ∧ s.srv.slots.length ≠ 1)
      ∧ (leavingTo .entering .standby false).gov.st = .entering ∧ (leavingTo .entering .standby false).gov.target = .standby ∧ (leavingTo .entering .retain false).gov.target = .retain
      ∧ (∀ c, (dmaOf (leavingTo .entering .retain false) c).st ≠ .running)
      ∧ (∀ x ∈ [leavingTo .exiting .standby false, leavingTo .exiting .retain false], x.gov.st = .exiting ∧ x.gov.deferredRestart = 0 ∧ clocksRun x = true ∧ x.clk.retainFrom ≤ x.clk.ts ∧ x.boot.evq.length < 4096)
      ∧ (leavingTo .exiting .standby false).gov.exitFrom = 1 ∧ (leavingTo .exiting .retain false).gov.exitFrom = 2 ∧ 1000 ≤ 900 + 100 ∧ 900 + 99 < 1000
      ∧ up.gov.draining = false ∧ up.gov.st ≠ .entering ∧ up.gov.st ≠ .exiting := by
  unfold Claims.canPost
  refine ⟨by decide +kernel, by decide +kernel, by decide +kernel, by decide +kernel, by decide +kernel, fun c => ?_, by decide +kernel, by decide +kernel, by decide +kernel, by decide, by decide, by decide, by decide, by decide⟩
  change ((({} : Dma)).st ≠ DmaState.running)
  decide


/-! ### Links, regattas and shells -/

/-- A member of a regatta of packages 0, 1 and 2, led by package 0, with ports 0 and 1 up to the others; port 0 lies on both routes. -/
def linked : State :=
  { up with
    net := { up.net with
      ports := [(0, { enable := true, linkUp := true, width := 8 }), (1, { enable := true, linkUp := true, width := 4, width4 := true })]
      st := .member, members := [0, 1, 2], leader := 0, epoch := 3, pkgNum := 0
      route := [(1, 0x101), (2, 0x103)], unacked := [⟨{ frame 0 with src := 0, dst := 1, seq := 4 }, 0, 0, 7⟩, ⟨{ frame 0 with src := 0, dst := 2, seq := 9 }, 1, 0, 8⟩] }
    clk := { up.clk with ts := 200000000 } }

theorem witness_LinkPorts :
    let s := setNlPort linked 7 { training := true, width4 := true }
    isPort s 7 = true ∧ pfWrite (wr 0) s = true ∧ clocksRun s = true ∧ (nlPortOf s 7).training = true ∧ (nlPortOf s 0).linkUp = true ∧ (nlPortOf s 0).medium < 4
      ∧ (∀ x ∈ [(0x01, 0), (0x31, 0), (0x48, 6), (0x79, 6), (0x80, 7), (0xFF, 7)], bitOf (wr x.1).data x.2 = true) := by decide +kernel

/-- A frame to package 0 of kind k from package 1 with a sequence number. -/
def from1 (k seq : Nat) : Frame := { frame k with seq := seq }

theorem witness_Frames :
    let s := linked
    let w : State := { s with net := { s.net with rxSeq := [(1, 2 ^ 32 - 1)] } }
    (∀ k ∈ [0, 1, 2, 3], frameOk s 0 { from1 k 0 with fecOk := false } = true) ∧ clocksRun s = true ∧ (nlPortOf s 0).linkUp = true
      ∧ (∀ f ∈ [from1 0 0, from1 0 1, from1 0 (2 ^ 31 - 1), from1 0 (2 ^ 31), from1 0 (2 ^ 32 - 1), from1 1 4, from1 2 0, from1 3 0], frameOk s 0 f = true ∧ f.fecOk = true
          ∧ frameGood 0 f s = true ∧ f.dst = s.net.pkgNum)
      ∧ frameOk w 0 (from1 0 (2 ^ 32 - 1)) = true ∧ sgetD w.net.rxSeq 1 0 = 2 ^ 32 - 1 ∧ sgetD s.net.rxSeq 1 0 = 0 ∧ s.net.early = [] ∧ pickPort s 1 = some 0
      ∧ (1 + 2 ^ 32 - 0) % 2 ^ 32 < 2 ^ 31 ∧ (2 ^ 31 - 1 + 2 ^ 32 - 0) % 2 ^ 32 < 2 ^ 31 ∧ 2 ^ 31 ≤ (2 ^ 31 + 2 ^ 32 - 0) % 2 ^ 32
      ∧ (∀ h ∈ [0, 1, 15], let f := { from1 0 0 with dst := 2, hops := h }
          frameOk s 0 f = true ∧ frameGood 0 f s = true ∧ f.dst ≠ s.net.pkgNum ∧ (pickPort s f.dst).isSome = true)
      ∧ s.net.unacked.find? (fun y => y.frame.dst == 1 && y.frame.seq == 4) = some ⟨{ frame 0 with src := 0, dst := 1, seq := 4 }, 0, 0, 7⟩
      ∧ s.net.unacked.find? (fun y => y.frame.dst == 2 && y.frame.seq == 9) = some ⟨{ frame 0 with src := 0, dst := 2, seq := 9 }, 1, 0, 8⟩
      ∧ 2 ∉ s.net.shellPkgs ∧ Claims.eventsFlow s ∧ s.net.shellPkgs = []
      ∧ (let m : State := { s with net := { s.net with leader := 1 } }
         m.net.leader ≠ m.net.pkgNum ∧ m.net.st = .member ∧ pickPort m m.net.leader = some 0) := by
  unfold Claims.eventsFlow
  decide +kernel

theorem witness_RegattaMembership :
    (let w := wr 0xFFFFFFFF00008FFF
     pfWrite w up = true ∧ bitOf w.data 11 = true ∧ bitOf w.data 12 = false ∧ up.net.st = .alone ∧ up.net.pkgNum < 2048 ∧ up.net.regattaId < 2 ^ 32)
      ∧ (pfWrite (wr 0x1000) linked = true ∧ bitOf (wr 0x1000).data 12 = true ∧ bitOf (wr 0x1000).data 11 = false ∧ linked.net.st = .member ∧ linked.net.leader = linked.net.pkgNum)
      ∧ (let j : State := { linked with net := { linked.net with st := .joining, joinAt := some 100000000 } }
         let d : State := { j with net := { j.net with ports := [] } }
         clocksRun j = true ∧ anyPortUp j = true ∧ anyPortUp d = false ∧ d.net.st = .joining ∧ d.net.joinAt = some 100000000 ∧ 100000000 + 100000000 ≤ d.clk.ts
           ∧ j.net.joinAt = some 100000000 ∧ 100000000 + 10000000 ≤ j.clk.ts)
      ∧ (∀ c ∈ [(5, true, true), (2, false, false)], let s : State := { linked with net := { linked.net with changes := [c] } }
         clocksRun s = true ∧ s.net.st = .member ∧ s.net.nextEpoch = none ∧ s.net.changes = [c])
      ∧ (∀ o ∈ ([-(2 ^ 31), -41, -40, 0, 40, 41, 2 ^ 31 - 1] : List Int), -(2 ^ 31) ≤ o ∧ o < 2 ^ 31)
      ∧ linked.net.stepped = false ∧ linked.net.master = false
      ∧ ({ linked with net := { linked.net with goodExchanges := 2, stepped := true } } : State).net.goodExchanges = 2 := by decide +kernel

/-- The lead of shell 5 of packages 0 and 1, in a shell state, with a restart behind it. -/
def shelled (st : ShellState) : State :=
  { linked with net := { linked.net with shell := st, shellId := 5, memberCount := 2, shellPkgs := [0, 1], restarts := [1000], readyMembers := [0] } }

/-- A stroke 8 ms old in which core 0 stands at a WAIT for a count of 1 of number 3, for which sync object 1023 of its crew stands. -/
def stalled : State :=
  let s := setCore launched 0 { coreOf launched 0 with
    sregs := [(0, 1)], launch := (coreOf launched 0).launch.map (fun l => { l with prog := [BitVec.ofNat 64 (0x51 * 2 ^ 56 + 3)] }) }
  let s := setCrew s 0 { crewOf s 0 with syncMap := [(1023, (0, 0, 3))] }
  { s with clk := { s.clk with ts := 8000000 } }

theorem witness_RestartEvents :
    (∀ s ∈ [up, shelled .formed], risingKeys s.srv.slots = true ∧ clocksRun s = true ∧ s.boot.act ≠ .held ∧ s.boot.evq.length < 4096 ∧ 4 ≤ s.boot.stage)
      ∧ (clocksRun stalled = true ∧ Claims.eventsFlow stalled ∧ stalled.srv.strokeSince = some 0 ∧ 0 + 8000000 ≤ stalled.clk.ts ∧ waitOpen stalled 0 1023 = true
          ∧ 0 < Config.crews stalled.part ∧ waitOpen stalled 0 1022 = false ∧ waitOpen stalled 63 1023 = false ∧ up.srv.strokeSince = none)
      ∧ (∀ s ∈ [up, leavingTo .exiting .standby false], clocksRun s = true ∧ Claims.eventsFlow s ∧ 4 ≤ s.boot.stage) ∧ (leavingTo .exiting .standby false).gov.st ≠ .active
      ∧ (booting 3).boot.stage < 4 ∧ clocksRun (booting 3) = true ∧ Claims.eventsFlow (booting 3)
      ∧ (∀ d ∈ [none, some 0, some (Config.dies up.part - 1)], let f : FaultReport := ⟨0x22, 8, 65535, 1, 2, true, d⟩
          f.unitKind ≤ 8 ∧ f.unit < 2 ^ 16 ∧ f.code ∈ [0x20, 0x21, 0x22, 0x23, 0x24, 0x30, 0x31, 0x40, 0x50] ∧ (∀ x ∈ d, x < Config.dies up.part))
      ∧ (∀ g ∈ [1, 8, 9], ((up.clk.ts :: List.replicate (g - 1) up.clk.ts).filter (fun x => decide (up.clk.ts < x + 1000000000))).length = g)
      ∧ (∀ n ∈ [5, 6], let f := { from1 2 0 with control := .restart n }
          frameOk (shelled .formed) 0 f = true ∧ f.fecOk = true ∧ frameGood 0 f (shelled .formed) = true ∧ f.dst = (shelled .formed).net.pkgNum)
      ∧ (let f := { from1 2 0 with control := .restart 5 }
         frameOk (shelled .formed) 0 { f with fecOk := false } = true ∧ (nlPortOf (shelled .formed) 0).linkUp = true
           ∧ frameOk (shelled .formed) 0 { f with dst := 2 } = true ∧ ({ f with dst := 2 } : Frame).dst ≠ (shelled .formed).net.pkgNum
           ∧ frameOk (shelled .formed) 7 f = true ∧ frameGood 7 f (shelled .formed) = false)
      ∧ (shelled .solo).net.shell ≠ .formed ∧ (shelled .solo).net.shell ≠ .restarting
      ∧ (shelled .formed).net.shell = .formed ∧ (shelled .formed).net.shellId = 5 := by
  unfold Claims.eventsFlow
  decide +kernel

/-- A shell of two that forms, with a member's SHELL_JOIN in slot 3 and the members that have joined. -/
def joining (joined : List Nat) (slots : List (Nat × Request)) : State :=
  let j := shelled .joining
  { waitingFor (asked .queued .shellJoin) with net := { j.net with joined := joined }, clk := j.clk, srv := { j.srv with slots := slots } }

/-- Every member has joined or not, with a SHELL_JOIN that waits and with none. -/
theorem witness_ShellForms :
    ∀ slots ∈ [[], [(3, asked .queued .shellJoin)]], ∀ all ∈ [true, false], let s := joining (if all then [1, 0] else []) slots
      clocksRun s = true ∧ s.net.shell = .joining ∧ Claims.nothingWaits s ∧ allJoined s = all ∧ s.net.joinLimit ≤ s.clk.ts ∧ (slots = [] → joinSlots s = []) ∧ s.srv.slots = slots
        ∧ Claims.canPost s ⟨0, 0⟩ ∧ (ringOf s ⟨0, 0⟩).st = .active ∧ (asked .queued .shellJoin).silent = false ∧ up.net.shell ≠ .joining
        ∧ (let early : State := { s with net := { s.net with joinLimit := s.clk.ts + 1 } }
           early.clk.ts < early.net.joinLimit) := by
  unfold Claims.nothingWaits Claims.canPost
  decide +kernel

/-- Members 0 and 1 of a restart, of which 0 is ready; members 1 of the shell and 2 outside it lost, each in one that leads and one that does not. -/
theorem witness_ShellMembership :
    (let s := shelled .restarting
     clocksRun s = true ∧ s.net.shell = .restarting ∧ isLead s = true ∧ 1 < s.net.memberCount ∧ 1 ∉ s.net.readyMembers ∧ s.net.restarts.headD 0 + 100000000 ≤ s.clk.ts
       ∧ s.net.shellPkgs[1]? = some 1 ∧ (∀ k < s.net.memberCount, k ≠ 1 → k ∈ s.net.readyMembers) ∧ Claims.eventsFlow s ∧ 0 ∈ s.net.readyMembers)
      ∧ (let s := shelled .formed
         (∀ p ∈ [1, 2], p ≠ s.net.pkgNum ∧ sgetD s.net.heard p 0 + 1000000 ≤ s.clk.ts) ∧ 2 ∈ s.net.members ∧ 2 ∉ s.net.shellPkgs ∧ s.net.leader = s.net.pkgNum ∧ 1 ∈ s.net.shellPkgs
           ∧ s.net.shell ≠ .solo ∧ Claims.eventsFlow s ∧ s.srv.strokeSince = none ∧ 3 ∉ s.net.members ∧ 3 ∉ s.net.shellPkgs ∧ 1 ∈ s.net.members ∧ 1 ≠ s.net.pkgNum)
      ∧ ({ shelled .formed with srv := { up.srv with strokeSince := some 5 } } : State).srv.strokeSince ≠ none
      ∧ (shelled .formed).clk.ts < sgetD [(1, (shelled .formed).clk.ts - 999999)] 1 0 + 1000000 := by
  unfold Claims.eventsFlow
  decide +kernel

/-! ### Silent errors, firmware, board management and registers -/

/-- A package with a check sample of core 0, and one of core 9 that core 18 has re-run; core 575 is in TESTING. -/
def sampled : State :=
  { setCrew up 63 { crewOf up 63 with testing := 0x100 } with
    flt := { up.flt with samples := [⟨1, 0, 0, 0, 7, 1, 1, 1, [], 0, 0, none, []⟩, ⟨2, 9, 0, 0, 7, 1, 1, 1, [], 0, 0, some 18, [3]⟩] }
    clk := { up.clk with ts := 1000000000 } }

/-- A DV2 in which only crews 0 and 1 serve, with the same samples. -/
def cornered : State :=
  { sampled with part := .dv2, crews := (List.range 14).map (fun k => (k + 2, { sramFailed := true })) }

/-- Core n, or the SRAM of crew n, in TESTING, with HIST_LIMIT events behind it or none. -/
def tested (u : UnitRef) (events : Nat) : State :=
  let s := match u with
    | .core n => setCrew up (n / 9) { crewOf up (n / 9) with testing := 2 ^ (n % 9) }
    | .crew n => setCrew up n { crewOf up n with sramTesting := true }
  { s with flt := { s.flt with history := List.replicate events ⟨{}, {}, 0, true, some u, 0⟩ } }

theorem witness_SilentErrors :
    let s := sampled
    (∃ x, sampleOf s 1 = some x ∧ x.checker = none ∧ x.core = 0 ∧ x.takenAt + 1000000000 ≤ s.clk.ts) ∧ 9 < 9 * Config.crews s.part ∧ clocksRun s = true ∧ coreServes s 9 = true ∧ 9 / 9 ≠ 0 / 9
      ∧ inWatch s (.core 0) = false ∧ inWatch s (.crew 0) = false ∧ arbiterCrews s 0 1 ≠ [] ∧ ([3] : List Nat).Nodup
      ∧ (∃ x, sampleOf s 2 = some x ∧ x.checker = some 18 ∧ x.core = 9) ∧ coreServes s 0 = true ∧ 0 / 9 ≠ 9 / 9 ∧ 0 / 9 ≠ 18 / 9 ∧ Claims.eventsFlow s ∧ inWatch s (.core 18) = false
      ∧ unitOut s (.core 18) = false ∧ inTesting s (.core 575) = true ∧ windowEvents s (.core 575) < fieldOf s.flt.ctl 27 24
      ∧ (let w := setCrew s 0 { crewOf s 0 with watch := 1 }
         inWatch w (.core 0) = true ∧ sgetD (crewOf w 0).clean 0 0 + 1 < fieldOf w.flt.ctl 39 28 ∧ sampleOf w 1 = sampleOf s 1)
      ∧ (let w := setCrew s 0 { crewOf s 0 with watch := 1, clean := [(0, fieldOf s.flt.ctl 39 28 - 1)] }
         fieldOf w.flt.ctl 39 28 ≤ sgetD (crewOf w 0).clean 0 0 + 1)
      ∧ (arbiterCrews cornered 0 1 = [] ∧ coreServes cornered 9 = true ∧ clocksRun cornered = true ∧ Claims.eventsFlow cornered ∧ sampleOf cornered 1 = sampleOf s 1
          ∧ 9 < 9 * Config.crews cornered.part ∧ coreServes cornered 18 = false)
      ∧ (let w := setCrew s 2 { crewOf s 2 with watch := 1 }
         inWatch w (.core 18) = true ∧ sampleOf w 2 = sampleOf s 2 ∧ coreServes w 0 = true ∧ clocksRun w = true ∧ Claims.eventsFlow w)
      ∧ (let w : State := { s with clk := { s.clk with ts := 999999999 } }
         ∃ x, sampleOf w 1 = some x ∧ w.clk.ts < x.takenAt + 1000000000) ∧ sampleOf s 3 = none
      ∧ (∀ u ∈ [UnitRef.core 575, .crew 63], ∀ k ∈ [0, 15], let t := tested u k
          clocksRun t = true ∧ inTesting t u = true ∧ Claims.eventsFlow t ∧ (k = 0 → windowEvents t u < fieldOf t.flt.ctl 27 24) ∧ (k = 15 → fieldOf t.flt.ctl 27 24 ≤ windowEvents t u))
      ∧ inTesting up (.core 575) = false ∧ inTesting up (.crew 63) = false := by
  unfold Claims.eventsFlow
  decide +kernel

/-- A request that activates the firmware of slot 1, with the activation at a point. -/
def activating (act : ActState) (events : Nat) : State :=
  let s := waitingFor { asked .queued (.activate 1) with opcode := 0x0D }
  { s with
    boot := { s.boot with act := act, actSlot := 1, slots := [(1, ⟨1, true, true, true, 1, true, 2, 0, 0⟩)], evq := List.replicate events .strokeBound }, clk := { s.clk with ts := 100000000 } }

theorem witness_FirmwareActivation :
    (let s := activating .loaded 2047
     s.boot.act = .loaded ∧ s.srv.strokeSince = none ∧ s.gov.st = .active ∧ s.boot.evq.length < 2048)
      ∧ (let s := activating .held 0; let r := { asked .queued (.activate 1) with opcode := 0x0D }
         clocksRun s = true ∧ s.srv.slots = [(3, r)] ∧ r.silent = false ∧ Claims.nothingWaits s ∧ Claims.canPost s ⟨0, 0⟩ ∧ s.boot.act = .held ∧ s.boot.evq = [] ∧ s.srv.convs = []
           ∧ slookup s.boot.slots s.boot.actSlot = some ⟨1, true, true, true, 1, true, 2, 0, 0⟩ ∧ s.boot.actSince + 100000000 ≤ s.clk.ts ∧ s.gov.st = .active
           ∧ bitOf s.flt.ctl 0 = false)
      ∧ (let s := activating .loaded 2048
         s.boot.act = .loaded ∧ 2048 ≤ s.boot.evq.length ∧ clocksRun s = true ∧ Claims.nothingWaits s ∧ Claims.canPost s ⟨0, 0⟩
           ∧ s.srv.slots = [(3, { asked .queued (.activate 1) with opcode := 0x0D })])
      ∧ up.boot.act ≠ .loaded ∧ up.boot.act ≠ .held
      ∧ (let s := activating .held 0
         ({ s with clk := { s.clk with ts := 99999999 } } : State).clk.ts < s.boot.actSince + 100000000) := by
  unfold Claims.nothingWaits Claims.canPost
  decide +kernel

theorem witness_BoardManagement :
    clocksRun up = true ∧ 1 ≠ up.boot.activeSlot ∧ 0 = up.boot.activeSlot ∧ up.boot.cfg0.valid = false
      ∧ (let c : State := { up with boot := { up.boot with cfg0 := ⟨true, 2 ^ 32 - 1, 1, 2⟩ } }
         c.boot.cfg0.valid = true ∧ c.boot.cfg1.valid = false ∧ clocksRun c = true)
      ∧ (let h : State := { up with flt := { up.flt with history := [⟨{}, {}, 0, true, none, 1⟩] } }
         h.flt.history[0]? = some ⟨{}, {}, 0, true, none, 1⟩)
      ∧ ({ up with pins := { up.pins with tapState := 4 } } : State).pins.tapState = 4 ∧ 127 ≠ 0x4D
      ∧ up.flt.history[0]? = none ∧ clocksRun State.reset = false ∧ State.reset.pins.pwrok = false ∧ up.pins.pwrok = true ∧ (∀ k < 16, (Claims.tapTable[k]?).isSome = true) := by decide +kernel

theorem witness_RegisterWrites :
    hostUp up = true ∧ fnPresent up 0 = true ∧ fnPresent up 1 = false ∧ hostUp State.reset = false
      ∧ (let v : State := { up with port := { up.port with vfEnable := true, numVfs := 63, alloc := [(0, 1), (63, 64)] } }
         v.boot.evq.length + 63 ≤ 4096 ∧ fnPresent v 63 = true ∧ hostUp v = true ∧ v.port.trained = true ∧ v.clk.stopped = false ∧ ringExists v ⟨63, 63⟩ = true ∧ (ringOf v ⟨63, 63⟩).st = .disabled)
      ∧ (∀ o ∈ [0x10000, 0x10008, 0x10018, 0x10020, 0x10028, 0x80000, 0xB0000, 0xFFF8, 0x11000 + 64 * 63, 0x50100 + 8 * 31], o < 2 ^ 26 ∧ o % 8 = 0) ∧ (0x10001 % 8 ≠ 0)
      ∧ ringExists up ⟨0, 1024⟩ = false ∧ State.reset.port.trained = false
      ∧ (ringOf ringUp ring0).st ≠ .disabled ∧ up.cal.powered = true ∧ up.srv.convs = [] ∧ up.port.vfEnable = false ∧ up.port.trained = true := by decide +kernel

/-- Offsets just past a group of registers take no writes; ARB_WEIGHT does in window 0 of the physical function alone. -/
theorem witness_ignoredWrites : (∀ o ∈ [0xFFF8, 0x11020, 0x20400, 0x40200, 0x10300, 0x50200, 0x1000000], ¬Claims.takesWrites 0 o)
    ∧ ¬Claims.takesWrites 1 0x10020 ∧ Claims.takesWrites 0 0x10020 := by
  simp [Claims.takesWrites]

/-! ### Behaviour: the manual's worked examples and corner cases -/

/-- The trie of R90's example: "!", "c", "ca" (812) and "caf" (4410); byte b maps to token 3 + b. -/
def vocabA : Vocab :=
  { byteMap := (List.range 256).map (3 + ·)
    nodes := [⟨0xFFFFFFFF, 1, 2, 0⟩, ⟨36, 0, 0, 0x21⟩, ⟨102, 3, 1, 0x63⟩, ⟨812, 4, 1, 0x61⟩, ⟨4410, 0, 0, 0x66⟩] }

/-- 03_text_engine.md, longest match with byte fallback. -/
theorem test_tokenise_cafe : tokenise vocabA [0x63, 0x61, 0x66, 0xC3, 0xA9, 0x21] = [4410, 198, 172, 36] := by decide +kernel

/-- The tokens of the grammar example under small numbers: 0 "1", 1 "12", 2 ",", 3 "]", 4 "],", 5 "]]", 6 "[", 7 "[1", 8 EOS,
and of the hold-back example: 9 "caf", 10 the byte C3, 11 the byte A9, 12 "!". -/
def vocabB : Vocab :=
  { eos := 8
    tokens := [⟨[0x31], 0⟩, ⟨[0x31, 0x32], 0⟩, ⟨[0x2C], 0⟩, ⟨[0x5D], 0⟩, ⟨[0x5D, 0x2C], 0⟩, ⟨[0x5D, 0x5D], 0⟩, ⟨[0x5B], 0⟩,
               ⟨[0x5B, 0x31], 0⟩, ⟨[], 2⟩, ⟨[0x63, 0x61, 0x66], 0⟩, ⟨[0xC3], 1⟩, ⟨[0xA9], 1⟩, ⟨[0x21], 0⟩] }

/-- 03_text_engine.md, hold-back across strokes: what is released and held after each token. -/
theorem test_hold_back :
    detokenise vocabB false [9] [] = ([0x63, 0x61, 0x66], []) ∧ detokenise vocabB false [9, 10] [] = ([0x63, 0x61, 0x66], [0xC3])
      ∧ detokenise vocabB false [11] [0xC3] = ([0xC3, 0xA9], []) ∧ detokenise vocabB false [10, 12] [] = ([0xC3, 0x21], []) := by decide +kernel

/-- The grammar of 03_text_engine.md's example. -/
def grammarA : Grammar :=
  { start := 0, maxStack := 4
    states := [⟨0, 2, false⟩, ⟨2, 3, true⟩, ⟨5, 2, true⟩]
    trans := [⟨0x5B, 0x5B, 1, 1, 0⟩, ⟨0x30, 0x39, 0, 0, 1⟩, ⟨0x30, 0x39, 0, 0, 1⟩, ⟨0x2C, 0x2C, 3, 1, 0⟩, ⟨0x5D, 0x5D, 2, 1, 2⟩,
              ⟨0x2C, 0x2C, 3, 1, 0⟩, ⟨0x5D, 0x5D, 2, 1, 2⟩] }

/-- The configuration after "[[1", its mask, and the shadow chain of "]", "]", ",". -/
theorem test_grammar_mask :
    advanceBytes grammarA [0x5B, 0x5B, 0x31] (startConfig grammarA) = some ⟨1, [1, 1]⟩
      ∧ (maskOf grammarA vocabB ⟨1, [1, 1]⟩).take 9 = [true, true, true, true, true, true, false, false, false]
      ∧ shadowChain grammarA vocabB ⟨1, [1, 1]⟩ [3, 3, 2] = [⟨1, [1, 1]⟩, ⟨2, [1]⟩, ⟨2, []⟩]
      ∧ (maskOf grammarA vocabB ⟨2, []⟩).take 9 = [false, false, false, false, false, false, false, false, true]
      ∧ advanceToken grammarA vocabB ⟨1, [1, 1]⟩ 4 = some ⟨0, [1]⟩ ∧ advanceBytes grammarA [0x5B] ⟨0, [1, 1, 1, 1]⟩ = none := by decide +kernel

/-- 04_matrix_array.md, quantising one MXFP4 block: X and the codes of 0.09, −0.07 and 0.078125. -/
theorem test_mxfp4_block :
    quantiseBlock 6 [numOf 0x3DB851EC#32, numOf 0xBD8F5C29#32, numOf 0x3DA00000#32] = (121, [7, 14, 6], [0, 0, 0]) := by decide +kernel

/-- 05_vector_engine.md, an inverse root-mean-square: the word of FMA, and MUL, ADD and RSQRT of the last iteration. -/
theorem test_inverse_rms :
    laneFieldsOf 0x0421120000000000#64 = { lf with vd := 2, va := 1, vb := 1, vc := 2 } ∧ laneOpc 0x0421120000000000#64 = 4
      ∧ fmul 0x43800000#32 0x3A800000#32 = (0x3E800000#32, 0) ∧ fadd 0x3E800000#32 0x35800000#32 = (0x3E800020#32, 0)
      ∧ frsqrt 0x3E800020#32 = (0x3FFFFFE0#32, 0) := by decide +kernel

/-- 07_vector_search.md, scoring one candidate: the INT8 query, the L2 score and the IP score. -/
theorem test_score_candidate :
    let q := prepareQuery 2 [0x3F000000#32, 0xBE800000#32, 0x3F7E0000#32, 0, 0, 0, 0, 0]
    q.scale = 0x3C000000#32 ∧ q.ints = [64, -32, 127, 0, 0, 0, 0, 0]
      ∧ (scoreInts true q 0x3C800000#32 [10, 20, -5, 7, 0, 0, 0, 0]).1 = 0x3FCBCA00#32
      ∧ (scoreInts false q 0x3C800000#32 [10, 20, -5, 7, 0, 0, 0, 0]).1 = 0xBD9EC000#32 := by decide +kernel

/-- The pairs of 08_selection.md's example. -/
def coreA : List SelPair := [⟨17, 0x3F400000⟩, ⟨4, 0xBF000000⟩, ⟨9, 0x7FC00000⟩, ⟨30, 0x3F400000⟩]
def coreB : List SelPair := [⟨5, 0x3F400000⟩, ⟨2, 0x80000000⟩, ⟨11, 0⟩]

/-- 08_selection.md: the order keys, each core's list and the crew merge with K 4. -/
theorem test_selection_ties :
    orderKey 2 0x3F400000#32 = 0xBF400000 ∧ orderKey 2 0x80000000#32 = 0x80000000 ∧ orderKey 2 0xBF000000#32 = 0x40FFFFFF ∧ orderKey 2 0x7FC00000#32 = 0
      ∧ (firstK 2 4 coreA).map SelPair.index = [17, 30, 4, 9] ∧ (firstK 2 4 coreB).map SelPair.index = [5, 2, 11]
      ∧ (let m := parseBlock (mergeBlocks 2 4 4 [⟨firstK 2 4 coreA, 4, false, true⟩, ⟨firstK 2 4 coreB, 3, false, false⟩])
         m.entries = [⟨5, 0x3F400000⟩, ⟨17, 0x3F400000⟩, ⟨30, 0x3F400000⟩, ⟨2, 0x80000000⟩] ∧ m.nanSeen = true) := by decide +kernel

/-- 08_selection.md, the same pairs in mode 1 with a threshold of 0.0. -/
theorem test_selection_threshold :
    (let u := (coreA ++ coreB).foldl pushPair { mode := 1, threshold := 0 }
     (byIndex u.buf).map SelPair.index = [2, 5, 11, 17, 30] ∧ u.passed = 5 ∧ u.nanSeen = true) := by decide +kernel

/-- 09_rerank_pack.md, the pair length in the estimate: 4.50 ms and 5.10 ms. -/
theorem test_rerank_estimate :
    let b : Binding := { seqLen := 384, leadBos := true, pairSep := true, trailEos := false, cyclesFixed := 600000, cyclesBatch := 1200000 }
    validLen b 47 140 = 189 ∧ validLen b 47 400 = 384 ∧ pairKeeps b 47 400 = (47, 335)
      ∧ pairLengthSum b 47 (List.replicate 48 271 ++ List.replicate 16 335) = (48 * 320 + 16 * 384, 64)
      ∧ rerankEst b 16 64 (48 * 320 + 16 * 384, 64) = 4500000 ∧ rerankEst b 16 64 (384, 1) = 5100000 := by decide +kernel

/-- 09_rerank_pack.md's template in small: a HEAD, a TAIL, a MARK, labels and the elements BOS, PASSAGES, QUERY. -/
def templA : Template :=
  { vocabTokens := 100, order := 0, labelCount := 2, minCut := 2
    elems := [⟨0, [1, 50]⟩, ⟨2, []⟩, ⟨1, []⟩, ⟨3, [60]⟩, ⟨4, [61]⟩, ⟨5, [62]⟩, ⟨6, [70]⟩, ⟨6, [71]⟩] }

/-- The walk: PLACED, DUPLICATE, EMPTY, then CUT to what is left. -/
theorem test_pack_walk :
    let p := packPrompt templA 18 [7, 8] [(40, [10, 11, 12]), (48, [10, 11, 12]), (56, []), (64, [20, 21, 22, 23, 24, 25])]
    p.prompt = [1, 50, 60, 70, 10, 11, 12, 61, 60, 71, 20, 21, 22, 23, 62, 61, 7, 8] ∧ p.truncated = false
      ∧ p.spans.map Span.state = [0, 2, 3, 1] ∧ p.spans.map Span.start = [4, 0, 0xFFFFFFFF, 10] ∧ p.spans.map Span.label = [0, 255, 255, 1] := by
  decide +kernel

/-- 12_memory_tiers.md, one address in the reference configuration: port 3, offset 0x4_8D15_9000. -/
theorem test_far_address :
    let p : FarPort := { capacityGib := 4096, serving := true, linkUp := true }
    let s := { up with mem := { up.mem with ports := [(0, p), (1, p), (2, p), (3, p)], mapPorts := [0, 1, 2, 3], mapInterleaved := true, mapValid := true } }
    farTotalGib s = 16384 ∧ farPlace s 0x0000001234567000 = some (3, 0x0000000048D159000) := by decide +kernel

/-- 13_embedding_tables.md, a composed table: rows of A and B for an id, and the first id out of range. -/
theorem test_composed_rows :
    let t : Table := { rows := 4096 }
    composedRows {} t t 10000123 = some (2441, 1787) ∧ composedRows {} t t 16777216 = none := by decide +kernel

/-- R368's mix64 worked out by hand for three ids, ROWS 10,000,000 and 2^32 + 1 among them. -/
theorem test_hashed_rows :
    storedRow { rows := 4096, hashKind := 1 } 10000123 = some 2985 ∧ storedRow { rows := 10000000, hashKind := 1, seed := 0x0123456789ABCDEF } 10000123 = some 8791641
      ∧ storedRow { rows := 2 ^ 32 + 1, hashKind := 1, seed := 7 } (2 ^ 64 - 1) = some 2266414515 := by decide +kernel

/-- R124: one rounding, and overflow judged after it: the INT32 0x01010001 to BF16, 450 to E4M3, 127.4 to INT8 (log entry 137). -/
theorem test_one_rounding :
    (convertOut 1 (.int 0x01010001)).1 = 0x4B81 ∧ convertOut 2 (.real 0x43E10000#32) = (0x7E, 0) ∧ convertOut 7 (.real 0x42FECCCD#32) = (127, 0) := by decide +kernel

/-- 16_regatta.md, five members, one element: the tree gives 1 + 2^-23. -/
theorem test_tree_sum :
    treeSum 3 [.real 0x3F800000, .real 0x33800000, .real 0x33800000, .real 0x33800000, .real 0x33800000] 0 = (.real 0x3F800001, 0) := by decide +kernel

/-- 17_power_scheduling.md, an URGENT burst against an empty bank: m = 12, and the HIGH unit is deferred. -/
theorem test_governor :
    let r : Request := { fn := 0, ring := 1, tag := 1, opcode := 0x20, prio := 0, entry := 0, fetchSeq := 0, tFetch := 0, st := .ready, work := .release 0 }
    let s := { up with
      srv := { up.srv with slots := [(0, r), (1, { r with prio := 1, fetchSeq := 1 })] }
      gov := { up.gov with bankUj := -1500000, corr := (List.range 8).map (fun d => (d, 11 / 10)) } }
    let us : List UnitEst := [⟨0, [2000000], [3500000, 0, 0, 0, 0, 0, 0, 0], false, false, true⟩, ⟨1, [0], [1000000, 0, 0, 0, 0, 0, 0, 0], false, false, true⟩]
    let b : BoundaryData := ⟨us, [40000, 40000, 40000, 40000, 40000, 40000, 40000, 40000]⟩
    (governStroke s b us).1 = 12 ∧ (governStroke s b us).2.map UnitEst.slot = [0] := by decide +kernel

/-- The commands in order; none where one stops. -/
def runs : List Instr → State → Option State
  | [], s => some s
  | c :: cs, s => (run c s).bind (runs cs)

/-- 19_clocks_reset_time.md, setting the time across a roll-over: TRIM −13, then the reads before and after the next tick. -/
theorem test_calendar_roll_over :
    let s := { up with cal := { up.cal with sec := 1716999999, frac := 0xFFF0, setSec := 0x66575740, setFrac := 0x8000 } }
    let t := runs [.calendarTick, .calendarTick, .calendarTick, .calendarTick, .calendarTick, .calendarTick, .calendarTick, .calendarTick] s
    let c := t.bind (run (.calCommit (wr 0xF301)))
    let d := c.bind (runs [.calTimeRead .host .low, .calendarTick, .calSubsecRead .host .full])
    t.map (fun x => (x.cal.sec, x.cal.frac)) = some (0x66575740, 0) ∧ c.map (fun x => (x.cal.sec, x.cal.frac, x.cal.trim, x.cal.valid)) = some (0x66575740, 0x8000, -13, true)
      ∧ d.map (fun x => (x.port.readData, x.cal.frac)) = some (0x18000#64, 0x8002)
      ∧ (d.bind (run (.calSubsecRead .host .full))).map (fun x => x.port.readData) = some 0x8002#64 := by decide +kernel

/-- 20_startup_capabilities.md, topology after a retirement: HEALTH. -/
theorem test_health : healthReg { up with boot := { up.boot with level := 1, short := true, serviceable := 0x1F, activeCores := 0xF7 } } = 0x0000000000F71F05 := by
  decide +kernel


/-- 20_startup_capabilities.md, topology after a retirement: a DV4-512 whose crew 9 is retired and whose crew 20 has 7 cores. -/
def worn : State :=
  computeHealth { up with part := .dv4, crews := [(9, { active := 0x1F, failed := 0x1E0, spare := 15 }), (20, { active := 0x7F, failed := 0x180, spare := 15 })] }

/-- Entry 0x0010: DIE_MASK, ACTIVE_CORES, CREWS_SERVICEABLE, SYNC_OBJECTS, the bytes of crews 8 and 9, 20 and 21, and an absent die's. -/
theorem test_topology :
    let b := capBody worn 0x0010
    leAt b 0 1 = 0x0F ∧ leAt b 2 2 = 247 ∧ leAt b 4 2 = 31 ∧ leAt b 8 4 = 31744 ∧ leAt b 16 1 = 0x88 ∧ leAt b 20 1 = 0x08 ∧ leAt b 26 1 = 0x87
      ∧ leAt b 31 1 = 0x88 ∧ leAt b 32 1 = 0 ∧ b.length = 48 ∧ windowView worn 0 0x20 = 0x0000000000F71F05 := by decide +kernel

/-- The capability list: the first entry's header, 67 words of entry 0x0070 (R508), the last entry's NEXT, and the length of the list of 4-byte values
of 0x0020 (R509: 1 + 7 words). -/
theorem test_capability_list :
    (capBody up 0x0070).length = 66 * 8 ∧ energyClasses.length = 32 ∧ (capBody up 0x0020).length = 7 * 8 ∧ windowView up 0 0x1000 = 0x0000102004010001
      ∧ windowView { up with boot := { up.boot with recovery := true } } 0 0x1000 = 0x0000000004010001 := by decide +kernel

/-- 18_faults.md's crew 37 after a second verdict: ACTIVE_MASK 0x1DB, no spare, SHORT; a virtual function reads none of it (R379). -/
theorem test_register_view :
    let s := { up with crews := [(37, { active := 0x1DB, testing := 0x20, failed := 4, spare := 15 })], port := { up.port with vfEnable := true, numVfs := 4 } }
    registerView s 0 (0x80100 + 8 * 37) = some (BitVec.ofNat 64 (4 * 2 ^ 27 + 0x20 * 2 ^ 18 + 0x1DB * 2 ^ 9 + 15 * 2 ^ 5 + 1))
      ∧ registerView s 3 (0x80100 + 8 * 37) = some 0 ∧ registerView s 5 0 = none ∧ registerView s 3 0 = some 0xDA080001#64 := by decide +kernel

/-- CLKGEN_STATUS.REF_LOST clears on a 1 (R14). -/
theorem test_ref_lost :
    let s := { up with clk := { up.clk with refLost := true } }
    (run (.registerWrite 0xA0008 (wr 8)) s).map (fun t => t.clk.refLost) = some false
      ∧ (run (.registerWrite 0xA0008 (wr 0)) s).map (fun t => t.clk.refLost) = some true := by decide +kernel


/-- 18_faults.md, a core that wears out: crew 37 lost core 2 in an earlier power cycle and has no spare, the history holds one event of core 5
(unit 338), nine days old, and two samples of core 5 have been taken for function 3, tag 0x4410. -/
def wearing : State :=
  { setCrew up 37 { failed := 4, active := 0x1FB, spare := 15 } with
    flt := { up.flt with
      samples := [⟨1, 338, 0, 3, 0x4410, 1, 1, 1, [], 0, 0, none, []⟩, ⟨2, 338, 0, 3, 0x4410, 1, 1, 1, [], 0, 0, none, []⟩]
      history := [⟨{ unitKind := 3, unit := 338 }, {}, 1700000000, true, some (.core 338), 0⟩] }
    cal := { up.cal with sec := 1700000000 + 9 * 86400, valid := true }
    port := { up.port with vfEnable := true, numVfs := 4 } }

/-- The re-run on crew 12 differs in 2 rows, and the arbiter on crew 50 agrees with it. -/
def verdict (n : Nat) : List Instr := [.repeatCheckComplete ⟨n, 108, [4, 9]⟩, .arbiterComplete ⟨n, 450, .checkerAndArbiter⟩]

/-- First verdict: the REPEAT_MISMATCH record, WATCH_MASK 0x020, a shell restart, and LOG_NOTIFY to function 3. -/
theorem test_wears_out_watch :
    (runs (verdict 1) wearing).map (fun t => t.flt.live.map (fun r => (r.code, r.unit, r.verdict, r.action, r.fn)))
        = some [(0x20, 338, 1, 2, 3)]
      ∧ (runs (verdict 1) wearing).map (fun t => t.flt.live.map (fun r => (r.committed, r.suspect))) = some [(true, true)]
      ∧ (runs (verdict 1) wearing).map (fun t => ((crewOf t 37).watch, (crewOf t 37).active, t.flt.restarts)) = some (0x20, 0x1FB, 1)
      ∧ (runs (verdict 1) wearing).map (fun t => ((channelOf t 3).d2hProd, t.flt.history.length)) = some (1, 2) := by decide +kernel

/-- Second verdict: core 5 in TESTING, crew 37 SHORT with ACTIVE_MASK 0x1DB, 511 cores in the package; then the test passes, the third event in 30
days makes it PERMANENT: CORE_FAILED, FAILED_MASK 0x024, and no crew is retired. -/
theorem test_wears_out_fail :
    ((runs (verdict 1 ++ verdict 2) wearing).map (fun t => ((crewOf t 37).testing, (crewOf t 37).active, crewState t 37, t.boot.activeCores)))
        = some (0x20, 0x1DB, 1, 511)
      ∧ ((runs (verdict 1 ++ verdict 2 ++ [.directedTestComplete (.core 338) true]) wearing).map (fun t =>
          ((crewOf t 37).failed, (crewOf t 37).testing, (t.flt.live.map (fun r => (r.code, r.verdict))).headD (0, 0), t.boot.level)))
        = some (0x24, 0, (0x22, 3), 0) := by decide +kernel

/-- 02_query_pipeline.md, one configuration-B query: 4.70 ms for 64 candidates at m = 16; at m = 14 with 3.80 ms left, n_used is 40. -/
theorem test_used_count :
    let b : Binding := { seqLen := 384, leadBos := true, pairSep := true, trailEos := false, cyclesFixed := 600000, cyclesBatch := 1200000 }
    let est := fun m n => rerankEst b m n (352 * 64, 64)
    est 16 64 = 4700000 ∧ usedCount (est 16) 64 false (some 10800000) = 64 ∧ usedCount (est 14) 64 false (some 3800000) = 40
      ∧ usedCount (est 14) 64 true (some 3800000) = 64 ∧ usedCount (est 14) 64 false (some 0) = 8 := by decide +kernel

/-- 06_model_images.md, one projection on two parts: the offset of weight (70, 130), and the length of a slot of 36 pages (11_serving.md). -/
theorem test_offsets :
    elemOffset ⟨0, 2, 2, 1, 0xFFFF, true, 0, [1024, 4096, 1, 1, 1, 1], [1, 1024, 0, 0, 0, 0]⟩ [70, 130, 0, 0, 0, 0] = 135302
      ∧ (let s := { up with obj := { up.obj with models := [{ oid := 1, binds := [{ stage := 3, kvBytes := 65536 }] }, { oid := 2, binds := [{ stage := 4, kvBytes := 4096 }] }] } }
         slotLen s { fn := 5, id := 0x2A17, st := .open, genModel := 1, draftModel := 2, pages := 36 } = 160436224) := by decide +kernel


end Sys2Proof.Tests
end

section
/-!
PROOFS. What can stop the machine (R17, R116): no command answers a fault but a stream pass and a register access. A command's meaning is a tree of
guards whose leaves are finish, finishCal and refusals; the rules for the leaves and for a guard settle every command that has no other branch, and
the commands that branch on what they find have a lemma each.
-/

namespace Sys2Proof.Machine

open Sys2Proof

/-- The machine does not stop in a fault. -/
def NoFault (o : Host.Outcome State Fault Refusal) : Prop := ∀ r, o ≠ .fault r

/-! ### The leaves and the guards of a command's meaning -/

theorem noFault_finish (s t : State) : NoFault (finish s t) := nofun

theorem noFault_finishCal (s : State) (c : Cal) (t : State) : NoFault (finishCal s c t) := nofun

theorem noFault_refused (r : Refusal) : NoFault (.refused r) := nofun

theorem noFault_ite {p : Prop} [Decidable p] {a b : Host.Outcome State Fault Refusal} (ha : NoFault a) (hb : NoFault b) :
    NoFault (if p then a else b) := by
  split
  · exact ha
  · exact hb

/-- A guarded effect, the commonest command: it is carried out or the term is refused. -/
theorem noFault_guard {p : Prop} [Decidable p] {o : Host.Outcome State Fault Refusal} (h : NoFault o) :
    NoFault (if p then o else .refused .illFormed) := noFault_ite h (noFault_refused _)

/-- An effect carried out where a condition holds, and otherwise none. -/
theorem noFault_when {p : Prop} [Decidable p] (s t : State) : NoFault (if p then finish s t else finish s s) :=
  noFault_ite (noFault_finish _ _) (noFault_finish _ _)

/-! ### The shared meanings -/

theorem fetchEntry_noFault (ok : Bool) (body : RingRef → Entry → State → Except CmdErr Taken) (q : RingRef) (e : Entry) (s : State) :
    NoFault (fetchEntry ok body q e s) := noFault_guard (noFault_when _ _)

theorem powerRow_noFault (state : Nat) (q : RingRef) (e : Entry) (s : State) : NoFault (powerRow state q e s) :=
  noFault_guard (noFault_ite (fetchEntry_noFault _ _ _ _ _) (noFault_finish _ _))

theorem laneRun_noFault (op : LaneOp) (n : Nat) (f : LaneFields) (s : State) : NoFault (laneRun op n f s) :=
  noFault_guard (noFault_finish _ _)

theorem recordRun_noFault (op : Nat) (body : RecRef → RecCtx → State → State) (r : RecRef) (s : State) : NoFault (recordRun op body r s) := by
  refine noFault_guard ?_
  split
  · exact noFault_finish _ _
  · exact noFault_finish _ _

/-! ### The commands that branch on what they find -/

theorem execPopq_noFault (n : Nat) (f : LaneFields) (s : State) : NoFault (execPopq n f s) := by
  unfold execPopq
  split
  · exact noFault_guard (laneRun_noFault _ _ _ _)
  · exact laneRun_noFault _ _ _ _

theorem execCalTimeRead_noFault (a : Reader) (h : Half) (s : State) : NoFault (execCalTimeRead a h s) := by
  refine noFault_ite ?_ (noFault_finish _ _)
  cases h with
  | high => exact noFault_finish _ _
  | low => exact noFault_finishCal _ _ _
  | full => exact noFault_finishCal _ _ _

theorem execCalSubsecRead_noFault (a : Reader) (h : Half) (s : State) : NoFault (execCalSubsecRead a h s) := by
  refine noFault_ite ?_ (noFault_finish _ _)
  cases h with
  | high => exact noFault_finish _ _
  | low => exact noFault_ite (noFault_finishCal _ _ _) (noFault_finish _ _)
  | full => exact noFault_ite (noFault_finishCal _ _ _) (noFault_finish _ _)

theorem execTimestampRead_noFault (h : Half) (s : State) : NoFault (execTimestampRead h s) := by
  refine noFault_ite ?_ (noFault_finish _ _)
  cases h <;> exact noFault_finish _ _

theorem execInterruptModerationTimeout_noFault (q : RingRef) (stream : Option Nat) (s : State) :
    NoFault (execInterruptModerationTimeout q stream s) := by
  refine noFault_guard ?_
  cases stream with
  | none => exact noFault_when _ _
  | some v => exact noFault_when _ _

theorem execRegionCmdComplete_noFault (s : State) : NoFault (execRegionCmdComplete s) := by
  unfold execRegionCmdComplete
  cases s.mem.cmd with
  | none => exact noFault_finish _ _
  | some c => exact noFault_finish _ _

theorem execWriteBufferDrain_noFault (s : State) : NoFault (execWriteBufferDrain s) := by
  unfold execWriteBufferDrain
  cases s.mem.wb with
  | nil => exact noFault_finish _ _
  | cons u rest => exact noFault_finish _ _

theorem execMbD2hPost_noFault (ch : Nat) (s : State) : NoFault (execMbD2hPost ch s) := by
  refine noFault_guard ?_
  dsimp only
  split
  · exact noFault_finish _ _
  · exact noFault_when _ _

theorem execBoathouseExpiry_noFault (fn conv : Nat) (s : State) : NoFault (execBoathouseExpiry fn conv s) := by
  refine noFault_guard ?_
  cases convOf s fn conv with
  | none => exact noFault_finish _ _
  | some c => exact noFault_when _ _

theorem execRetransmit_noFault (dst seq : Nat) (s : State) : NoFault (execRetransmit dst seq s) := by
  unfold execRetransmit
  split
  · exact noFault_finish _ _
  · exact noFault_ite (noFault_ite (noFault_finish _ _) (noFault_finish _ _)) (noFault_finish _ _)

theorem execRestartFrame_noFault (p : Nat) (f : Frame) (s : State) : NoFault (execRestartFrame p f s) := by
  unfold execRestartFrame
  split
  · exact noFault_guard (noFault_finish _ _)
  · exact noFault_refused _

theorem execRepeatCheckComplete_noFault (c : CheckResult) (s : State) : NoFault (execRepeatCheckComplete c s) := by
  refine noFault_guard ?_
  cases sampleOf s c.sample with
  | none => exact noFault_finish _ _
  | some x => exact noFault_when _ _

theorem execArbiterComplete_noFault (a : ArbiterResult) (s : State) : NoFault (execArbiterComplete a s) := by
  refine noFault_guard ?_
  cases sampleOf s a.sample with
  | none => exact noFault_finish _ _
  | some x =>
    dsimp only
    split
    · exact noFault_finish _ _
    · exact noFault_when _ _

theorem execCheckSampleDropped_noFault (sample : Nat) (s : State) : NoFault (execCheckSampleDropped sample s) := by
  unfold execCheckSampleDropped
  cases sampleOf s sample with
  | none => exact noFault_finish _ _
  | some x => exact noFault_finish _ _

theorem execKvPoolExhausted_noFault (slot : Nat) (s : State) : NoFault (execKvPoolExhausted slot s) := by
  unfold execKvPoolExhausted
  cases slotOf s slot with
  | none => exact noFault_finish _ _
  | some r => exact noFault_finish _ _

theorem execAgeingPromotion_noFault (slot : Nat) (s : State) : NoFault (execAgeingPromotion slot s) := by
  unfold execAgeingPromotion
  cases slotOf s slot with
  | none => exact noFault_finish _ _
  | some r => exact noFault_finish _ _

theorem execFarTileResident_noFault (slot : Nat) (s : State) : NoFault (execFarTileResident slot s) := by
  unfold execFarTileResident
  cases slotOf s slot with
  | none => exact noFault_finish _ _
  | some r => exact noFault_finish _ _

theorem execCperExport_noFault (n : Nat) (s : State) : NoFault (execCperExport n s) := by
  unfold execCperExport
  cases s.flt.history[n]? with
  | none => exact noFault_finish _ _
  | some h => exact noFault_finish _ _

/-! ### Every command -/

/-- No command but a stream pass and a register access can fault, whatever the state: by the shape of its meaning. -/
theorem exec_noFault (c : Instr) (s : State) (hpass : ∀ n p, c ≠ .pass n p) (hwrite : ∀ o w, c ≠ .registerWrite o w) : NoFault (exec c s) := by
  cases c
  case pass n p => exact absurd rfl (hpass n p)
  case registerWrite o w => exact absurd rfl (hwrite o w)
  case loadModel | unloadModel | loadVocab | loadGrammar | indexCreate | indexMerge | abort | enterPowerStateActive | getLogErrorPage |
      getLogErrorRecords | setFeatureArbitration | setFeatureServing | setFeaturePartition | setFeatureBoathouse | setFeaturePackTemplate
      | setFeaturePassageStore | setFeatureGet | shellJoin | firmwareActivate | tableCreate | tableDelete | shellEnd | query | embed |
      search | rerank | pack | generate | pauseConversation | release | resumeConversation | tokenize | detokenize | indexInsert |
      indexDelete | tableRowWrite | tableRowRead | runOplist | fence => exact fetchEntry_noFault _ _ _ _ _
  case enterPowerStateStandby | enterPowerStateRetain => exact powerRow_noFault _ _ _ _
  case matmul | elemwise | expertMatmul | vector | vectorQ | gather | kvWrite | prefetch | collective | selectMerge | verify | emit =>
    exact recordRun_noFault _ _ _ _
  case nop | add | sub | mul | fma | min | max | abs | neg | div | cmpeq | cmplt | cmple | sel | mov | and | or | xor | shl | shra | shrl
      | cvtfi | cvtif | rcp | sqrt | rsqrt | exp2 | log2 | sinpi | cospi | tanh | rsum | rmax | rmin | bcast | iota | sget | selpush |
      signal | wait => exact laneRun_noFault _ _ _ _
  case ld | st => exact noFault_ite (laneRun_noFault _ _ _ _) (noFault_refused _)
  case interruptModerationTimeout => exact execInterruptModerationTimeout_noFault _ _ _
  case kvPoolExhausted => exact execKvPoolExhausted_noFault _ _
  case ageingPromotion => exact execAgeingPromotion_noFault _ _
  case farTileResident => exact execFarTileResident_noFault _ _
  case popq => exact execPopq_noFault _ _ _
  case regionCmdComplete => exact execRegionCmdComplete_noFault _
  case writeBufferDrain => exact execWriteBufferDrain_noFault _
  case mbD2hPost => exact execMbD2hPost_noFault _ _
  case calTimeRead => exact execCalTimeRead_noFault _ _ _
  case calSubsecRead => exact execCalSubsecRead_noFault _ _ _
  case timestampRead => exact execTimestampRead_noFault _ _
  case boathouseExpiry => exact execBoathouseExpiry_noFault _ _ _
  case retransmit => exact execRetransmit_noFault _ _ _
  case restartFrame => exact execRestartFrame_noFault _ _ _
  case repeatCheckComplete => exact execRepeatCheckComplete_noFault _ _
  case arbiterComplete => exact execArbiterComplete_noFault _ _
  case checkSampleDropped => exact execCheckSampleDropped_noFault _ _
  case cperExport => exact execCperExport_noFault _ _
  -- every other command branches on guards alone
  all_goals apply_rules [noFault_ite, noFault_finish, noFault_finishCal, noFault_refused]

/-- A stream pass faults only where its reads leave the tile store or the crew SRAM (R116). -/
theorem execPass_fault (n : Nat) (p : PassOp) (s : State) (r : Fault) (h : execPass n p s = .fault r) :
    r = .addressOutside ∧ passInside p = false := by
  unfold execPass at h
  split at h
  · split at h
    · exact absurd h (noFault_finish _ _ r)
    · next hin =>
      cases h
      exact ⟨rfl, Bool.eq_false_of_not_eq_true hin⟩
  · exact absurd h (noFault_refused _ r)

/-- A register access faults only where it is not aligned (R17). -/
theorem execRegisterWrite_fault (o : Nat) (w : RegAccess) (s : State) (r : Fault) (h : execRegisterWrite o w s = .fault r) :
    r = .misalignedAccess ∧ o % 8 ≠ 0 := by
  unfold execRegisterWrite at h
  split at h
  · split at h
    · next hodd =>
      cases h
      exact ⟨rfl, hodd⟩
    · exact absurd h (noFault_ite (noFault_finish _ _)
        (noFault_ite (noFault_ite (noFault_finishCal _ _ _) (noFault_finish _ _)) (noFault_finish _ _)) r)
  · exact absurd h (noFault_refused _ r)

end Sys2Proof.Machine

namespace Sys2Proof.Proofs

open Sys2Proof Sys2Proof.Machine

/-- Settles O6: the two commands that can fault do so for these reasons, and no other command can. -/
theorem faultsOnly : Obligations.FaultsOnly := by
  intro c s r h
  by_cases hpass : ∃ n p, c = .pass n p
  · obtain ⟨n, p, rfl⟩ := hpass
    obtain ⟨hr, hin⟩ := execPass_fault n p s r h
    exact .inl ⟨hr, n, p, rfl, hin⟩
  · by_cases hwrite : ∃ o w, c = .registerWrite o w
    · obtain ⟨o, w, rfl⟩ := hwrite
      obtain ⟨hr, hodd⟩ := execRegisterWrite_fault o w s r h
      exact .inr ⟨hr, o, w, rfl, hodd⟩
    · exact absurd h (exec_noFault c s (fun n p hc => hpass ⟨n, p, hc⟩) (fun o w hc => hwrite ⟨o, w, hc⟩) r)

end Sys2Proof.Proofs
end

section
/-!
PROOFS. Register fields (R14 to R17): which bits of a register a field write replaces, and so what each field of a register holds after a write to
it or to another of its fields.
-/

namespace Sys2Proof.Machine

open Sys2Proof

/-! ### Bits of fields -/

/-- The bits above a field, the field and the bits below it. -/
theorem toNat_split (r : Reg) {hi lo : Nat} (h : lo ≤ hi) :
    r.toNat = 2 ^ lo * (2 ^ (hi + 1 - lo) * (r.toNat / 2 ^ (hi + 1)) + fieldOf r hi lo) + r.toNat % 2 ^ lo := by
  have hdiv : r.toNat / 2 ^ (hi + 1) = r.toNat / 2 ^ lo / 2 ^ (hi + 1 - lo) := by
    rw [Nat.div_div_eq_div_mul, ← pow_add]
    congr 2
    omega
  rw [fieldOf, Nat.shiftRight_eq_div_pow, hdiv, Nat.div_add_mod, Nat.div_add_mod]

/-- A field write replaces the field and keeps the bits above and below it. -/
theorem toNat_withField (r : Reg) {hi lo : Nat} (v : Nat) (h : lo ≤ hi) (h64 : hi < 64) :
    (withField r hi lo v).toNat
      = 2 ^ lo * (2 ^ (hi + 1 - lo) * (r.toNat / 2 ^ (hi + 1)) + v % 2 ^ (hi + 1 - lo)) + r.toNat % 2 ^ lo := by
  have hlow : r.toNat % 2 ^ lo < 2 ^ lo := Nat.mod_lt _ (Nat.two_pow_pos _)
  have hv : v % 2 ^ (hi + 1 - lo) < 2 ^ (hi + 1 - lo) := Nat.mod_lt _ (Nat.two_pow_pos _)
  have htop : r.toNat / 2 ^ (hi + 1) < 2 ^ (64 - (hi + 1)) :=
    Nat.div_lt_of_lt_mul (by rw [← pow_add, Nat.add_sub_cancel' h64]; exact r.isLt)
  have hfit : 2 ^ lo * (2 ^ (hi + 1 - lo) * (r.toNat / 2 ^ (hi + 1)) + v % 2 ^ (hi + 1 - lo)) + r.toNat % 2 ^ lo < 2 ^ 64 := by
    calc _ < 2 ^ lo * (2 ^ (hi + 1 - lo) * (r.toNat / 2 ^ (hi + 1)) + v % 2 ^ (hi + 1 - lo) + 1) := by rw [Nat.mul_add_one]; omega
      _ ≤ 2 ^ lo * (2 ^ (hi + 1 - lo) * (r.toNat / 2 ^ (hi + 1) + 1)) := Nat.mul_le_mul_left _ (by rw [Nat.mul_add_one]; omega)
      _ ≤ 2 ^ lo * (2 ^ (hi + 1 - lo) * 2 ^ (64 - (hi + 1))) := Nat.mul_le_mul_left _ (Nat.mul_le_mul_left _ htop)
      _ = 2 ^ 64 := by rw [← pow_add, ← pow_add]; congr 1; omega
  have hr := toNat_split r h
  rw [Nat.mul_add] at hr hfit ⊢
  rw [withField, BitVec.toNat_ofNat, Nat.mod_eq_of_lt] <;> simp only [Nat.shiftLeft_eq, Nat.mul_comm _ (2 ^ lo)] <;> omega

theorem testBit_withField (r : Reg) {hi lo : Nat} (v i : Nat) (h : lo ≤ hi) (h64 : hi < 64) :
    (withField r hi lo v).toNat.testBit i = if lo ≤ i ∧ i ≤ hi then v.testBit (i - lo) else r.toNat.testBit i := by
  have hlow : r.toNat % 2 ^ lo < 2 ^ lo := Nat.mod_lt _ (Nat.two_pow_pos _)
  have hv : v % 2 ^ (hi + 1 - lo) < 2 ^ (hi + 1 - lo) := Nat.mod_lt _ (Nat.two_pow_pos _)
  rw [toNat_withField r v h h64, Nat.testBit_two_pow_mul_add _ hlow, Nat.testBit_two_pow_mul_add _ hv, Nat.testBit_mod_two_pow,
    Nat.testBit_mod_two_pow, Nat.testBit_div_two_pow]
  split
  · grind
  · split
    · grind
    · rw [if_neg (by omega)]
      congr 1
      omega

theorem testBit_fieldOf (r : Reg) (hi lo i : Nat) : (fieldOf r hi lo).testBit i = (decide (i < hi + 1 - lo) && r.toNat.testBit (lo + i)) := by
  rw [fieldOf, Nat.testBit_mod_two_pow, Nat.testBit_shiftRight]

/-- Two registers that agree on a field's bits agree on the field. -/
theorem fieldOf_congr (x y : Reg) (hi lo : Nat) (h : ∀ i, lo ≤ i → i ≤ hi → x.toNat.testBit i = y.toNat.testBit i) :
    fieldOf x hi lo = fieldOf y hi lo := by
  refine Nat.eq_of_testBit_eq fun i => ?_
  rw [testBit_fieldOf, testBit_fieldOf]
  by_cases hi' : i < hi + 1 - lo
  · rw [h (lo + i) (by omega) (by omega)]
  · simp [hi']

theorem fieldOf_withField_self (r : Reg) {hi lo : Nat} (v : Nat) (h : lo ≤ hi) (h64 : hi < 64) :
    fieldOf (withField r hi lo v) hi lo = v % 2 ^ (hi + 1 - lo) := by
  refine Nat.eq_of_testBit_eq fun i => ?_
  rw [testBit_fieldOf, Nat.testBit_mod_two_pow, testBit_withField r v _ h h64]
  by_cases hi' : i < hi + 1 - lo
  · rw [if_pos (by omega), Nat.add_sub_cancel_left]
  · simp [hi']

theorem fieldOf_withField_other (r : Reg) {hi lo : Nat} (v a b : Nat) (h : lo ≤ hi) (h64 : hi < 64) (hd : a < lo ∨ hi < b) :
    fieldOf (withField r hi lo v) a b = fieldOf r a b :=
  fieldOf_congr _ _ _ _ fun i _ _ => by rw [testBit_withField r v i h h64, if_neg (by omega)]

/-! ### Fields after a write -/

theorem rwField_eq (old : Reg) (w : RegAccess) (hi lo : Nat) (ok : Nat → Bool) (r : Reg) :
    rwField old w hi lo ok r = if ok (fieldOf (merged old w) hi lo) = true then withField r hi lo (fieldOf (merged old w) hi lo) else r := rfl

/-- A field after its own write: the value it would take where that is in range, else the one it held (R15). -/
theorem fieldOf_rwField_self (old : Reg) (w : RegAccess) {hi lo : Nat} (ok : Nat → Bool) (r : Reg) (h : lo ≤ hi) (h64 : hi < 64) :
    fieldOf (rwField old w hi lo ok r) hi lo = if ok (fieldOf (merged old w) hi lo) = true then fieldOf (merged old w) hi lo else fieldOf r hi lo := by
  rw [rwField_eq]
  split
  · rw [fieldOf_withField_self r _ h h64]
    exact Nat.mod_eq_of_lt (Nat.mod_lt _ (Nat.two_pow_pos _))
  · rfl

/-- A field is kept by the write of another. -/
theorem fieldOf_rwField_other (old : Reg) (w : RegAccess) {hi lo : Nat} (ok : Nat → Bool) (r : Reg) (a b : Nat) (h : lo ≤ hi) (h64 : hi < 64)
    (hd : a < lo ∨ hi < b) : fieldOf (rwField old w hi lo ok r) a b = fieldOf r a b := by
  rw [rwField_eq]
  split
  · exact fieldOf_withField_other r _ a b h h64 hd
  · rfl

end Sys2Proof.Machine
end

section
/-!
PROOFS. REGISTER_WRITE (R15, R17, R379, R384, R488, R518): what an aligned access does at each offset of window 0.
-/

namespace Sys2Proof.Machine

open Sys2Proof

/-! ### From the command to the register -/

theorem execRegisterWrite_misaligned (s : State) (o : Nat) (w : RegAccess) (hfn : w.fn < 64) (ho : o < 2 ^ 26) (hodd : o % 8 ≠ 0) :
    execRegisterWrite o w s = .fault .misalignedAccess := by
  rw [execRegisterWrite, if_pos ⟨hfn, ho⟩, if_pos hodd]

/-- A port that is not up and a function that is not there take no write (R379, R502). -/
theorem execRegisterWrite_closed (s : State) (o : Nat) (w : RegAccess) (hfn : w.fn < 64) (ho : o < 2 ^ 26) (hal : o % 8 = 0)
    (hport : hostUp s = false ∨ fnPresent s w.fn = false) : execRegisterWrite o w s = .next s := by
  have hclosed : (hostUp s && fnPresent s w.fn) = false := by
    rcases hport with h | h <;> simp [h]
  rw [execRegisterWrite, if_pos ⟨hfn, ho⟩, if_neg (not_not_intro hal), hclosed]
  exact finish_self s

section

variable {s : State} {o : Nat} {w : RegAccess} (hfn : w.fn < 64) (ho : o < 2 ^ 26) (hal : o % 8 = 0) (hup : hostUp s = true)
  (hpresent : fnPresent s w.fn = true)

include hfn ho hal hup hpresent

theorem execRegisterWrite_any (hb : (isBackup o && w.fn == 0) = false) : execRegisterWrite o w s = finish s (writeAny o w s) := by
  rw [execRegisterWrite, if_pos ⟨hfn, ho⟩, if_neg (not_not_intro hal), hup, hpresent, hb]
  rfl

theorem execRegisterWrite_backup (hb : isBackup o = true) (h0 : w.fn = 0) (hpow : s.cal.powered = true) :
    execRegisterWrite o w s = finishCal s (writeBackup o w s.cal) (expireAfter (withCal (writeBackup o w s.cal) s)) := by
  rw [execRegisterWrite, if_pos ⟨hfn, ho⟩, if_neg (not_not_intro hal), hup, hpresent, hb, h0, if_pos hpow]
  rfl

end

/-- The offsets that are not the calendar's, as omega reads them. -/
theorem isBackup_eq_false {o : Nat} (h : o ≠ 0x50010 ∧ o ≠ 0x50018 ∧ o ≠ 0x50020 ∧ (o < 0x50100 ∨ 0x50200 ≤ o)) :
    isBackup o = false := by
  obtain ⟨h1, h2, h3, h4⟩ := h
  simp only [isBackup, Bool.or_eq_false_iff, Bool.and_eq_false_iff, beq_eq_false_iff_ne, decide_eq_false_iff_not]
  omega

theorem isBackup_scratch (n : Nat) (h : n < 32) : isBackup (0x50100 + 8 * n) = true := by
  simp only [isBackup, Bool.or_eq_true, Bool.and_eq_true, decide_eq_true_eq]
  omega

/-! ### Offsets that no register takes -/

/-- Past its first four registers a ring pair's are read-only. -/
theorem writeRingBlock_readOnly (o : Nat) (w : RegAccess) (s : State) (h : 24 < o % 64) : writeRingBlock o w s = s := by
  unfold writeRingBlock
  dsimp only
  split
  · rfl
  · split
    · omega
    · omega
    · omega
    · omega
    · rfl

theorem writeDmaBlock_reserved (o : Nat) (w : RegAccess) (s : State) (h : 40 < o % 64) : writeDmaBlock o w s = s := by
  unfold writeDmaBlock
  dsimp only
  split
  · omega
  · omega
  · omega
  · omega
  · omega
  · omega
  · rfl

theorem writeRegionBlock_reserved (o : Nat) (w : RegAccess) (s : State) (h : 16 < o % 32) : writeRegionBlock o w s = s := by
  unfold writeRegionBlock
  split
  · omega
  · omega
  · omega
  · rfl

/-- Offsets past the physical function's own registers. -/
theorem writePf_ignored (o : Nat) (w : RegAccess) (s : State) (hal : o % 8 = 0) (h0 : w.fn = 0) (hno : ¬Claims.takesWrites w.fn o) :
    writePf o w s = s := by
  simp only [Claims.takesWrites, h0, List.mem_cons, List.not_mem_nil, or_false, true_and, not_or, not_and] at hno
  by_cases hdma : 0x30000 ≤ o ∧ o < 0x30400
  · simp (disch := omega) only [writePf, if_neg, if_pos]
    exact writeDmaBlock_reserved _ _ _ (by omega)
  · by_cases hregion : 0x71000 ≤ o ∧ o < 0x73000
    · simp (disch := omega) only [writePf, if_neg, if_pos]
      exact writeRegionBlock_reserved _ _ _ (by omega)
    · simp (disch := omega) only [writePf, if_neg]

/-- Offsets at which no register takes writes (R518). -/
theorem writeAny_ignored (o : Nat) (w : RegAccess) (s : State) (hal : o % 8 = 0) (hno : ¬Claims.takesWrites w.fn o) : writeAny o w s = s := by
  have hpf : w.fn = 0 → writePf o w s = s := fun h0 => writePf_ignored o w s hal h0 hno
  simp only [Claims.takesWrites, List.mem_cons, List.not_mem_nil, or_false, not_or] at hno
  obtain ⟨hown, hring, hslot, hring2, hmsix, -⟩ := hno
  by_cases hd2h : 0x20400 ≤ o ∧ o < 0x20800
  · simp (disch := omega) only [writeAny, if_neg, if_pos]
  · by_cases hblock : 0x11000 ≤ o ∧ o < 0x21000
    · simp (disch := omega) only [writeAny, if_neg, if_pos]
      exact writeRingBlock_readOnly _ _ _ (by omega)
    · simp (disch := omega) only [writeAny, if_neg]
      split
      · next h0 => exact hpf h0
      · rfl

/-! ### Ring set-up -/

/-- The registers of the pairs below the mailbox block (log entry 39). -/
theorem writeAny_ring (o : Nat) (w : RegAccess) (s : State) (hlo : 0x11000 ≤ o) (hhi : o < 0x20000) :
    writeAny o w s = writeRingBlock (o - 0x11000) w s := by
  simp (disch := omega) only [writeAny, if_neg, if_pos]

/-- A pair that the function has not, and one that is not DISABLED, keep their set-up (R383, R384). -/
theorem writeRingBlock_held (n k : Nat) (w : RegAccess) (s : State) (hk : k = 0 ∨ k = 8 ∨ k = 16)
    (hheld : (ringOf s ⟨w.fn, n⟩).st ≠ .disabled ∨ ringExists s ⟨w.fn, n⟩ = false) : writeRingBlock (64 * n + k) w s = s := by
  have hdiv : (64 * n + k) / 64 = n := by omega
  have hmod : (64 * n + k) % 64 = k := by omega
  unfold writeRingBlock
  dsimp only
  rw [hdiv, hmod]
  split
  · rfl
  · next hex =>
    have hst : (ringOf s ⟨w.fn, n⟩).st ≠ .disabled := hheld.resolve_right (by simpa using hex)
    rcases hk with rfl | rfl | rfl <;> exact if_pos hst

theorem writeRingBlock_setup (n k : Nat) (w : RegAccess) (s : State) (hk : k = 0 ∨ k = 8 ∨ k = 16) (hex : ringExists s ⟨w.fn, n⟩ = true) :
    writeRingBlock (64 * n + k) w s = writeRingReg ⟨w.fn, n⟩ (k / 8) w s := by
  have hdiv : (64 * n + k) / 64 = n := by omega
  have hmod : (64 * n + k) % 64 = k := by omega
  unfold writeRingBlock
  dsimp only
  rw [hdiv, hmod, hex]
  rcases hk with rfl | rfl | rfl <;> rfl

section

variable (q : RingRef) (w : RegAccess) (s : State) (hst : (ringOf s q).st = .disabled)

include hst

theorem writeRingReg_sqBase :
    writeRingReg q 0 w s = setRing s q { ringOf s q with sqBase := rwField (ringOf s q).sqBase w 63 12 anyVal (ringOf s q).sqBase } :=
  if_neg (not_not_intro hst)

theorem writeRingReg_cfg :
    writeRingReg q 1 w s = setRing s q { ringOf s q with cfg := rwField (ringOf s q).cfg w 49 6 anyVal (ringOf s q).cfg } :=
  if_neg (not_not_intro hst)

theorem writeRingReg_cqBase :
    writeRingReg q 2 w s = setRing s q { ringOf s q with cqBase := rwField (ringOf s q).cqBase w 63 12 anyVal (ringOf s q).cqBase } :=
  if_neg (not_not_intro hst)

end

theorem finish_setRing (s : State) (q : RingRef) (r : RingPair) : finish s (setRing s q r) = .next (setRing s q r) := rfl

/-! ### The calendar's side -/

/-- With no conversation, no expiry falls due when the calendar is written (R328). -/
theorem expireAfter_withCal (c : Cal) (s : State) (h : s.srv.convs = []) : expireAfter (withCal c s) = withCal c s := by
  have hdue : dueConvs (withCal c s) = [] := by simp [dueConvs, h]
  unfold expireAfter
  split
  · rfl
  · rw [applyExpiry, hdue, List.foldl_nil]

end Sys2Proof.Machine
end

section
/-!
PROOFS. Where each write of window 0 lands (R15, R379, R384, R488, R518): the first half of the statement on register writes holds.
-/

namespace Sys2Proof.Proofs

open Sys2Proof Sys2Proof.Machine

/-! ### Registers that hold what their fields take -/

theorem fieldsTake_one (w : RegAccess) (old : Reg) (hi lo : Nat) (h : lo ≤ hi) (h64 : hi < 64) :
    Claims.fieldsTake w [(hi, lo, fun _ => true)] old (rwField old w hi lo anyVal old) := by
  intro x hx
  rw [List.mem_singleton] at hx
  subst hx
  exact fieldOf_rwField_self old w anyVal old h h64

theorem fieldsTake_sweep (w : RegAccess) (old : Reg) :
    Claims.fieldsTake w [(9, 0, within 1 512), (19, 10, within 1 512), (29, 20, within 1 512), (39, 30, within 1 512)] old
      ([(39, 30), (29, 20), (19, 10), (9, 0)].foldl (fun a f => rwField old w f.1 f.2 (within 1 512) a) old) := by
  intro x hx
  simp only [List.mem_cons, List.not_mem_nil, or_false] at hx
  rcases hx with rfl | rfl | rfl | rfl <;> simp [fieldOf_rwField_self, fieldOf_rwField_other]

theorem fieldsTake_arbWeight (w : RegAccess) (old : Reg) :
    Claims.fieldsTake w [(7, 0, within 1 255), (15, 8, within 1 255), (23, 16, within 1 255)] old
      ([(23, 16), (15, 8), (7, 0)].foldl (fun a f => rwField old w f.1 f.2 (within 1 255) a) old) := by
  intro x hx
  simp only [List.mem_cons, List.not_mem_nil, or_false] at hx
  rcases hx with rfl | rfl | rfl <;> simp [fieldOf_rwField_self, fieldOf_rwField_other]

theorem fieldsTake_arbAge (w : RegAccess) (old : Reg) :
    Claims.fieldsTake w [(15, 0, within 1 65535), (31, 16, within 1 65535), (47, 32, within 1 65535)] old
      ([(47, 32), (31, 16), (15, 0)].foldl (fun a f => rwField old w f.1 f.2 (within 1 65535) a) old) := by
  intro x hx
  simp only [List.mem_cons, List.not_mem_nil, or_false] at hx
  rcases hx with rfl | rfl | rfl <;> simp [fieldOf_rwField_self, fieldOf_rwField_other]

theorem fieldsTake_traceCtl (w : RegAccess) (old : Reg) :
    Claims.fieldsTake w [(0, 0, fun _ => true), (1, 1, fun _ => true), (15, 8, fun _ => true)] old
      (rwField old w 15 8 anyVal (rwField old w 1 1 anyVal (rwField old w 0 0 anyVal old))) := by
  intro x hx
  simp only [List.mem_cons, List.not_mem_nil, or_false] at hx
  rcases hx with rfl | rfl | rfl <;> simp [fieldOf_rwField_self, fieldOf_rwField_other, anyVal]

theorem fieldsTake_fltCtl (w : RegAccess) (s : State) :
    Claims.fieldsTake w [(0, 0, fun _ => true), (5, 1, fun _ => true), (15, 8, fun v => decide (1 ≤ v)), (23, 16, fun v => decide (1 ≤ v)),
      (27, 24, fun v => decide (1 ≤ v)), (39, 28, fun v => decide (1 ≤ v)), (47, 40, fun v => decide (1 ≤ v)), (63, 48, fun _ => true)]
      s.flt.ctl (writeFltCtl w s).flt.ctl := by
  intro x hx
  simp only [List.mem_cons, List.not_mem_nil, or_false] at hx
  rcases hx with rfl | rfl | rfl | rfl | rfl | rfl | rfl | rfl <;> simp [writeFltCtl, fieldOf_rwField_self, fieldOf_rwField_other]

theorem writeAny_arbWeight {o : Nat} (ho : o = 0x10020) {w : RegAccess} (h0 : w.fn = 0) (s : State) : writeAny o w s = writeArb false w s := by
  simp (disch := omega) only [writeAny, writePf, if_neg, if_pos]

theorem writeAny_arbAge {o : Nat} (ho : o = 0x10028) {w : RegAccess} (h0 : w.fn = 0) (s : State) : writeAny o w s = writeArb true w s := by
  simp (disch := omega) only [writeAny, writePf, if_neg, if_pos]

theorem writeAny_fltCtl {o : Nat} (ho : o = 0x80000) {w : RegAccess} (h0 : w.fn = 0) (s : State) : writeAny o w s = writeFltCtl w s := by
  simp (disch := omega) only [writeAny, writePf, if_neg, if_pos]

theorem writeAny_traceCtl {o : Nat} (ho : o = 0xB0000) {w : RegAccess} (h0 : w.fn = 0) (s : State) : writeAny o w s = writeTrace false w s := by
  simp (disch := omega) only [writeAny, writePf, if_neg, if_pos]

/-! ### The registers of each function, and of the physical function -/

section

variable {s : State} {o : Nat} {w : RegAccess} (hfn : w.fn < 64) (hup : hostUp s = true) (hpresent : fnPresent s w.fn = true)

include hfn hup hpresent

/-- A write that leaves the function's set-up registers at r touches no other function's, and nothing else. -/
theorem registerWrite_fnRegs (ho : o < 2 ^ 26) (hal : o % 8 = 0) (hb : isBackup o = false) (r : FnRegs)
    (hw : writeAny o w s = setFnRegs s w.fn r) :
    ∃ t, exec (.registerWrite o w) s = .next t ∧ fnRegs t w.fn = r ∧ (∀ g, g ≠ w.fn → fnRegs t g = fnRegs s g)
      ∧ t = { s with port := { s.port with fns := t.port.fns } } := by
  refine ⟨setFnRegs s w.fn r, ?_, sgetD_sset_self _ _ _ _, fun g hg => sgetD_sset_other _ _ _ _ _ hg, rfl⟩
  have hany := execRegisterWrite_any hfn ho hal hup hpresent (by simp [hb])
  rw [hw] at hany
  exact hany

theorem registerWrite_plain : ∀ r ∈ Claims.plainRegs w.fn, o = r.1 →
    ∃ t, exec (.registerWrite o w) s = .next t ∧ Claims.fieldsTake w r.2.2 (r.2.1 s) (r.2.1 t)
      ∧ (∀ g, g ≠ w.fn → fnRegs t g = fnRegs s g) ∧ t = { s with port := { s.port with fns := t.port.fns } } := by
  intro r hr ho
  simp only [Claims.plainRegs, List.mem_cons, List.not_mem_nil, or_false] at hr
  rcases hr with rfl | rfl | rfl
  all_goals
    dsimp only at ho
    obtain ⟨t, hexec, hregs, hrest⟩ :=
      registerWrite_fnRegs hfn hup hpresent (show o < 2 ^ 26 by omega) (by omega) (isBackup_eq_false (by omega)) _ (by rw [ho]; rfl)
    refine ⟨t, hexec, ?_, hrest⟩
    simp only [hregs]
  · exact fieldsTake_one w _ 63 12 (by decide) (by decide)
  · exact fieldsTake_one w _ 63 7 (by decide) (by decide)
  · exact fieldsTake_sweep w _

/-- The register at an offset takes a write, whose effect is t. -/
theorem registerWrite_effect (ho : o < 2 ^ 26) (hal : o % 8 = 0) (hb : isBackup o = false) (t : State) (hw : writeAny o w s = t) :
    exec (.registerWrite o w) s = finish s t := by
  rw [← hw]
  exact execRegisterWrite_any hfn ho hal hup hpresent (by simp [hb])

theorem registerWrite_pf (h0 : w.fn = 0) : ∀ r ∈ Claims.pfRegs, o = r.1 →
    ∃ t, exec (.registerWrite o w) s = .next t ∧ Claims.fieldsTake w r.2.2 (r.2.1 s) (r.2.1 t)
      ∧ t = { s with port := { s.port with arbWeight := t.port.arbWeight, arbAge := t.port.arbAge }, flt := { s.flt with ctl := t.flt.ctl }
                     trace := { s.trace with ctl := t.trace.ctl } } := by
  intro r hr ho
  have heffect : ∀ t, o < 2 ^ 26 → o % 8 = 0 → isBackup o = false → writeAny o w s = t → exec (.registerWrite o w) s = finish s t :=
    fun t ho hal hb => registerWrite_effect hfn hup hpresent ho hal hb t
  simp only [Claims.pfRegs, List.mem_cons, List.not_mem_nil, or_false] at hr
  rcases hr with rfl | rfl | rfl | rfl <;> dsimp only at ho
  · exact ⟨_, heffect _ (by omega) (by omega) (isBackup_eq_false (by omega)) (writeAny_arbWeight ho h0 s), fieldsTake_arbWeight w _, rfl⟩
  · exact ⟨_, heffect _ (by omega) (by omega) (isBackup_eq_false (by omega)) (writeAny_arbAge ho h0 s), fieldsTake_arbAge w _, rfl⟩
  · exact ⟨_, heffect _ (by omega) (by omega) (isBackup_eq_false (by omega)) (writeAny_fltCtl ho h0 s), fieldsTake_fltCtl w s, rfl⟩
  · exact ⟨_, heffect _ (by omega) (by omega) (isBackup_eq_false (by omega)) (writeAny_traceCtl ho h0 s), fieldsTake_traceCtl w _, rfl⟩

theorem registerWrite_ignored (ho : o < 2 ^ 26) (hal : o % 8 = 0) (hno : ¬Claims.takesWrites w.fn o) :
    exec (.registerWrite o w) s = .next s := by
  have hb : (isBackup o && w.fn == 0) = false := by
    by_cases h0 : w.fn = 0
    · simp only [Claims.takesWrites, h0, true_and, List.mem_cons, List.not_mem_nil, or_false, not_or] at hno
      simp only [h0, beq_self_eq_true, Bool.and_true]
      exact isBackup_eq_false (by omega)
    · simp [h0]
  have hany := execRegisterWrite_any hfn ho hal hup hpresent hb
  rw [writeAny_ignored o w s hal hno] at hany
  exact hany

/-- A set-up register of a pair below the mailbox block. -/
theorem registerWrite_ring (n k : Nat) (hn : n < 960) (hk : k = 0 ∨ k = 8 ∨ k = 16) (ho : o = 0x11000 + 64 * n + k) :
    exec (.registerWrite o w) s = finish s (writeRingBlock (64 * n + k) w s) := by
  have hoff : o - 0x11000 = 64 * n + k := by omega
  rw [← hoff]
  exact registerWrite_effect hfn hup hpresent (by omega) (by omega) (isBackup_eq_false (by omega)) _
    (writeAny_ring o w s (by omega) (by omega))

theorem registerWrite_ringHeld (n : Nat) (hn : n < 960) (ho : o = 0x11000 + 64 * n ∨ o = 0x11008 + 64 * n ∨ o = 0x11010 + 64 * n)
    (hheld : (ringOf s ⟨w.fn, n⟩).st ≠ .disabled ∨ ringExists s ⟨w.fn, n⟩ = false) : exec (.registerWrite o w) s = .next s := by
  obtain ⟨k, hk, hok⟩ : ∃ k, (k = 0 ∨ k = 8 ∨ k = 16) ∧ o = 0x11000 + 64 * n + k := ⟨o - 0x11000 - 64 * n, by omega, by omega⟩
  rw [registerWrite_ring hfn hup hpresent n k hn hk hok, writeRingBlock_held n k w s hk hheld]
  exact finish_self s

theorem registerWrite_ringSetup (n : Nat) (hn : n < 960) (hst : (ringOf s ⟨w.fn, n⟩).st = .disabled) (hex : ringExists s ⟨w.fn, n⟩ = true) :
    let r := ringOf s ⟨w.fn, n⟩
    (o = 0x11000 + 64 * n → ∃ r', exec (.registerWrite o w) s = .next (setRing s ⟨w.fn, n⟩ r')
        ∧ Claims.fieldsTake w [(63, 12, fun _ => true)] r.sqBase r'.sqBase ∧ { r' with sqBase := r.sqBase } = r)
    ∧ (o = 0x11008 + 64 * n → ∃ r', exec (.registerWrite o w) s = .next (setRing s ⟨w.fn, n⟩ r')
        ∧ Claims.fieldsTake w [(49, 6, fun _ => true)] r.cfg r'.cfg ∧ { r' with cfg := r.cfg } = r)
    ∧ (o = 0x11010 + 64 * n → ∃ r', exec (.registerWrite o w) s = .next (setRing s ⟨w.fn, n⟩ r')
        ∧ Claims.fieldsTake w [(63, 12, fun _ => true)] r.cqBase r'.cqBase ∧ { r' with cqBase := r.cqBase } = r) := by
  have hset : ∀ k r', (k = 0 ∨ k = 8 ∨ k = 16) → o = 0x11000 + 64 * n + k →
      writeRingReg ⟨w.fn, n⟩ (k / 8) w s = setRing s ⟨w.fn, n⟩ r' →
      exec (.registerWrite o w) s = .next (setRing s ⟨w.fn, n⟩ r') := fun k r' hk ho hw => by
    rw [registerWrite_ring hfn hup hpresent n k hn hk ho, writeRingBlock_setup n k w s hk hex, hw, finish_setRing]
  exact ⟨fun ho => ⟨_, hset 0 _ (by decide) ho (writeRingReg_sqBase _ w s hst), fieldsTake_one w _ 63 12 (by decide) (by decide), rfl⟩,
    fun ho => ⟨_, hset 8 _ (by decide) (by omega) (writeRingReg_cfg _ w s hst), fieldsTake_one w _ 49 6 (by decide) (by decide), rfl⟩,
    fun ho => ⟨_, hset 16 _ (by decide) (by omega) (writeRingReg_cqBase _ w s hst), fieldsTake_one w _ 63 12 (by decide) (by decide), rfl⟩⟩

theorem registerWrite_scratch (n : Nat) (hn : n < 32) (ho : o = 0x50100 + 8 * n) (h0 : w.fn = 0) (hpow : s.cal.powered = true)
    (hconvs : s.srv.convs = []) :
    exec (.registerWrite o w) s = .next { s with cal := { s.cal with scratch := sset s.cal.scratch n (merged (sgetD s.cal.scratch n 0) w) } } := by
  have hkey : (o - 0x50100) / 8 = n := by omega
  have hback : writeBackup o w s.cal = { s.cal with scratch := sset s.cal.scratch n (merged (sgetD s.cal.scratch n 0) w) } := by
    simp (disch := omega) only [writeBackup, if_neg, hkey]
  have hexec := execRegisterWrite_backup hfn (show o < 2 ^ 26 by omega) (by omega) hup hpresent (by rw [ho]; exact isBackup_scratch n hn) h0 hpow
  rw [hback, expireAfter_withCal _ s hconvs] at hexec
  exact hexec

end

/-- The first half of the statement on register writes: what a write leaves at each offset. -/
theorem writesLand : Claims.WritesLand := by
  intro s o w hfn ho
  refine ⟨execRegisterWrite_misaligned s o w hfn ho, execRegisterWrite_closed s o w hfn ho, fun hal hup hpresent => ⟨?_, ?_, ?_, ?_, ?_, ?_⟩⟩
  · exact registerWrite_plain hfn hup hpresent
  · exact registerWrite_pf hfn hup hpresent
  · exact registerWrite_ignored hfn hup hpresent ho hal
  · exact registerWrite_ringHeld hfn hup hpresent
  · exact registerWrite_ringSetup hfn hup hpresent
  · exact registerWrite_scratch hfn hup hpresent

end Sys2Proof.Proofs
end

section
/-!
PROOFS. Clearing VF Enable (R383, R404): what the reset of each virtual function leaves to the others, where the maps of function registers and of
ring pairs have their keys rising.
-/

namespace Sys2Proof.Machine

open Sys2Proof

/-! ### Sparse maps without some keys -/

theorem slookup_filter {α : Type} (m : Sparse α) (p : Nat → Bool) (a : Nat) (h : risingKeys m = true) :
    slookup (m.filter (fun x => p x.1)) a = if p a = true then slookup m a else none := by
  induction m with
  | nil => simp [slookup]
  | cons x m ih =>
    obtain ⟨k, v⟩ := x
    obtain ⟨habove, hm⟩ := (risingKeys_cons k v m).1 h
    by_cases hak : a = k
    · subst hak
      by_cases hk : p a = true
      · simp [slookup, hk]
      · simp [hk, ih hm]
    · by_cases hlt : a < k
      · have hnone := slookup_none_of_above m a (fun x hx => Nat.lt_trans hlt (habove x hx))
        by_cases hk : p k = true <;> simp [slookup, hk, hak, hlt, hnone, ih hm]
      · by_cases hk : p k = true <;> simp [slookup, hk, hak, hlt, ih hm]

theorem risingKeys_filter {α : Type} (m : Sparse α) (p : Nat × α → Bool) (h : risingKeys m = true) : risingKeys (m.filter p) = true := by
  rw [risingKeys_iff] at h ⊢
  exact h.filter p

/-! ### What a conversation's end leaves -/

/-- t is s but for its objects, its memory, its conversations and the functions whose conversations are to be released. -/
def ConvsOnly (s t : State) : Prop :=
  t = { s with
    obj := t.obj, mem := t.mem
    srv := { s.srv with convs := t.srv.convs, recent := t.srv.recent, releasing := t.srv.releasing } }

theorem convsOnly_endConv (how : ConvEnd) (s : State) (c : Conv) : ConvsOnly s (endConv how s c) := rfl

theorem ConvsOnly.trans {s t u : State} (a : ConvsOnly s t) (b : ConvsOnly t u) : ConvsOnly s u := by
  unfold ConvsOnly at *
  rw [b, a]

theorem convsOnly_foldl_endConv (how : ConvEnd) (cs : List Conv) (s : State) : ConvsOnly s (cs.foldl (endConv how) s) := by
  induction cs generalizing s with
  | nil => rfl
  | cons c cs ih => exact (convsOnly_endConv how s c).trans (ih _)

theorem convsOnly_settleReset (f : Nat) (s : State) : ConvsOnly s (settleReset f s) := by
  unfold settleReset
  split
  · have hrelease := convsOnly_foldl_endConv .released (s.srv.convs.filter (fun c => c.fn == f && (c.st == .open || c.st == .paused)))
      { s with srv := { s.srv with releasing := s.srv.releasing.filter (· != f) } }
    exact hrelease
  · rfl

/-! ### The reset of one function -/

/-- An event that finds room in the queue touches the queue and its high-water mark alone (R514). -/
theorem latch_room (e : Event) (s : State) (h : s.boot.evq.length < 4096) :
    ∃ q n, latch e s = { s with boot := { s.boot with highWater := n, evq := q } } ∧ q.length ≤ s.boot.evq.length + 1 := by
  have hl : latchEvent e s = (false, { s with boot := { s.boot with
      highWater := max s.boot.highWater (s.boot.evq.length + 1), evq := if s.boot.act = .held then s.boot.evq ++ [e] else s.boot.evq } }) :=
    if_neg (Nat.not_le.2 h)
  refine ⟨_, _, by rw [latch, hl]; rfl, ?_⟩
  split
  · simp
  · exact Nat.le_succ _

/-- What the reset of function f leaves where the event queue has room. -/
theorem resetFunction_room (f : Nat) (s : State) (h : s.boot.evq.length < 4096) :
    (resetFunction f s).port = (resetFnRegs f s).port ∧ (resetFunction f s).mbox = sset s.mbox f flushedChannel
      ∧ (resetFunction f s).srv.slots = (silenceFn f s).srv.slots ∧ (resetFunction f s).boot.evq.length ≤ s.boot.evq.length + 1 := by
  obtain ⟨q, n, hl, hq⟩ := latch_room (.doorbell f 31) (silenceFn f (resetFnRegs f s)) h
  have hc := convsOnly_settleReset f { latch (.doorbell f 31) (silenceFn f (resetFnRegs f s)) with
    srv := { (latch (.doorbell f 31) (silenceFn f (resetFnRegs f s))).srv with
      releasing := (latch (.doorbell f 31) (silenceFn f (resetFnRegs f s))).srv.releasing.filter (· != f) ++ [f] } }
  unfold resetFunction
  dsimp only
  rw [hc, hl]
  exact ⟨rfl, rfl, rfl, hq⟩

/-- The resets of functions fs take s to t: their requests are silent, their ring pairs are as at reset, and every other function keeps its set-up
registers, its ring pairs and its mailbox channel. -/
structure FunctionsReset (fs : List Nat) (s t : State) : Prop where
  slots : ∀ x ∈ t.srv.slots, ∃ y ∈ s.srv.slots, x.2.fn = y.2.fn ∧ (y.2.silent = true ∨ x.2.fn ∈ fs → x.2.silent = true)
  ringsRising : risingKeys s.port.rings = true → risingKeys t.port.rings = true
  rings : risingKeys s.port.rings = true → ∀ q : RingRef, q.ring < 1024 → ringOf t q = if q.fn ∈ fs then {} else ringOf s q
  fnsRising : risingKeys s.port.fns = true → risingKeys t.port.fns = true
  fns : risingKeys s.port.fns = true → ∀ g, g ∉ fs → fnRegs t g = fnRegs s g
  channels : ∀ g, g ∉ fs → channelOf t g = channelOf s g

theorem FunctionsReset.refl (s : State) : FunctionsReset [] s s :=
  ⟨fun x hx => ⟨x, hx, rfl, by simp⟩, id, fun _ _ _ => by simp, id, fun _ _ _ => rfl, fun _ _ => rfl⟩

theorem FunctionsReset.cons {f : Nat} {fs : List Nat} {s t u : State} (a : FunctionsReset [f] s t) (b : FunctionsReset fs t u) :
    FunctionsReset (f :: fs) s u where
  slots := fun x hx => by
    obtain ⟨y, hy, hxy, hx'⟩ := b.slots x hx
    obtain ⟨z, hz, hyz, hy'⟩ := a.slots y hy
    refine ⟨z, hz, hxy.trans hyz, fun hsil => hx' ?_⟩
    simp only [List.mem_cons, List.not_mem_nil, or_false] at hsil hy'
    rcases hsil with hzs | hxf | hmem
    · exact .inl (hy' (.inl hzs))
    · exact .inl (hy' (.inr (hxy ▸ hxf)))
    · exact .inr hmem
  ringsRising := b.ringsRising ∘ a.ringsRising
  rings := fun h q hq => by
    rw [b.rings (a.ringsRising h) q hq, a.rings h q hq]
    by_cases hf : q.fn = f <;> simp [hf]
  fnsRising := b.fnsRising ∘ a.fnsRising
  fns := fun h g hg => by
    rw [List.mem_cons, not_or] at hg
    rw [b.fns (a.fnsRising h) g hg.2, a.fns h g (by simpa using hg.1)]
  channels := fun g hg => by
    rw [List.mem_cons, not_or] at hg
    rw [b.channels g hg.2, a.channels g (by simpa using hg.1)]

theorem resetFunction_resets (f : Nat) (s : State) (h : s.boot.evq.length < 4096) : FunctionsReset [f] s (resetFunction f s) := by
  obtain ⟨hport, hmbox, hslots, -⟩ := resetFunction_room f s h
  have hrings : (resetFunction f s).port.rings = s.port.rings.filter (fun x => x.1 / 1024 != f) := by rw [hport]; rfl
  have hfns : (resetFunction f s).port.fns = serase s.port.fns f := by rw [hport]; rfl
  refine ⟨fun x hx => ?_, fun hr => ?_, fun hr q hq => ?_, fun hr => ?_, fun hr g hg => ?_, fun g hg => ?_⟩
  · rw [hslots] at hx
    obtain ⟨y, hy, rfl⟩ := List.mem_map.1 hx
    refine ⟨y, hy, ?_, ?_⟩
    · dsimp only
      split <;> rfl
    · by_cases hf : y.2.fn = f <;> simp [hf]
  · rw [hrings]
    exact risingKeys_filter _ _ hr
  · have hkey : ringKey q / 1024 = q.fn := by unfold ringKey; omega
    unfold ringOf sgetD
    rw [hrings, slookup_filter _ (fun k => k / 1024 != f) _ hr]
    by_cases hf : q.fn = f <;> simp [hkey, hf]
  · rw [hfns]
    exact risingKeys_serase _ _ hr
  · unfold fnRegs sgetD
    rw [hfns, slookup_serase_other _ _ _ hr (by simpa using hg)]
  · unfold channelOf
    rw [hmbox, sgetD_sset_other _ _ _ _ _ (by simpa using hg)]

theorem foldl_resetFunction_resets (fs : List Nat) (s : State) (h : s.boot.evq.length + fs.length ≤ 4096) :
    FunctionsReset fs s (fs.foldl (fun t f => resetFunction f t) s) := by
  induction fs generalizing s with
  | nil => exact FunctionsReset.refl s
  | cons f fs ih =>
    rw [List.length_cons] at h
    obtain ⟨-, -, -, hq⟩ := resetFunction_room f s (by omega)
    exact (resetFunction_resets f s (by omega)).cons (ih _ (by omega))

end Sys2Proof.Machine
end

section
/-!
PROOFS. The statement on register writes and VF Enable (O60). Its first half holds (writesLand). Its second quantifies over every state, so over
those whose map of function registers is out of order too, and there taking function 1 away uncovers another entry for function 0; it holds wherever
the keys rise, as every operation on sparse maps keeps them (vfEnable_of_risingKeys).
-/

namespace Sys2Proof.Proofs

open Sys2Proof Sys2Proof.Machine

/-- The virtual functions. -/
def virtualFns : List Nat := (List.range 63).map (· + 1)

theorem mem_virtualFns {f : Nat} : f ∈ virtualFns ↔ 1 ≤ f ∧ f < 64 := by
  simp only [virtualFns, List.mem_map, List.mem_range]
  constructor
  · rintro ⟨k, hk, rfl⟩
    omega
  · rintro ⟨h1, h64⟩
    exact ⟨f - 1, by omega, by omega⟩

/-- Clearing VF Enable resets the virtual functions, in rising order (R383). -/
theorem execSriovVfEnable_clear (s : State) (n : Nat) (hn : n < 64) (htr : s.port.trained = true) (hst : s.clk.stopped = false)
    (hvf : s.port.vfEnable = true) :
    let s1 := virtualFns.foldl (fun t f => resetFunction f t) s
    execSriovVfEnable false n s = finish s { s1 with port := { s1.port with vfEnable := false, numVfs := n } } := by
  simp [execSriovVfEnable, hn, htr, hst, hvf, virtualFns]

/-- SRIOV_VF_ENABLE (R379, R383), as the statement has it, for every state in which the keys of function registers and of ring pairs rise. -/
theorem vfEnable_of_risingKeys (s : State) (n : Nat) (hn : n < 64) (hfns : risingKeys s.port.fns = true) (hrings : risingKeys s.port.rings = true) :
    (s.port.trained = true → s.clk.stopped = false →
      (s.port.vfEnable = false → ∀ on, exec (.sriovVfEnable on n) s = .next { s with port := { s.port with vfEnable := on, numVfs := n } })
      ∧ (s.port.vfEnable = true → exec (.sriovVfEnable true n) s = .next s)
      ∧ (s.port.vfEnable = true → s.boot.evq.length + 63 ≤ 4096 →
          ∃ t, exec (.sriovVfEnable false n) s = .next t ∧ t.port.vfEnable = false ∧ t.port.numVfs = n
          ∧ (∀ f, 1 ≤ f → f < 64 → ∀ x ∈ t.srv.slots, x.2.fn = f → x.2.silent = true)
          ∧ (∀ f k, 1 ≤ f → f < 64 → k < 1024 → ringOf t ⟨f, k⟩ = {})
          ∧ (∀ k, k < 1024 → ringOf t ⟨0, k⟩ = ringOf s ⟨0, k⟩) ∧ fnRegs t 0 = fnRegs s 0 ∧ channelOf t 0 = channelOf s 0))
    ∧ (s.port.trained = false ∨ s.clk.stopped = true → ∀ on, exec (.sriovVfEnable on n) s = .next s) := by
  refine ⟨fun htr hst => ⟨fun hvf on => ?_, fun hvf => ?_, fun hvf hroom => ?_⟩, fun hoff on => ?_⟩
  · show execSriovVfEnable on n s = _
    simp [execSriovVfEnable, hn, htr, hst, hvf, finish]
  · have hport : { s.port with vfEnable := true } = s.port := by rw [← hvf]
    show execSriovVfEnable true n s = _
    rw [execSriovVfEnable, if_pos hn, htr, hst, hvf]
    exact congrArg (fun p => Host.Outcome.next { s with port := p }) hport
  · have hreset := foldl_resetFunction_resets virtualFns s hroom
    have hexec := execSriovVfEnable_clear s n hn htr hst hvf
    have h0 : 0 ∉ virtualFns := by simp [mem_virtualFns]
    generalize virtualFns.foldl (fun t f => resetFunction f t) s = s1 at hreset hexec
    refine ⟨_, hexec, rfl, rfl, fun f h1 h64 x hx hxf => ?_, fun f k h1 h64 hk => ?_, fun k hk => ?_, ?_, ?_⟩
    · obtain ⟨y, -, -, hsilent⟩ := hreset.slots x hx
      exact hsilent (.inr (mem_virtualFns.2 ⟨hxf ▸ h1, hxf ▸ h64⟩))
    · exact (hreset.rings hrings ⟨f, k⟩ hk).trans (if_pos (mem_virtualFns.2 ⟨h1, h64⟩))
    · exact (hreset.rings hrings ⟨0, k⟩ hk).trans (if_neg h0)
    · exact hreset.fns hfns 0 h0
    · exact hreset.channels 0 h0
  · show execSriovVfEnable on n s = _
    rcases hoff with htr | hst
    · simp [execSriovVfEnable, hn, htr, finish_self]
    · simp [execSriovVfEnable, hn, hst, finish_self]

/-- A state whose map of function registers lists function 1 before function 0: function 0 reads as at reset. -/
def unorderedFns : State :=
  { State.reset with port := { State.reset.port with trained := true, vfEnable := true, fns := [(1, {}), (0, { doorbell := 0x1000 })] } }

/-- Once function 1 is reset, the entry that it hid answers for function 0. -/
theorem unorderedFns_clear : ∃ t, exec (.sriovVfEnable false 0) unorderedFns = .next t ∧ fnRegs t 0 ≠ fnRegs unorderedFns 0 := by
  refine ⟨_, rfl, ?_⟩
  decide +kernel

/-- Refutes O60: clearing VF Enable changes what function 0's set-up registers read where the map that holds them is out of order. -/
theorem not_registerWrites : ¬Obligations.RegisterWrites := by
  rintro ⟨-, hvf⟩
  obtain ⟨hup, -⟩ := hvf unorderedFns 0 (by decide)
  obtain ⟨-, -, hclear⟩ := hup rfl rfl
  obtain ⟨t, ht, -, -, -, -, -, hregs, -⟩ := hclear rfl (by decide)
  obtain ⟨u, hu, hne⟩ := unorderedFns_clear
  cases ht.symm.trans hu
  exact hne hregs

end Sys2Proof.Proofs
end

section
/-!
PROOFS. The output tiles of a pass (R119): the parts that a list is cut into, and what stands in each row of a tile.
-/

namespace Sys2Proof.Machine

open Sys2Proof

@[simp] theorem length_chunksOf {α : Type} (n : Nat) (l : List α) : (chunksOf n l).length = ceilDiv l.length n := by
  simp [chunksOf]

theorem getElem?_chunksOf {α : Type} (n : Nat) (l : List α) {i : Nat} (hi : i < ceilDiv l.length n) :
    (chunksOf n l)[i]? = some ((l.drop (n * i)).take n) := by
  simp [chunksOf, hi]

/-- Every place of a list lies in one of its parts of 64. -/
theorem lt_mul_ceilDiv {m r : Nat} (hr : r < m) : r < 64 * ceilDiv m 64 := by
  have hceil : ceilDiv m 64 = (m + 64 - 1) / 64 := rfl
  omega

/-- Element r of a list is element r mod n of its part r ÷ n. -/
theorem getElem?_part {α : Type} {n : Nat} (hn : 0 < n) (l : List α) (r : Nat) : ((l.drop (n * (r / n))).take n)[r % n]? = l[r]? := by
  rw [List.getElem?_take_of_lt (Nat.mod_lt r hn), List.getElem?_drop, Nat.div_add_mod]

/-- A part mapped and filled up to n elements: an element of the list stands at its place, and beyond the list the filling does. -/
theorem getElem?_filledPart {α β : Type} {n : Nat} (hn : 0 < n) (f : α → β) (z : β) (l : List α) (r : Nat) :
    (((l.drop (n * (r / n))).take n).map f ++ List.replicate (n - ((l.drop (n * (r / n))).take n).length) z)[r % n]?
      = some ((l[r]?.map f).getD z) := by
  have hpart := getElem?_part hn l r
  generalize (l.drop (n * (r / n))).take n = part at hpart
  cases hr : l[r]? with
  | some x =>
    rw [hr] at hpart
    have hlt : r % n < (part.map f).length := by
      rw [List.length_map]
      exact (List.getElem?_eq_some_iff.1 hpart).1
    rw [List.getElem?_append_left hlt, List.getElem?_map, hpart]
    rfl
  | none =>
    rw [hr, List.getElem?_eq_none_iff] at hpart
    have hmod := Nat.mod_lt r hn
    rw [List.getElem?_append_right (by simpa using hpart), List.getElem?_replicate, if_pos (by simp; omega)]
    rfl

/-- The output tile that takes one part of a pass's rows, numbered in the pass. -/
def outputTile (isInt : Bool) (tags : List RowTag) (owner : Option (Nat × Nat × Nat)) (part : List ((List Int × Nat) × Nat)) : OutTile :=
  { isInt := isInt
    rows := part.map (fun q => q.1.1) ++ List.replicate (64 - part.length) (List.replicate 64 0)
    valid := part.length
    tags := part.map (fun q => tags.getD q.2 ⟨none, false, 0⟩) ++ List.replicate (64 - part.length) ⟨none, false, 0⟩
    flags := part.map (fun q => q.1.2) ++ List.replicate (64 - part.length) 0
    owner := owner }

theorem outputTiles_eq (isInt : Bool) (rows : List (List Int × Nat)) (tags : List RowTag) (owner : Option (Nat × Nat × Nat)) :
    outputTiles isInt rows tags owner = (chunksOf 64 rows.zipIdx).map (outputTile isInt tags owner) := rfl

@[simp] theorem length_outputTiles (isInt : Bool) (rows : List (List Int × Nat)) (tags : List RowTag) (owner : Option (Nat × Nat × Nat)) :
    (outputTiles isInt rows tags owner).length = ceilDiv rows.length 64 := by
  simp [outputTiles_eq]

section

variable (isInt : Bool) (rows : List (List Int × Nat)) (tags : List RowTag) (owner : Option (Nat × Nat × Nat)) (d : OutTile) {r : Nat}

theorem outputTiles_getD (hr : r < 64 * ceilDiv rows.length 64) :
    (outputTiles isInt rows tags owner).getD (r / 64) d = outputTile isInt tags owner ((rows.zipIdx.drop (64 * (r / 64))).take 64) := by
  have hi : r / 64 < ceilDiv rows.zipIdx.length 64 := by
    rw [List.length_zipIdx]
    omega
  rw [outputTiles_eq, List.getD_eq_getElem?_getD, List.getElem?_map, getElem?_chunksOf 64 _ hi]
  rfl

/-- A row of a pass in its output tile: its accumulators, its flags and its tag (R119). -/
theorem outputTiles_row {row : List Int × Nat} (hrow : rows[r]? = some row) :
    let tile := (outputTiles isInt rows tags owner).getD (r / 64) d
    tile.isInt = isInt ∧ tile.rows[r % 64]? = some row.1 ∧ tile.flags[r % 64]? = some row.2
      ∧ tile.tags[r % 64]? = some (tags.getD r ⟨none, false, 0⟩) := by
  have hr : r < rows.length := (List.getElem?_eq_some_iff.1 hrow).1
  have hidx : rows.zipIdx[r]? = some (row, r) := by simp [List.getElem?_zipIdx, hrow]
  rw [outputTiles_getD isInt rows tags owner d (lt_mul_ceilDiv hr)]
  refine ⟨rfl, ?_, ?_, ?_⟩ <;>
  · refine (getElem?_filledPart (by decide) _ _ rows.zipIdx r).trans ?_
    rw [hidx]
    rfl

/-- The unused rows of the last output tile are zero (R119). -/
theorem outputTiles_unused (hlast : rows.length ≤ r) (hr : r < 64 * ceilDiv rows.length 64) :
    ((outputTiles isInt rows tags owner).getD (r / 64) d).rows[r % 64]? = some (List.replicate 64 0) := by
  have hidx : rows.zipIdx[r]? = none := by simpa using hlast
  rw [outputTiles_getD isInt rows tags owner d hr]
  refine (getElem?_filledPart (by decide) _ _ rows.zipIdx r).trans ?_
  rw [hidx]
  rfl

end

end Sys2Proof.Machine
end

section
/-!
PROOFS. What a stream pass does to the package (R116, R119, R134): its core takes the pass's effect, and beyond that only the slots of requests
whose rows it is tagged with change.
-/

namespace Sys2Proof.Machine

open Sys2Proof

/-! ### The next slot of the hand-off queue -/

/-- Starting to fill a slot changes the queue alone. -/
theorem startFilling_rest (c : Core) : startFilling c = { c with queue := (startFilling c).queue } := by
  unfold startFilling
  split
  · rfl
  · dsimp only
    split <;> rfl

theorem startFilling_queue_other (c : Core) {k : Nat} (hk : k ≠ c.fillAt) : sgetD (startFilling c).queue k {} = sgetD c.queue k {} := by
  unfold startFilling
  split
  · rfl
  · dsimp only
    split
    · exact sgetD_sset_other _ _ _ _ _ hk
    · rfl

/-! ### Requests that rows are tagged with -/

/-- t is s but for the requests in the slots that may change. -/
structure SlotsOnly (may : Nat → Prop) (s t : State) : Prop where
  rest : t = { s with srv := { s.srv with slots := t.srv.slots } }
  others : ∀ k, ¬ may k → slotOf t k = slotOf s k

theorem SlotsOnly.refl (may : Nat → Prop) (s : State) : SlotsOnly may s s := ⟨rfl, fun _ _ => rfl⟩

theorem SlotsOnly.trans {may : Nat → Prop} {s t u : State} (a : SlotsOnly may s t) (b : SlotsOnly may t u) : SlotsOnly may s u :=
  ⟨by rw [b.rest, a.rest], fun k hk => (b.others k hk).trans (a.others k hk)⟩

theorem setSlot_slotsOnly {may : Nat → Prop} (s : State) (n : Nat) (r : Request) (hn : may n) : SlotsOnly may s (setSlot s n r) :=
  ⟨rfl, fun k hk => slotOf_setSlot_other s n k r (fun h => hk (h ▸ hn))⟩

/-- A row reaches no request but the one it is tagged with (R134). -/
theorem tagRow_slotsOnly {may : Nat → Prop} (fault : Bool) (tag : RowTag) (flags : Nat) (bad : Option (Nat × Nat)) (s : State)
    (hmay : ∀ k, tag.slot = some k → may k) : SlotsOnly may s (tagRow fault tag flags bad s) := by
  unfold tagRow
  cases hslot : tag.slot with
  | none => exact .refl may s
  | some n =>
    dsimp only
    cases slotOf s n with
    | none => exact .refl may s
    | some q =>
      dsimp only
      cases unitRun q 0 with
      | none => exact .refl may s
      | some u =>
        dsimp only
        split
        · exact setSlot_slotsOnly s n _ (hmay n hslot)
        · exact .refl may s

theorem foldl_tagRow_slotsOnly {may : Nat → Prop} (fault : Bool) (tag : Nat → RowTag) (flags : Nat → Nat) (bad : Nat → Option (Nat × Nat))
    (hmay : ∀ r k, (tag r).slot = some k → may k) (rows : List Nat) (s : State) :
    SlotsOnly may s (rows.foldl (fun t r => tagRow fault (tag r) (flags r) (bad r) t) s) := by
  induction rows generalizing s with
  | nil => exact .refl may s
  | cons r rows ih => exact (tagRow_slotsOnly fault (tag r) (flags r) (bad r) s (hmay r)).trans (ih _)

/-! ### The pass -/

/-- The memory that a pass streams its rows from (R116). -/
def streamMem (s : State) (n : Nat) (p : PassOp) : Mem :=
  match p.rowSpace with
  | .tileStore => (coreOf s n).tileStore
  | .crewSram => (crewOf s (n / 9)).sram

/-- The columns of the stationary tile that a pass uses. -/
def passColumns (c : Core) (p : PassOp) : List (List Nat × List Nat) :=
  stationaryColumns p.rowFormat p.statFormat (passTile c p).2.1 (passTile c p).2.2

/-- The output tiles of a PASS command. -/
def passOutput (c : Core) (mem : Mem) (p : PassOp) : List OutTile :=
  outputTiles (pairIsInt p.rowFormat) ((List.range p.m).map (passRow c mem p (passColumns c p))) p.tags none

/-- Row r of a pass in its output tile (R119, R127 to R129). -/
theorem passOutput_row (c : Core) (mem : Mem) (p : PassOp) (d : OutTile) {r : Nat} (hr : r < p.m) :
    let tile := (passOutput c mem p).getD (r / 64) d
    let res := passRow c mem p (passColumns c p) r
    tile.isInt = pairIsInt p.rowFormat ∧ tile.rows[r % 64]? = some res.1 ∧ tile.flags[r % 64]? = some res.2
      ∧ tile.tags[r % 64]? = some (p.tags.getD r ⟨none, false, 0⟩) :=
  outputTiles_row _ _ _ _ _ (by simp [hr])

@[simp] theorem length_passOutput (c : Core) (mem : Mem) (p : PassOp) : (passOutput c mem p).length = ceilDiv p.m 64 := by
  simp [passOutput]

theorem passOutput_unused (c : Core) (mem : Mem) (p : PassOp) (d : OutTile) {r : Nat} (hm : p.m ≤ r) (hr : r < 64 * ceilDiv p.m 64) :
    ((passOutput c mem p).getD (r / 64) d).rows[r % 64]? = some (List.replicate 64 0) :=
  outputTiles_unused _ _ _ _ _ (by simpa using hm) (by simpa using hr)

/-- A pass holds its tile and adds its output tiles to those that wait (R116, R119). -/
theorem passEffect_tiles (c : Core) (mem : Mem) (p : PassOp) :
    (passEffect c mem p).outTiles = c.outTiles ++ passOutput c mem p ∧ (passEffect c mem p).statTile = some (passTile c p) := by
  unfold passEffect
  rw [startFilling_rest]
  exact ⟨rfl, rfl⟩

theorem passEffect_rest (c : Core) (mem : Mem) (p : PassOp) :
    { passEffect c mem p with outTiles := c.outTiles, statTile := c.statTile, queue := c.queue, gated := c.gated, products := c.products
                              chain := c.chain, inGap := c.inGap } = c := by
  unfold passEffect
  rw [startFilling_rest]

/-- The state after a pass: its core has taken the effect, then each row's flags and poison have reached the request it is tagged with. -/
def afterPass (s : State) (n : Nat) (p : PassOp) : State :=
  (List.range p.m).foldl
    (fun t r => tagRow p.faultPolicy (p.tags.getD r ⟨none, false, 0⟩) (passRow (coreOf s n) (streamMem s n p) p (passColumns (coreOf s n) p) r).2
      (passPoison (coreOf s n) (crewOf s (n / 9)).sramPoison p r) t)
    (setCore s n (passEffect (coreOf s n) (streamMem s n p) p))

/-- A pass that R116 and R118 allow, with what it reads at hand, runs to its end. -/
theorem exec_pass_runs {s : State} {n : Nat} {p : PassOp} (hn : isCore s n = true) (hlo : 1 ≤ p.m) (hhi : p.m ≤ 16777216)
    (hpair : pairSupported p.rowFormat p.statFormat = true) (hruns : passRuns s n p = true) :
    exec (.pass n p) s = finish s (afterPass s n p) := by
  simp only [passRuns, Bool.and_eq_true] at hruns
  obtain ⟨hkeep, hinside⟩ := hruns
  have hok : passOk s n p = true := by
    simp only [passOk, hn, hlo, hhi, hpair, decide_true, Bool.true_and]
    exact hkeep
  show execPass n p s = _
  rw [execPass, if_pos hok, if_pos hinside]
  rfl

theorem exists_tag_of_getD_slot {tags : List RowTag} {r k : Nat} (hk : (tags.getD r ⟨none, false, 0⟩).slot = some k) :
    ∃ tag ∈ tags, tag.slot = some k := by
  by_cases hr : r < tags.length
  · exact ⟨tags[r], List.getElem_mem hr, List.getD_eq_getElem tags _ hr ▸ hk⟩
  · simp [List.getD_eq_getElem?_getD, hr] at hk

theorem afterPass_slotsOnly (s : State) (n : Nat) (p : PassOp) :
    SlotsOnly (fun k => ∃ tag ∈ p.tags, tag.slot = some k) (setCore s n (passEffect (coreOf s n) (streamMem s n p) p)) (afterPass s n p) :=
  foldl_tagRow_slotsOnly _ _ _ _ (fun _ _ => exists_tag_of_getD_slot) _ _

/-- t is s after a pass on core n. -/
structure PassDone (s : State) (n : Nat) (p : PassOp) (t : State) : Prop where
  core : coreOf t n = passEffect (coreOf s n) (streamMem s n p) p
  otherCores : ∀ m, m ≠ n → coreOf t m = coreOf s m
  rest : t = { s with cores := t.cores, srv := t.srv }
  srv : { t.srv with slots := s.srv.slots } = s.srv
  slots : ∀ k, (∀ tag ∈ p.tags, tag.slot ≠ some k) → slotOf t k = slotOf s k

theorem exec_pass_done {s : State} {n : Nat} {p : PassOp} (hn : isCore s n = true) (hlo : 1 ≤ p.m) (hhi : p.m ≤ 16777216)
    (hpair : pairSupported p.rowFormat p.statFormat = true) (hruns : passRuns s n p = true) :
    ∃ t, exec (.pass n p) s = .next t ∧ PassDone s n p t := by
  obtain ⟨hrest, hothers⟩ := afterPass_slotsOnly s n p
  refine ⟨_, exec_pass_runs hn hlo hhi hpair hruns, ?_, fun m hm => ?_, ?_, ?_, fun k hk => ?_⟩
  · rw [hrest]
    exact coreOf_setCore_self s n _
  · rw [hrest]
    exact coreOf_setCore_other s n m _ hm
  · rw [hrest]
    rfl
  · rw [hrest]
    rfl
  · exact hothers k (fun ⟨tag, hmem, htag⟩ => hk tag hmem htag)

end Sys2Proof.Machine

namespace Sys2Proof.Proofs

open Sys2Proof Sys2Proof.Machine

/-- Settles O16: the pass adds its output tiles, and each row stands at its place in them. -/
theorem arrayPassRuns : Obligations.ArrayPassRuns := by
  intro s n p hn hlo hhi hpair hruns
  obtain ⟨t, hexec, done⟩ := exec_pass_done hn hlo hhi hpair hruns
  obtain ⟨hout, hstat⟩ := passEffect_tiles (coreOf s n) (streamMem s n p) p
  refine ⟨t, passOutput (coreOf s n) (streamMem s n p) p, hexec, ?_, length_passOutput _ _ _, ?_, ?_, ?_, done.otherCores, done.rest, done.srv,
    done.slots, ?_⟩
  · rw [done.core, hout]
  · rw [done.core, hstat]
  · exact fun r hr => passOutput_row _ _ _ _ hr
  · intro r hm hr
    rw [length_passOutput] at hr
    exact passOutput_unused _ _ _ _ hm hr
  · rw [done.core]
    exact passEffect_rest _ _ _

end Sys2Proof.Proofs
end

section
/-!
PROOFS. The array's side of the hand-off queue (R119, R165) and dummy mode (R143).
-/

namespace Sys2Proof.Machine

open Sys2Proof

/-! ### The hand-off of a tile -/

/-- The core whose oldest output tile has taken the slot, before the array starts on the next. -/
def tileTaken (c : Core) (tile : OutTile) (ts : List OutTile) : Core :=
  { c with queue := sset c.queue c.fillAt ⟨.ready, 0, some tile⟩, fillAt := (c.fillAt + 1) % 16, outTiles := ts }

theorem offerTile_takes {c : Core} {tile : OutTile} {ts : List OutTile} (hout : c.outTiles = tile :: ts)
    (hroom : (sgetD c.queue c.fillAt {}).st = .free ∨ (sgetD c.queue c.fillAt {}).st = .filling) :
    offerTile c = startFilling (tileTaken c tile ts) := by
  unfold offerTile
  rw [hout]
  exact if_pos hroom

theorem exec_tileOffered_takes {s : State} {n : Nat} (hn : isCore s n = true) {tile : OutTile} {ts : List OutTile}
    (hout : (coreOf s n).outTiles = tile :: ts)
    (hroom : (sgetD (coreOf s n).queue (coreOf s n).fillAt {}).st = .free ∨ (sgetD (coreOf s n).queue (coreOf s n).fillAt {}).st = .filling) :
    exec (.tileOffered n) s = .next (setCore s n (startFilling (tileTaken (coreOf s n) tile ts))) := by
  show execTileOffered n s = _
  rw [execTileOffered, if_pos hn, ← offerTile_takes hout hroom]
  dsimp only
  rw [if_pos ⟨by simp [hout], hroom⟩]
  rfl

/-- With no tile, or no room in the queue, the array stalls (R119). -/
theorem exec_tileOffered_stalls {s : State} {n : Nat} (hn : isCore s n = true)
    (hstall : (coreOf s n).outTiles = [] ∨ ((sgetD (coreOf s n).queue (coreOf s n).fillAt {}).st ≠ .free
      ∧ (sgetD (coreOf s n).queue (coreOf s n).fillAt {}).st ≠ .filling)) :
    exec (.tileOffered n) s = .next s := by
  show execTileOffered n s = _
  rw [execTileOffered, if_pos hn]
  dsimp only
  rw [if_neg (by tauto)]
  exact finish_self s

/-! ### Dummy rows -/

/-- A quotient to the nearest integer lies within half a unit of the exact one. -/
theorem roundDiv_within (up : Bool) {a b : Nat} (hb : b ≠ 0) :
    2 * a ≤ 2 * (roundDiv up a b * b) + b ∧ 2 * (roundDiv up a b * b) ≤ 2 * a + b := by
  have hdiv : b * (a / b) + a % b = a := Nat.div_add_mod a b
  have hmod : a % b < b := Nat.mod_lt a (Nat.pos_of_ne_zero hb)
  rw [Nat.mul_comm b] at hdiv
  unfold roundDiv
  dsimp only
  split
  · next hup =>
    have hhalf : b ≤ 2 * (a % b) := by
      simp only [Bool.or_eq_true, Bool.and_eq_true, decide_eq_true_eq, beq_iff_eq] at hup
      omega
    rw [Nat.add_mul, Nat.one_mul]
    omega
  · next hdown =>
    have hhalf : 2 * (a % b) ≤ b := by
      simp only [Bool.or_eq_true, decide_eq_true_eq, not_or] at hdown
      omega
    omega

/-- A quotient of at most k is k at most after rounding. -/
theorem roundDiv_le (up : Bool) {a b k : Nat} (hb : b ≠ 0) (hk : a ≤ k * b) : roundDiv up a b ≤ k := by
  obtain ⟨-, hwithin⟩ := roundDiv_within up (a := a) hb
  by_contra hgt
  have hnext : (k + 1) * b ≤ roundDiv up a b * b := Nat.mul_le_mul_right b (by omega)
  rw [Nat.add_mul, Nat.one_mul] at hnext
  omega

/-- The duty at which a gap's dummy rows start, by the free value that decides what R143 leaves open. -/
def gapDuty (c : Core) (free : Nat) : Nat :=
  if c.products = 0 then free % 17 else roundDiv (free % 2 == 1) (16 * (c.products - c.gated)) c.products

/-- After a pass the duty lies within half a sixteenth of the fraction of ungated products (R143). -/
theorem gapDuty_within {c : Core} (free : Nat) (hprod : c.products ≠ 0) :
    2 * (16 * (c.products - c.gated)) ≤ 2 * (gapDuty c free * c.products) + c.products
      ∧ 2 * (gapDuty c free * c.products) ≤ 2 * (16 * (c.products - c.gated)) + c.products ∧ gapDuty c free ≤ 16 := by
  rw [gapDuty, if_neg hprod]
  obtain ⟨hlow, hhigh⟩ := roundDiv_within (free % 2 == 1) hprod (a := 16 * (c.products - c.gated))
  exact ⟨hlow, hhigh, roundDiv_le _ hprod (by omega)⟩

theorem exec_dummyGap_starts {s : State} {n : Nat} (hn : isCore s n = true) (hmode : s.boot.dummy = true) (hactive : isActiveCore s n = true) :
    ∃ ctr, exec (.dummyGap n) s = .next (setCore { s with freeCtr := ctr } n
      { coreOf s n with inGap := true, duty := gapDuty (coreOf s n) (Config.freeValue s.freeCtr).toNat, lfsr := Config.lfsrNext (coreOf s n).lfsr }) := by
  show ∃ ctr, execDummyGap n s = _
  rw [execDummyGap, if_pos hn, if_pos (by rw [hmode, hactive]; rfl)]
  dsimp only
  split
  · exact ⟨s.freeCtr + 1, rfl⟩
  · exact ⟨s.freeCtr, rfl⟩

theorem exec_dummyDutyStep_lowers {s : State} {n : Nat} (hn : isCore s n = true) (hmode : s.boot.dummy = true) (hactive : isActiveCore s n = true)
    (hgap : (coreOf s n).inGap = true) :
    exec (.dummyDutyStep n) s
      = .next (setCore s n { coreOf s n with duty := (coreOf s n).duty - 1, lfsr := Config.lfsrNext (coreOf s n).lfsr }) := by
  show execDummyDutyStep n s = _
  rw [execDummyDutyStep, if_pos hn]
  dsimp only
  rw [if_pos (by rw [hmode, hactive, hgap]; rfl)]
  rfl

end Sys2Proof.Machine

namespace Sys2Proof.Proofs

open Sys2Proof Sys2Proof.Machine

theorem arrayHandOff : Claims.ArrayHandOff := by
  intro s n hn
  refine ⟨fun tile ts hout hroom hfill => ⟨_, exec_tileOffered_takes hn hout hroom, ?_⟩, exec_tileOffered_stalls hn⟩
  have hnext : (coreOf s n).fillAt ≠ ((coreOf s n).fillAt + 1) % 16 := by omega
  have hrest := startFilling_rest (tileTaken (coreOf s n) tile ts)
  rw [coreOf_setCore_self]
  refine ⟨?_, congrArg Core.fillAt hrest, congrArg Core.outTiles hrest, (congrArg Core.readAt hrest :), fun k hk hk' => ?_,
    fun m hm => coreOf_setCore_other s n m _ hm, rfl⟩
  · exact (startFilling_queue_other _ hnext).trans (sgetD_sset_self _ _ _ _)
  · exact (startFilling_queue_other _ hk').trans (sgetD_sset_other _ _ _ _ _ hk)

theorem arrayDummyDuty : Claims.ArrayDummyDuty := by
  refine ⟨fun s n hn hmode hactive => ?_, fun s n hn hmode hactive hgap => ?_⟩
  · obtain ⟨ctr, hexec⟩ := exec_dummyGap_starts hn hmode hactive
    refine ⟨_, hexec, ?_⟩
    rw [coreOf_setCore_self]
    exact ⟨rfl, fun hprod _ => gapDuty_within _ hprod, rfl, rfl⟩
  · refine ⟨_, exec_dummyDutyStep_lowers hn hmode hactive hgap, ?_⟩
    rw [coreOf_setCore_self]
    exact ⟨rfl, rfl, rfl⟩

/-- Settles O17: the hand-off of tiles, and the duty of dummy rows. -/
theorem arrayTilesAndGaps : Obligations.ArrayTilesAndGaps := ⟨arrayHandOff, arrayDummyDuty⟩

end Sys2Proof.Proofs
end

section
/-!
PROOFS. Integer passes (R129, R132): a column's accumulator after each number of reduction elements, and the flags that its chain has set.
-/

namespace Sys2Proof.Machine

open Sys2Proof

/-! ### Flag masks -/

@[simp] theorem hasBit_flagOr (a b n : Nat) : hasBit (flagOr a b) n = (hasBit a n || hasBit b n) := Nat.testBit_or a b n

theorem hasBit_foldl_flagOr (l : List Nat) (m n : Nat) : hasBit (l.foldl flagOr m) n = (hasBit m n || l.any (hasBit · n)) := by
  induction l generalizing m with
  | nil => simp
  | cons f l ih => rw [List.foldl_cons, ih, hasBit_flagOr, List.any_cons, Bool.or_assoc]

/-- A flag is in the OR of masks where one of them has it (R134). -/
theorem hasBit_flagsOf (l : List Nat) (n : Nat) : hasBit (flagsOf l) n = l.any (hasBit · n) := by
  rw [flagsOf, hasBit_foldl_flagOr, hasBit, Nat.zero_testBit, Bool.false_or]

theorem hasBit_flagGof : hasBit flagGof 2 = true := by decide

/-! ### One addition -/

/-- A 40-bit sum: the nearer limit with GOF where the exact one lies outside the range (R132). -/
theorem satInt_40 (x : Int) :
    (satInt 40 flagGof x).1 = (if 2 ^ 39 - 1 < x then 2 ^ 39 - 1 else if x < -(2 ^ 39) then -(2 ^ 39) else x)
      ∧ hasBit (satInt 40 flagGof x).2 2 = decide (2 ^ 39 - 1 < x ∨ x < -(2 ^ 39)) := by
  by_cases hhi : 549755813887 < x
  · simp [satInt, hhi, hasBit_flagGof]
  · by_cases hlo : x < -549755813888
    · simp [satInt, hhi, hlo, hasBit_flagGof]
    · simp [satInt, hhi, hlo, hasBit]

theorem accInt_append (acc : Int) (flags : Nat) (ps qs : List (Int × Int)) :
    accInt acc flags (ps ++ qs) = accInt (accInt acc flags ps).1 (accInt acc flags ps).2 qs := by
  induction ps generalizing acc flags with
  | nil => rfl
  | cons x ps ih => exact ih _ _

/-- The accumulator and the flags after the first i reduction elements. -/
def accAfter (acc : Int) (flags : Nat) (ps : List (Int × Int)) (i : Nat) : Int × Nat := accInt acc flags (ps.take i)

@[simp] theorem accAfter_zero (acc : Int) (flags : Nat) (ps : List (Int × Int)) : accAfter acc flags ps 0 = (acc, flags) := by
  simp [accAfter, accInt]

theorem accAfter_length (acc : Int) (flags : Nat) (ps : List (Int × Int)) : accAfter acc flags ps ps.length = accInt acc flags ps := by
  rw [accAfter, List.take_length]

/-- The next element's product is added to the accumulator under R132. -/
theorem accAfter_succ (acc : Int) (flags : Nat) (ps : List (Int × Int)) {i : Nat} {a w : Int} (hi : ps[i]? = some (a, w)) :
    let sum := satInt 40 flagGof ((accAfter acc flags ps i).1 + a * w)
    accAfter acc flags ps (i + 1) = (sum.1, flagOr (accAfter acc flags ps i).2 sum.2) := by
  unfold accAfter
  rw [List.take_add_one, hi, accInt_append]
  rfl

/-! ### A column of a row -/

theorem getElem?_eq_some_getD {α : Type} {l : List α} {i : Nat} (hi : i < l.length) (d : α) : l[i]? = some (l.getD i d) := by
  rw [List.getD_eq_getElem l d hi, List.getElem?_eq_getElem hi]

@[simp] theorem length_codesAt (mem : Mem) (fmt addr first n : Nat) : (codesAt mem fmt addr first n).length = n := by simp [codesAt]

@[simp] theorem length_stationaryColumns (rf sf : Nat) (codes scales : List Nat) : (stationaryColumns rf sf codes scales).length = 64 := by
  simp [stationaryColumns]

theorem stationaryColumns_codes (rf sf : Nat) (codes scales : List Nat) {j : Nat} (hj : j < 64) :
    ((stationaryColumns rf sf codes scales).getD j ([], [])).1.length = passK rf sf := by
  simp [stationaryColumns, hj]

/-- The factors that column j multiplies in row r of an integer pass, in ascending order of the reduction elements (R129). -/
def passFactors (c : Core) (mem : Mem) (p : PassOp) (r j : Nat) : List (Int × Int) :=
  let k := passK p.rowFormat p.statFormat
  ((codesAt mem p.rowFormat p.rowAddr (r * k) k).zip ((passColumns c p).getD j ([], [])).1).map
    (fun q => (elemInt p.rowFormat q.1, elemInt p.statFormat q.2))

/-- Column j of row r of an integer pass after the first i reduction elements: its accumulator and flags, from the seed on (R116, R132). -/
def laneAfter (c : Core) (mem : Mem) (p : PassOp) (r j i : Nat) : Int × Nat :=
  accAfter (passSeed c p r j) (laneSeed c p r j) (passFactors c mem p r j) i

@[simp] theorem laneAfter_zero (c : Core) (mem : Mem) (p : PassOp) (r j : Nat) :
    laneAfter c mem p r j 0 = (passSeed c p r j, laneSeed c p r j) := accAfter_zero _ _ _

section

variable (c : Core) (mem : Mem) (p : PassOp) (r : Nat) {j : Nat} (hj : j < 64)

include hj

theorem length_passFactors : (passFactors c mem p r j).length = passK p.rowFormat p.statFormat := by
  simp only [passFactors, List.length_map, List.length_zip, length_codesAt, passColumns]
  rw [stationaryColumns_codes _ _ _ _ hj, Nat.min_self]

theorem getElem?_passFactors {i : Nat} (hi : i < passK p.rowFormat p.statFormat) :
    (passFactors c mem p r j)[i]? = some
      (elemInt p.rowFormat ((codesAt mem p.rowFormat p.rowAddr (r * passK p.rowFormat p.statFormat) (passK p.rowFormat p.statFormat)).getD i 0),
       elemInt p.statFormat (((passColumns c p).getD j ([], [])).1.getD i 0)) := by
  have hrow := length_codesAt mem p.rowFormat p.rowAddr (r * passK p.rowFormat p.statFormat) (passK p.rowFormat p.statFormat)
  have hcol : ((passColumns c p).getD j ([], [])).1.length = passK p.rowFormat p.statFormat := stationaryColumns_codes _ _ _ _ hj
  have hpair := (List.getElem?_zip_eq_some (z := (_, _))).2
    ⟨getElem?_eq_some_getD (hrow.symm ▸ hi) 0, getElem?_eq_some_getD (hcol.symm ▸ hi) 0⟩
  rw [passFactors, List.getElem?_map, hpair]
  rfl

/-- A column's accumulator and GOF after one more reduction element (R132). -/
theorem laneAfter_succ {i : Nat} (hi : i < passK p.rowFormat p.statFormat) :
    let k := passK p.rowFormat p.statFormat
    let x := (laneAfter c mem p r j i).1 + elemInt p.rowFormat ((codesAt mem p.rowFormat p.rowAddr (r * k) k).getD i 0)
      * elemInt p.statFormat (((passColumns c p).getD j ([], [])).1.getD i 0)
    (laneAfter c mem p r j (i + 1)).1 = (if 2 ^ 39 - 1 < x then 2 ^ 39 - 1 else if x < -(2 ^ 39) then -(2 ^ 39) else x)
      ∧ hasBit (laneAfter c mem p r j (i + 1)).2 2 = (hasBit (laneAfter c mem p r j i).2 2 || decide (2 ^ 39 - 1 < x ∨ x < -(2 ^ 39))) := by
  intro k x
  obtain ⟨hacc, hgof⟩ := satInt_40 x
  have hsum := accAfter_succ (passSeed c p r j) (laneSeed c p r j) _ (getElem?_passFactors c mem p r hj hi)
  rw [laneAfter, hsum, hasBit_flagOr]
  exact ⟨hacc, congrArg (_ || ·) hgof⟩

/-- The lane of column j is its accumulator after every reduction element. -/
theorem accumulate_eq_laneAfter (hint : pairIsInt p.rowFormat = true) (xas xws : List Nat) :
    let k := passK p.rowFormat p.statFormat
    accumulate p.rowFormat p.statFormat (passSeed c p r j) (laneSeed c p r j) (codesAt mem p.rowFormat p.rowAddr (r * k) k)
      ((passColumns c p).getD j ([], [])).1 xas xws = laneAfter c mem p r j k := by
  intro k
  have hall := accAfter_length (passSeed c p r j) (laneSeed c p r j) (passFactors c mem p r j)
  rw [length_passFactors c mem p r hj] at hall
  rw [accumulate, if_pos hint]
  exact hall.symm

end

/-- GOF of a lane before the first element: a pass seeded by accumulators goes on with the chain's (R130, R132). -/
theorem hasBit_laneSeed (c : Core) (p : PassOp) (r j n : Nat) :
    hasBit (laneSeed c p r j) n = (p.accIn.isSome && hasBit ((c.chain.getD r []).getD j 0) n) := by
  unfold laneSeed
  cases p.accIn <;> simp [hasBit]

theorem passLanes_integer (c : Core) (mem : Mem) (p : PassOp) (r : Nat) (hint : pairIsInt p.rowFormat = true) :
    passLanes c mem p (passColumns c p) r = (List.range 64).map (fun j => laneAfter c mem p r j (passK p.rowFormat p.statFormat)) := by
  have hlen : (passColumns c p).length = 64 := length_stationaryColumns _ _ _ _
  refine List.ext_getElem (by simp [passLanes, hlen]) fun j hj _ => ?_
  have hj : j < 64 := by simpa [passLanes, hlen] using hj
  have hlane := accumulate_eq_laneAfter c mem p r hj hint
  rw [List.getD_eq_getElem _ _ (hlen ▸ hj)] at hlane
  simpa only [passLanes, List.getElem_map, List.getElem_zipIdx, Nat.zero_add, List.getElem_range] using hlane _ _

/-- A row's accumulators, and its status: GOF where a column's chain has set it (R134). -/
theorem passRow_integer (c : Core) (mem : Mem) (p : PassOp) (r : Nat) (hint : pairIsInt p.rowFormat = true) :
    let k := passK p.rowFormat p.statFormat
    (passRow c mem p (passColumns c p) r).1 = (List.range 64).map (fun j => (laneAfter c mem p r j k).1)
      ∧ (hasBit (passRow c mem p (passColumns c p) r).2 2 = true ↔ ∃ j, j < 64 ∧ hasBit (laneAfter c mem p r j k).2 2 = true) := by
  intro k
  rw [passRow, passLanes_integer c mem p r hint, hasBit_flagsOf]
  simp [k]

end Sys2Proof.Machine

namespace Sys2Proof.Proofs

open Sys2Proof Sys2Proof.Machine

/-- Settles O18: the accumulators and the GOF of a column are those of laneAfter, step by step. -/
theorem integerAccumulation : Obligations.IntegerAccumulation := by
  intro s n p hn hlo hhi hpair hint hruns c k mem cols
  obtain ⟨t, hexec, done⟩ := exec_pass_done hn hlo hhi hpair hruns
  refine ⟨t, passOutput c mem p, hexec, ?_, fun r hr => ?_⟩
  · rw [done.core]
    exact (passEffect_tiles c mem p).1
  · obtain ⟨hacc, hgof⟩ := passRow_integer c mem p r hint
    obtain ⟨-, hrow, hflags, -⟩ := passOutput_row c mem p ⟨false, [], 0, [], [], none⟩ hr
    refine ⟨fun j i => (laneAfter c mem p r j i).1, fun j i => hasBit (laneAfter c mem p r j i).2 2, _, fun j hj => ⟨?_, ?_, fun i hi => ?_⟩,
      ⟨hacc ▸ hrow, hflags⟩, hgof⟩
    · exact congrArg Prod.fst (laneAfter_zero c mem p r j)
    · exact (congrArg (fun lane => hasBit lane.2 2) (laneAfter_zero c mem p r j)).trans (hasBit_laneSeed c p r j 2)
    · exact laneAfter_succ c mem p r hj hi

end Sys2Proof.Proofs
end

section
/-!
PROOFS. What an operation record does to the package (R184 to R189, R285, R370). Every record ends alike: the tiles that it used come up, its run goes
back to its slot with the record done, and a trace record is left. A record's own part before that ends in a state with the same slots, and says on which
core, in which crew's SRAM and in which near copies it works.
-/

namespace Sys2Proof.Machine

open Sys2Proof

/-! ### What a record may change -/

/-- t is s but for what record r of operation op, in a list of model m, may change. -/
structure RecordFrame (r : RecRef) (op : Nat) (m : Model) (s t : State) : Prop where
  rest : t = { s with srv := t.srv, trace := t.trace, cores := t.cores, crews := t.crews, mem := t.mem }
  srv : { t.srv with slots := s.srv.slots } = s.srv
  slots : ∀ k, k ≠ r.slot → slotOf t k = slotOf s k
  cores : ∀ k, k ≠ r.core ∨ op ∉ [0x10, 0x11, 0x12] → coreOf t k = coreOf s k
  crews : ∀ k, { crewOf t k with syncs := (crewOf s k).syncs, sram := (crewOf s k).sram } = crewOf s k
  sram : ∀ k, k ≠ r.core / 9 ∨ op ≠ 0x50 → (crewOf t k).sram = (crewOf s k).sram
  mem : (∀ d ∈ m.descs, d.isFar = false) → op ≠ 0x30 → t.mem = s.mem

namespace RecordFrame

variable {r : RecRef} {op : Nat} {m : Model} {s t u : State}

theorem refl (s : State) : RecordFrame r op m s s :=
  ⟨rfl, rfl, fun _ _ => rfl, fun _ _ => rfl, fun _ => rfl, fun _ _ => rfl, fun _ _ => rfl⟩

theorem trans (a : RecordFrame r op m s t) (b : RecordFrame r op m t u) : RecordFrame r op m s u where
  rest := by rw [b.rest, a.rest]
  srv := by rw [← a.srv, ← b.srv]
  slots k hk := (b.slots k hk).trans (a.slots k hk)
  cores k hk := (b.cores k hk).trans (a.cores k hk)
  crews k := by rw [← a.crews k, ← b.crews k]
  sram k hk := (b.sram k hk).trans (a.sram k hk)
  mem hfar hop := (b.mem hfar hop).trans (a.mem hfar hop)

/-- A state in which the memories alone are other, and they only as the record allows. -/
theorem ofMemOnly (h : MemOnly s t) (hmem : (∀ d ∈ m.descs, d.isFar = false) → op ≠ 0x30 → t.mem = s.mem) : RecordFrame r op m s t := by
  obtain ⟨mem, rfl⟩ : ∃ mem, t = { s with mem := mem } := ⟨_, h.rest⟩
  exact ⟨rfl, rfl, fun _ _ => rfl, fun _ _ => rfl, fun _ => rfl, fun _ _ => rfl, hmem⟩

/-- The queue, the part number and the backup domain are none of what a record may change. -/
theorem finish_eq (h : RecordFrame r op m s t) : finish s t = .next t := by
  rw [h.rest]
  rfl

end RecordFrame

/-! ### The near copies -/

/-- t is s with other memories, and s itself where model m has no FAR tensor. -/
structure FarTilesOnly (m : Model) (s t : State) : Prop where
  memOnly : MemOnly s t
  noFar : (∀ d ∈ m.descs, d.isFar = false) → t = s

theorem FarTilesOnly.refl (m : Model) (s : State) : FarTilesOnly m s s := ⟨.refl s, fun _ => rfl⟩

theorem FarTilesOnly.trans {m : Model} {s t u : State} (a : FarTilesOnly m s t) (b : FarTilesOnly m t u) : FarTilesOnly m s u :=
  ⟨a.memOnly.trans b.memOnly, fun h => (b.noFar h).trans (a.noFar h)⟩

theorem FarTilesOnly.foldl {α : Type} {m : Model} {f : State → α → State} (h : ∀ t x, FarTilesOnly m t (f t x)) (l : List α) (s : State) :
    FarTilesOnly m s (l.foldl f s) :=
  List.foldlRecOn (motive := FarTilesOnly m s) l f (.refl m s) fun t ht x _ => ht.trans (h t x)

theorem touchDesc_farTilesOnly (m : Model) (s : State) (n : Nat) : FarTilesOnly m s (touchDesc m s n) := by
  unfold touchDesc
  split
  next x d _ hd =>
    split
    · next hfar => exact ⟨regionRead_memOnly s _ _ _, fun h => absurd hfar (by simp [h d (List.mem_of_getElem? hd)])⟩
    · exact .refl m s
  next => exact .refl m s

theorem prefetchDesc_farTilesOnly (m : Model) (s : State) (n : Nat) : FarTilesOnly m s (prefetchDesc m s n) := by
  unfold prefetchDesc
  split
  next x d _ hd =>
    split
    · next hfar =>
      exact ⟨MemOnly.foldl _ _ s fun t k => prefetchTile_memOnly x.1 k t, fun h => absurd hfar (by simp [h d (List.mem_of_getElem? hd)])⟩
    · exact .refl m s
  next => exact .refl m s

theorem touchRow_memOnly (t : Table) (row : Nat) (s : State) : MemOnly s (touchRow t row s) := by
  unfold touchRow
  split
  · exact regionRead_memOnly s _ _ _
  · exact .refl s

theorem FarTilesOnly.recordFrame {m : Model} {s t : State} (h : FarTilesOnly m s t) (r : RecRef) (op : Nat) : RecordFrame r op m s t :=
  .ofMemOnly h.memOnly fun hfar _ => congrArg State.mem (h.noFar hfar)

theorem slotOf_of_memOnly {s t : State} (h : MemOnly s t) (k : Nat) : slotOf t k = slotOf s k := by
  rw [h.rest]
  rfl

/-! ### The trace, and the run put back -/

theorem traceWrite_rest (x : TraceRec) (s : State) : traceWrite x s = { s with trace := (traceWrite x s).trace } := by
  unfold traceWrite
  dsimp only
  split
  · split <;> rfl
  · rfl

@[simp] theorem slotOf_traceWrite (x : TraceRec) (s : State) (k : Nat) : slotOf (traceWrite x s) k = slotOf s k := by
  rw [traceWrite_rest]
  rfl

theorem traceWrite_recordFrame (x : TraceRec) (r : RecRef) (op : Nat) (m : Model) (s : State) : RecordFrame r op m s (traceWrite x s) := by
  rw [traceWrite_rest]
  exact ⟨rfl, rfl, fun _ _ => rfl, fun _ _ => rfl, fun _ => rfl, fun _ _ => rfl, fun _ _ => rfl⟩

theorem slookup_mapValues {α β : Type} (f : α → β) (m : Sparse α) (a : Nat) :
    slookup (m.map fun x => (x.1, f x.2)) a = (slookup m a).map f := by
  induction m with
  | nil => rfl
  | cons x m ih =>
    simp only [List.map_cons, slookup, ih]
    split
    · rfl
    · split <;> rfl

/-- A crew once its sync objects that stand for a run's numbers hold their counts (R171, R189). -/
def mirrorCrew (slot run : Nat) (sync : Sparse Nat) (c : Crew) : Crew :=
  { c with syncs := c.syncMap.foldl (fun m y => if y.2.1 = slot ∧ y.2.2.1 = run then sset m y.1 (sgetD sync y.2.2.2 0) else m) c.syncs }

theorem slookup_crews_mirrorSyncs (slot run : Nat) (sync : Sparse Nat) (s : State) (k : Nat) :
    slookup (mirrorSyncs slot run sync s).crews k = (slookup s.crews k).map (mirrorCrew slot run sync) :=
  slookup_mapValues (mirrorCrew slot run sync) s.crews k

theorem crewOf_mirrorSyncs (slot run : Nat) (sync : Sparse Nat) (s : State) (k : Nat) :
    ∃ syncs, crewOf (mirrorSyncs slot run sync s) k = { crewOf s k with syncs := syncs } := by
  unfold crewOf sgetD
  rw [slookup_crews_mirrorSyncs]
  cases slookup s.crews k with
  | none => exact ⟨[], rfl⟩
  | some c => exact ⟨_, rfl⟩

theorem mirrorSyncs_recordFrame (slot run : Nat) (sync : Sparse Nat) (r : RecRef) (op : Nat) (m : Model) (s : State) :
    RecordFrame r op m s (mirrorSyncs slot run sync s) where
  rest := rfl
  srv := rfl
  slots _ _ := rfl
  cores _ _ := rfl
  crews k := by
    obtain ⟨syncs, hcrew⟩ := crewOf_mirrorSyncs slot run sync s k
    rw [hcrew]
  sram k _ := by
    obtain ⟨syncs, hcrew⟩ := crewOf_mirrorSyncs slot run sync s k
    rw [hcrew]
  mem _ _ := rfl

theorem setSlot_recordFrame (r : RecRef) (op : Nat) (m : Model) (s : State) (q : Request) : RecordFrame r op m s (setSlot s r.slot q) :=
  ⟨rfl, rfl, fun k hk => slotOf_setSlot_other s r.slot k q hk, fun _ _ => rfl, fun _ => rfl, fun _ _ => rfl, fun _ _ => rfl⟩

theorem putRun_recordFrame (r : RecRef) (run : RunCtx) (op : Nat) (m : Model) (s : State) : RecordFrame r op m s (putRun r run s) := by
  unfold putRun
  split
  · exact (setSlot_recordFrame r op m s _).trans (mirrorSyncs_recordFrame _ _ _ r op m _)
  · exact .refl s

theorem slotOf_putRun {s : State} {r : RecRef} {q : Request} (hslot : slotOf s r.slot = some q) (run : RunCtx) :
    slotOf (putRun r run s) r.slot = some (setUnitRun q r.run run) := by
  simp [putRun, hslot]

/-- The run put into a unit is the one found there. -/
theorem unitRun_setUnitRun {q : Request} {n : Nat} {x : UnitCtx × RunCtx} (h : unitRun q n = some x) (run : RunCtx) :
    unitRun (setUnitRun q n run) n = some ({ x.1 with runs := x.1.runs.set n run }, run) := by
  unfold unitRun at h
  split at h
  next p hwork =>
    split at h
    next u hunit =>
      obtain ⟨old, hold, rfl⟩ := Option.map_eq_some_iff.1 h
      obtain ⟨hlt, -⟩ := List.getElem?_eq_some_iff.1 hold
      simp [unitRun, setUnitRun, hwork, hunit, hlt]
    next => cases h
  next => cases h

/-! ### How a record completes -/

/-- A SIGNAL changes the counts of a run alone (R189). -/
theorem signalRun_rest (w : BitVec 256) (run : RunCtx) : signalRun w run = { run with sync := (signalRun w run).sync } := by
  unfold signalRun
  split <;> rfl

theorem sgetD_signalRun (w : BitVec 256) (run : RunCtx) (k : Nat) :
    sgetD (signalRun w run).sync k 0
      = if recSignalEn w = true ∧ k = recSignalSync w then (sgetD run.sync k 0 + 1) % 2 ^ 32 else sgetD run.sync k 0 := by
  unfold signalRun
  by_cases hen : recSignalEn w = true
  · by_cases hk : k = recSignalSync w
    · subst hk
      simp [hen]
    · simp [hen, hk, sgetD_sset_other]
  · simp [hen]

/-- The tensors that a completed record has used are in near memory. -/
theorem touchReads_farTilesOnly (c : RecCtx) (s : State) :
    FarTilesOnly c.model s ((weightReads c).foldl (fun t x => touchDesc c.model t x.2) s) :=
  .foldl (fun t (x : Nat × Nat) => touchDesc_farTilesOnly c.model t x.2) _ s

theorem completeRecord_recordFrame (r : RecRef) (c : RecCtx) (run : RunCtx) (op : Nat) (s : State) :
    RecordFrame r op c.model s (completeRecord r c run s) :=
  ((touchReads_farTilesOnly c s).recordFrame r op).trans ((putRun_recordFrame r _ op c.model _).trans (traceWrite_recordFrame _ r op c.model _))

/-- A record completed on run, with the poison that its own part has added to it. -/
theorem completeRecord_recordDone {s : State} {r : RecRef} {c : RecCtx} (hslot : slotOf s r.slot = some c.req)
    (hrun : unitRun c.req r.run = some (c.unit, c.run)) (run : RunCtx) {bad : List (Nat × Nat × Nat)} (hbad : run.poisoned <+: bad) :
    Claims.recordDone (completeRecord r c { run with poisoned := bad } s) r c.word run := by
  have hslot := (slotOf_of_memOnly (touchReads_farTilesOnly c s).memOnly r.slot).trans hslot
  refine ⟨_, _, _, (slotOf_traceWrite _ _ _).trans (slotOf_putRun hslot _), unitRun_setUnitRun hrun _, ?_, ?_, fun k => sgetD_signalRun _ _ k⟩
  · rw [signalRun_rest]
  · rw [signalRun_rest]
    exact hbad.trans ⟨_, rfl⟩

/-! ### What a record does before it completes -/

/-- s has become t by a record's own part, with its request as it was. -/
structure RecordPrepared (r : RecRef) (op : Nat) (m : Model) (s t : State) : Prop where
  frame : RecordFrame r op m s t
  slot : slotOf t r.slot = slotOf s r.slot

namespace RecordPrepared

variable {r : RecRef} {op : Nat} {m : Model} {s : State}

theorem refl (s : State) : RecordPrepared r op m s s := ⟨.refl s, rfl⟩

/-- MATMUL, EXPERT_MATMUL and ELEMWISE work on their core. -/
theorem ofCore (hop : op ∈ [0x10, 0x11, 0x12]) (c : Core) : RecordPrepared r op m s (setCore s r.core c) where
  slot := rfl
  frame :=
    { rest := rfl, srv := rfl, slots := fun _ _ => rfl, crews := fun _ => rfl, sram := fun _ _ => rfl, mem := fun _ _ => rfl
      cores := fun k hk => coreOf_setCore_other s r.core k c (hk.resolve_right fun hno => hno hop) }

/-- GATHER brings up the rows that it reads. -/
theorem ofTouchedRows {α : Type} (reads : List (α × Table × Nat)) :
    RecordPrepared r 0x30 m s (reads.foldl (fun t x => touchRow x.2.1 x.2.2 t) s) :=
  have tiles := MemOnly.foldl reads _ s fun t x => touchRow_memOnly x.2.1 x.2.2 t
  ⟨.ofMemOnly tiles fun _ hno => absurd rfl hno, slotOf_of_memOnly tiles _⟩

/-- PREFETCH brings up the tiles of the tensors it names. -/
theorem ofFarTilesOnly {t : State} (h : FarTilesOnly m s t) : RecordPrepared r op m s t :=
  ⟨h.recordFrame r op, slotOf_of_memOnly h.memOnly _⟩

/-- VERIFY's masks go to the SRAM of its crew. -/
theorem ofSram (s : State) (sram : Mem) :
    RecordPrepared r 0x50 m s (setCrew s (r.core / 9) { crewOf s (r.core / 9) with sram := sram }) where
  slot := rfl
  frame :=
    { rest := rfl, srv := rfl, slots := fun _ _ => rfl, cores := fun _ _ => rfl, mem := fun _ _ => rfl
      crews := fun k => by
        by_cases hk : k = r.core / 9
        · rw [hk, crewOf_setCrew_self]
        · rw [crewOf_setCrew_other s _ k _ hk]
      sram := fun k hk => by rw [crewOf_setCrew_other s _ k _ (hk.resolve_right fun hno => hno rfl)] }

theorem trans {t u : State} (a : RecordPrepared r op m s t) (b : RecordPrepared r op m t u) : RecordPrepared r op m s u :=
  ⟨a.frame.trans b.frame, b.slot.trans a.slot⟩

theorem ofMasks (c : RecCtx) : RecordPrepared r 0x50 m s (writeMasks r c s) := by
  unfold writeMasks
  dsimp only
  split
  · exact List.foldlRecOn (motive := RecordPrepared r 0x50 m s) _ _ (.refl s) fun t ht i _ => ht.trans (ofSram t _)
  · exact .refl s

end RecordPrepared

theorem prefetch_farTilesOnly (c : RecCtx) (s : State) :
    FarTilesOnly c.model s ((prefetchDescs c).foldl (fun t x =>
      [x.2, (descOf c.model x.2).scale].foldl (if x.1 || c.unit.spec then prefetchDesc c.model else touchDesc c.model) t) s) := by
  refine .foldl (fun t x => .foldl (fun t n => ?_) _ t) _ s
  split
  · exact prefetchDesc_farTilesOnly c.model t n
  · exact touchDesc_farTilesOnly c.model t n

/-! ### The meaning of a record's row -/

/-- A record that may start is one of a run in its slot. -/
theorem recCtx_slot {s : State} {r : RecRef} {op : Nat} {c : RecCtx} (h : recCtx s r op = some c) :
    slotOf s r.slot = some c.req ∧ unitRun c.req r.run = some (c.unit, c.run) := by
  unfold recCtx at h
  split at h
  next => cases h
  next q hslot =>
    split at h
    next => cases h
    next u hunit =>
      dsimp only at h
      split at h
      · cases h
        exact ⟨hslot, hunit⟩
      · cases h

theorem recordRun_waits {s : State} {r : RecRef} {op : Nat} (hcore : isCore s r.core = true) (hnone : recCtx s r op = none)
    (body : RecRef → RecCtx → State → State) : recordRun op body r s = .next s := by
  rw [recordRun, if_pos hcore, hnone]
  exact finish_self s

/-- A record that may start, and whose body completes it on run from a state that its own part has led to. -/
theorem recordRun_completes {s s0 : State} {r : RecRef} {c : RecCtx} {op : Nat} {body : RecRef → RecCtx → State → State}
    (hcore : isCore s r.core = true) (hctx : recCtx s r op = some c) (run : RunCtx) {bad : List (Nat × Nat × Nat)}
    (hbody : body r c s = completeRecord r c { run with poisoned := bad } s0) (hbad : run.poisoned <+: bad)
    (prepared : RecordPrepared r op c.model s s0) :
    ∃ t, recordRun op body r s = .next t ∧ Claims.recordDone t r c.word run ∧ RecordFrame r op c.model s t := by
  obtain ⟨hslot, hrun⟩ := recCtx_slot hctx
  have frame : RecordFrame r op c.model s (body r c s) := hbody ▸ prepared.frame.trans (completeRecord_recordFrame r c _ op s0)
  refine ⟨body r c s, ?_, hbody ▸ completeRecord_recordDone (prepared.slot.trans hslot) hrun run hbad, frame⟩
  rw [recordRun, if_pos hcore, hctx]
  exact frame.finish_eq

end Sys2Proof.Machine

namespace Sys2Proof.Proofs

open Sys2Proof Sys2Proof.Machine

/-- Each of the eight operations reaches the end that every record has, from its own part. -/
theorem runRows_complete (s : State) (r : RecRef) (c : RecCtx) (hcore : isCore s r.core = true) :
    ∀ row ∈ Claims.runRows, recCtx s r row.2.1 = some c →
      ∃ t, exec (row.1 r) s = .next t ∧ Claims.recordDone t r c.word (row.2.2 r s c) ∧ RecordFrame r row.2.1 c.model s t := by
  have samePoison (run : RunCtx) : run.poisoned <+: run.poisoned := ⟨[], List.append_nil _⟩
  simp only [Claims.runRows, List.forall_mem_cons]
  refine ⟨fun hc => ?matmul, fun hc => ?expertMatmul, fun hc => ?elemwise, fun hc => ?gather, fun hc => ?kvWrite, fun hc => ?prefetch,
    fun hc => ?verify, fun hc => ?emit, by simp⟩
  case matmul => exact recordRun_completes hcore hc (matmulRun c) rfl (samePoison _) (.ofCore (by decide) _)
  case expertMatmul => exact recordRun_completes hcore hc (matmulRun c) rfl (samePoison _) (.ofCore (by decide) _)
  case elemwise => exact recordRun_completes hcore hc (elemwiseRun c) rfl (samePoison _) (.ofCore (by decide) _)
  case gather => exact recordRun_completes hcore hc (gatherRun s c) rfl ⟨_, rfl⟩ (.ofTouchedRows (gatherReads s c))
  case kvWrite => exact recordRun_completes hcore hc (kvWriteRun c) rfl (samePoison _) (.refl s)
  case prefetch => exact recordRun_completes hcore hc c.run rfl (samePoison _) (.ofFarTilesOnly (prefetch_farTilesOnly c s))
  case verify => exact recordRun_completes hcore hc (verifyRun s c) rfl (samePoison _) (.ofMasks c)
  case emit => exact recordRun_completes hcore hc (emitRun r.index c) rfl (samePoison _) (.refl s)

theorem recordsComplete : Claims.RecordsComplete := by
  intro s r c row hrow hcore hctx
  obtain ⟨t, hexec, hdone, frame⟩ := runRows_complete s r c hcore row hrow hctx
  exact ⟨t, hexec, hdone, frame.rest, frame.srv, frame.slots, frame.cores, frame.crews, frame.sram, frame.mem⟩

theorem recordsWait : Claims.RecordsWait := by
  intro s r hcore
  simp only [List.forall_mem_cons]
  refine ⟨?_, ?_, ?_, ?_, ?_, ?_, ?_, ?_, ?_, ?_, ?_, ?_, by simp⟩ <;> exact fun hnone => recordRun_waits hcore hnone _

/-- Settles O20: a record that may start does its own part and completes; one that may not leaves the package as it is. -/
theorem recordsRun : Obligations.RecordsRun := ⟨recordsComplete, recordsWait⟩

end Sys2Proof.Proofs
end

section
/-!
PROOFS. What a posted completion leaves (R390): its entry stands at the tail of the completion ring, which moves on, and but for the trace nothing else
changes where the ring raises no interrupt.
-/

namespace Sys2Proof.Machine

open Sys2Proof

/-! ### Little-endian fields (R13) -/

theorem leNat_leBytes (n v : Nat) : leNat (leBytes n v) = v % 256 ^ n := by
  induction n generalizing v with
  | zero => simp [leBytes, leNat, Nat.mod_one]
  | succ n ih => simp [leBytes, leNat, ih, Nat.pow_succ', Nat.mod_mul]

/-- The field of a block that starts where a part of it ends. -/
theorem leAt_append_leBytes (before after : List Byte) (n v : Nat) : leAt (before ++ (leBytes n v ++ after)) before.length n = v % 256 ^ n := by
  rw [leAt, slice, List.drop_left, List.take_left' (leBytes_length n v), leBytes_length, Nat.sub_self, List.replicate_zero, List.append_nil,
    leNat_leBytes]

/-! ### The entry -/

theorem length_cplBytes (c : Cpl) (sqHead sqId : Nat) (phase : Bool) : (cplBytes c sqHead sqId phase).length = 32 := by
  simp [cplBytes, leBytes_length, slice_length]

/-- The fields of a completion entry that say whose it is and how the command ended. -/
theorem leAt_cplBytes (c : Cpl) (sqHead sqId : Nat) (phase : Bool) :
    let out := cplBytes c sqHead sqId phase
    leAt out 0 4 = c.tag % 2 ^ 32 ∧ leAt out 6 2 = sqId % 2 ^ 16 ∧ leAt out 8 1 = c.status % 256 ∧ leAt out 10 1 = c.opcode % 256 := by
  have field (before after : List Byte) (o n v : Nat) (ho : before.length = o) (h : cplBytes c sqHead sqId phase = before ++ (leBytes n v ++ after)) :
      leAt (cplBytes c sqHead sqId phase) o n = v % 256 ^ n := by
    rw [h, ← ho, leAt_append_leBytes]
  let flags := leBytes 1 (bit phase + 2 * bit c.aged + 4 * bit c.arith + 8 * bit c.froze)
  let last := leBytes 1 0 ++ slice c.result 0 20
  refine ⟨field [] (leBytes 2 sqHead ++ leBytes 2 sqId ++ leBytes 1 c.status ++ flags ++ leBytes 1 c.opcode ++ last) 0 4 _ rfl ?_,
    field (leBytes 4 c.tag ++ leBytes 2 sqHead) (leBytes 1 c.status ++ flags ++ leBytes 1 c.opcode ++ last) 6 2 _ rfl ?_,
    field (leBytes 4 c.tag ++ leBytes 2 sqHead ++ leBytes 2 sqId) (flags ++ leBytes 1 c.opcode ++ last) 8 1 _ rfl ?_,
    field (leBytes 4 c.tag ++ leBytes 2 sqHead ++ leBytes 2 sqId ++ leBytes 1 c.status ++ flags) last 10 1 _ rfl ?_⟩ <;>
  simp only [cplBytes, flags, last, List.append_assoc, List.nil_append]

/-! ### Posting -/

/-- A completion ring after an entry, which reserved slots it had been kept. -/
def RingPair.afterEntry (p : RingPair) (reserved : Nat) : RingPair :=
  { p with
    cqTail := (p.cqTail + 1) % p.cqSize, phase := if (p.cqTail + 1) % p.cqSize = 0 then !p.phase else p.phase, reserved := p.reserved - reserved }

/-- What posting completion c of ring q does to a package whose completion ring raises no interrupt. -/
structure Posted (q : RingRef) (c : Cpl) (s t : State) : Prop where
  rest : t = { s with port := t.port, mem := { s.mem with host := t.mem.host, hostBad := t.mem.hostBad }, trace := t.trace }
  entry : Claims.posts s t q c.tag c.opcode c.status
  ringSt : ∀ q', (ringOf t q').st = (ringOf s q').st

theorem traceCommand_rest (tag opcode status : Nat) (s : State) :
    traceCommand tag opcode status s = { s with trace := (traceCommand tag opcode status s).trace } := traceWrite_rest _ _

@[simp] theorem ringOf_setRing_self (s : State) (q : RingRef) (p : RingPair) : ringOf (setRing s q p) q = p := by
  simp [ringOf]

/-- A ring pair put back with its state leaves every pair in its state. -/
theorem ringOf_setRing_st {s : State} {q : RingRef} {p : RingPair} (hp : p.st = (ringOf s q).st) (q' : RingRef) :
    (ringOf (setRing s q p) q').st = (ringOf s q').st := by
  by_cases h : ringKey q' = ringKey q
  · simpa [ringOf, h] using hp
  · simp [ringOf, sgetD_sset_other _ _ _ _ _ h]

theorem moderate_of_irqOff {cq : RingRef} {s : State} (h : (ringOf s cq).irqEn = false) (urgent : Bool) : moderate cq urgent s = s := by
  simp [moderate, h]

theorem postCompletion_of_irqOff {q : RingRef} {s : State} (h : bitOf (ringOf s (cqOf s q)).cfg 19 = false) (c : Cpl) (reserved : Nat) :
    postCompletion q c reserved s =
      traceCommand c.tag c.opcode c.status
        (setRing (hostWrite s ((ringOf s (cqOf s q)).cqBase.toNat + 32 * (ringOf s (cqOf s q)).cqTail)
            (cplBytes c (ringOf s q).sqHead q.ring (ringOf s (cqOf s q)).phase))
          (cqOf s q) ((ringOf s (cqOf s q)).afterEntry reserved)) := by
  refine congrArg (traceCommand _ _ _) (moderate_of_irqOff ?_ _)
  rw [ringOf_setRing_self]
  exact h

theorem postCompletion_posted {q : RingRef} {s : State} (h : Claims.canPost s q) (c : Cpl) (reserved : Nat) :
    Posted q c s (postCompletion q c reserved s) := by
  obtain ⟨hirq, hwf⟩ := h
  rw [postCompletion_of_irqOff hirq, traceCommand_rest]
  refine ⟨rfl, ?_, ringOf_setRing_st (s := s) (p := (ringOf s (cqOf s q)).afterEntry reserved) rfl⟩
  have hread := readBytes_writeBytes_self (cplBytes c (ringOf s q).sqHead q.ring (ringOf s (cqOf s q)).phase) s.mem.host
    ((ringOf s (cqOf s q)).cqBase.toNat + 32 * (ringOf s (cqOf s q)).cqTail) hwf
  rw [length_cplBytes] at hread
  obtain ⟨htag, hring, hstatus, hopcode⟩ := leAt_cplBytes c (ringOf s q).sqHead q.ring (ringOf s (cqOf s q)).phase
  rw [← hread] at htag hring hstatus hopcode
  exact ⟨htag, hring, hstatus, hopcode, congrArg RingPair.cqTail (ringOf_setRing_self _ _ _)⟩

end Sys2Proof.Machine
end

section
/-!
PROOFS. The commit point of a stroke with one request in it (R63, R301, R302), whose command is none of a pipeline and which has no launch on any core:
the stroke runs no record, the request commits its unit, and what follows leaves the objects, the rings and host memory as they are.
-/

namespace Sys2Proof.Machine

open Sys2Proof

/-- The request of slot n is alone in the stroke, its unit commits now, and its completion can be posted; no launch runs, and nothing waits for its
end. -/
structure LoneCommit (s : State) (n : Nat) (r : Request) : Prop where
  clocks : clocksRun s = true
  firmware : fwRunning s = true
  inStroke : s.srv.strokeSince ≠ none
  shell : s.net.shell ≠ .ending
  slots : s.srv.slots = [(n, r)]
  admitted : s.srv.admitted = [n]
  noLaunch : ∀ c ∈ s.cores, c.2.launch = none
  quiet : Claims.nothingWaits s
  canPost : Claims.canPost s ⟨r.fn, r.ring⟩
  notSilent : r.silent = false
  notAborted : r.aborted = false
  running : r.st = .running
  notPipe : ∀ p, r.work ≠ .pipe p

theorem slotOf_of_slots {s : State} {n : Nat} {r : Request} (h : s.srv.slots = [(n, r)]) : slotOf s n = some r := by
  simp [slotOf, h, slookup]

/-! ### The stroke runs no record -/

theorem dueCores_of_noLaunch {s : State} (h : ∀ c ∈ s.cores, c.2.launch = none) (slot : Nat) : dueCores s slot = [] := by
  rw [dueCores, List.map_eq_nil_iff, List.filter_eq_nil_iff]
  intro c hc
  simp [h c hc]

namespace LoneCommit

variable {s : State} {n : Nat} {r : Request} (lone : LoneCommit s n r)
include lone

theorem slotOf_eq : slotOf s n = some r := slotOf_of_slots lone.slots

theorem unitDone_eq : unitDone s n = true := by
  have hwork := lone.notPipe
  simp only [unitDone, lone.slotOf_eq, Option.bind_some]

theorem runRound_eq : runRound n s = s := by
  have hwork := lone.notPipe
  have hrecords : unitRecords s n = [] := by simp only [unitRecords, lone.slotOf_eq, Option.bind_some]
  simp only [runRound, hrecords, List.foldl_nil, dueCores_of_noLaunch lone.noLaunch]

theorem runUnit_eq : runUnit n s = s := by
  have hwork := lone.notPipe
  have hfuel : roundFuel s n = 1 := by simp only [roundFuel, lone.slotOf_eq, Option.bind_some]
  simp only [runUnit, hfuel, runRounds, lone.runRound_eq, ite_self]

theorem runStroke_eq : runStroke s = s := by
  simp only [runStroke, lone.admitted, List.foldl_cons, List.foldl_nil, lone.runUnit_eq, ite_self]

theorem strokeOpen_eq : strokeOpen s = false := by
  simp [strokeOpen, lone.slots, lone.unitDone_eq]

theorem strokeInstances_eq : strokeInstances s = [] := by
  have hwork := lone.notPipe
  simp only [strokeInstances, lone.slots, List.flatMap_cons, List.flatMap_nil, List.append_nil]

theorem slotsInOrder_eq : slotsInOrder s = [(n, r)] := by
  simp [slotsInOrder, lone.slots, sortBy, insertBy]

theorem rerankMeasured_eq (t : State) : rerankMeasured s t = t := by
  have hwork := lone.notPipe
  have hstated (m : Model) : rerankStated s m = [] := by
    simp [rerankStated, lone.slots]
  unfold rerankMeasured
  refine List.foldlRecOn (motive := (· = t)) _ _ rfl fun u hu m _ => ?_
  simp [hstated, hu]

theorem commitSlot_eq : commitSlot s n s = commitUnit s n r s := by
  simp [commitSlot, lone.slotOf_eq, lone.quiet.1, settleHolds, lone.notAborted, lone.notSilent, lone.running]

end LoneCommit

/-! ### What follows the commit of the units -/

/-- The stroke is over: the governor has its measurements, no core streams dummy rows, and the tiers of the cores and crews are empty. -/
def endStroke (measured : List Nat) (s : State) : State :=
  let t := updateCorr measured s
  endTiers { endDummy t with gov := { t.gov with estimateUj := [] }, srv := { t.srv with strokeSince := none, admitted := [] } }

theorem LoneCommit.commitStroke_eq {s : State} {n : Nat} {r : Request} (lone : LoneCommit s n r) (measured : List Nat) :
    commitStroke measured s = settle (moveVectors (endStroke measured (commitUnit s n r s))) := by
  simp only [commitStroke, endStroke, lone.shell, if_false, lone.runStroke_eq, lone.strokeOpen_eq, Bool.false_eq_true, lone.strokeInstances_eq,
    List.foldl_nil, lone.slotsInOrder_eq, List.foldl_cons, lone.commitSlot_eq, lone.rerankMeasured_eq]

/-- An index whose items all have their vectors in FULL has none to move. -/
theorem moveVectors_of_settled {s : State} (h : Claims.vectorsSettled s) : moveVectors s = s := by
  refine List.foldlRecOn (motive := (· = s)) _ _ rfl fun t ht ix hix => ?_
  subst ht
  split
  · refine List.foldlRecOn (motive := (· = _)) _ _ rfl fun u hu it hit => ?_
    obtain ⟨k, hloc⟩ := h ix hix it hit
    simp only [moveVector, hloc, hu]
  · rfl

theorem settle_of_nothingWaits {s : State} (h : Claims.nothingWaits s) : settle s = s := by
  obtain ⟨hholds, hdrain⟩ := h
  have hall : settleAll s = s := by simp [settleAll, hholds, settleHolds]
  simp [settle, hall, drainCheck, hdrain]

/-- Where no vector and no command waits, nothing follows the end of the stroke. -/
theorem settle_moveVectors_endStroke (measured : List Nat) {s : State} (hvec : Claims.vectorsSettled s) (hquiet : Claims.nothingWaits s) :
    settle (moveVectors (endStroke measured s)) = endStroke measured s := by
  have hvec' : Claims.vectorsSettled (endStroke measured s) := hvec
  have hquiet' : Claims.nothingWaits (endStroke measured s) := hquiet
  rw [moveVectors_of_settled hvec', settle_of_nothingWaits hquiet']

/-! ### The end of a request that leaves nothing behind -/

/-- The command writes no report, and no conversation, shell, activation or power state hangs on it. -/
def Work.leavesSlotAlone : Work → Bool
  | .install _ | .merge _ _ | .insert _ _ | .delete _ _ | .rowWrite _ _ | .rowRead _ _ _ => true
  | .pipe _ | .pause _ _ _ _ _ | .release _ | .resume _ | .power _ | .shellJoin | .shellEnd | .activate _ => false

theorem releaseRequest_eq {r : Request} (h : r.work.leavesSlotAlone = true) (n status : Nat) (s : State) :
    releaseRequest n status r s = collect (freeSlot s n) := by
  cases hw : r.work with
  | install | merge | insert | delete | rowWrite | rowRead => simp only [releaseRequest, hw, abandonWork, settleConv]
  | pipe | pause | release | resume | power | shellJoin | shellEnd | activate => simp [hw, Work.leavesSlotAlone] at h

/-- Its end gives up its slot and the objects that nothing names any more, and posts its completion. -/
theorem endRequest_eq {s : State} {n : Nat} {r : Request} (hslot : slotOf s n = some r) (hsilent : r.silent = false)
    (hleaves : r.work.leavesSlotAlone = true) (status : Nat) (result : List Byte) :
    endRequest n status result s = postCompletion ⟨r.fn, r.ring⟩
      { tag := r.tag, opcode := r.opcode, status := status, aged := r.aged, arith := arithOf r, result := resultOf r result } 1
      (collect (freeSlot s n)) := by
  simp only [endRequest, hslot, hsilent, releaseRequest_eq hleaves, Bool.false_eq_true, if_false]

/-- The package with other objects, and with other units in the write buffer: what a command that changes objects does before its request ends. -/
def State.withObjects (s : State) (obj : Objects) (wb : List WbUnit) : State := { s with obj := obj, mem := { s.mem with wb := wb } }

/-- STROKE_COMMIT where the commit of the lone request's unit changes objects and ends the request: the completion is posted, the slot is free, the ring
keeps its state, and the indexes that stay are the commit's. -/
theorem LoneCommit.exec_of_ends {s : State} {n : Nat} {r : Request} (lone : LoneCommit s n r) (hleaves : r.work.leavesSlotAlone = true) {status : Nat}
    {result : List Byte} {obj : Objects} {wb : List WbUnit} (hends : commitUnit s n r s = endRequest n status result (s.withObjects obj wb))
    (hvec : Claims.vectorsSettled (s.withObjects obj wb)) (measured : List Nat) :
    ∃ t, exec (.strokeCommit measured) s = .next t ∧ t.srv.slots = [] ∧ Claims.posts s t ⟨r.fn, r.ring⟩ r.tag r.opcode status
      ∧ (ringOf t ⟨r.fn, r.ring⟩).st = (ringOf s ⟨r.fn, r.ring⟩).st ∧ ∀ x ∈ t.obj.indexes, x ∈ obj.indexes := by
  have hslot : slotOf (s.withObjects obj wb) n = some r := lone.slotOf_eq
  have hpost : Claims.canPost (collect (freeSlot (s.withObjects obj wb) n)) ⟨r.fn, r.ring⟩ := lone.canPost
  rw [endRequest_eq hslot lone.notSilent hleaves] at hends
  have posted := hends ▸ postCompletion_posted hpost _ 1
  have hobj : (commitUnit s n r s).obj.indexes ⊆ obj.indexes := by
    rw [posted.rest]
    exact fun x hx => (List.mem_filter.1 hx).1
  have hslots : (commitUnit s n r s).srv.slots = [] := by
    rw [posted.rest]
    show serase s.srv.slots n = []
    simp [lone.slots, serase]
  have hquiet : Claims.nothingWaits (commitUnit s n r s) := by
    rw [posted.rest]
    exact lone.quiet
  have hcommit : commitStroke measured s = endStroke measured (commitUnit s n r s) := by
    rw [lone.commitStroke_eq, settle_moveVectors_endStroke measured (fun x hx => hvec x (hobj hx)) hquiet]
  have hready : (clocksRun s && fwRunning s && s.srv.strokeSince.isSome) = true := by
    simp [lone.clocks, lone.firmware, Option.isSome_iff_ne_none, lone.inStroke]
  have hexec : exec (.strokeCommit measured) s = finish s (endStroke measured (commitUnit s n r s)) := by
    rw [exec, execStrokeCommit, if_pos hready, hcommit]
  exact ⟨_, hexec, hslots, posted.entry, posted.ringSt _, hobj⟩

end Sys2Proof.Machine
end

section
/-!
PROOFS. What INDEX_INSERT and INDEX_DELETE do to the side list (R224 to R228): the lowest free slots hold the vectors of inserted items, one for each,
and one index takes the entries.
-/

namespace Sys2Proof.Machine

open Sys2Proof

/-! ### The lowest free slots (R224; log entry 134) -/

theorem le_of_mem_freeSlots {used : List Nat} {f n k x : Nat} (h : x ∈ freeSlots used f n k) : k ≤ x := by
  induction f generalizing n k with
  | zero => cases h
  | succ f ih =>
    rw [freeSlots] at h
    split at h
    · cases h
    · split at h
      · exact Nat.le_of_succ_le (ih h)
      · rcases List.mem_cons.1 h with rfl | h
        · exact Nat.le_refl x
        · exact Nat.le_of_succ_le (ih h)

theorem nodup_freeSlots (used : List Nat) (f n k : Nat) : (freeSlots used f n k).Nodup := by
  induction f generalizing n k with
  | zero => exact List.nodup_nil
  | succ f ih =>
    rw [freeSlots]
    split
    · exact List.nodup_nil
    · split
      · exact ih n (k + 1)
      · exact List.nodup_cons.2 ⟨fun h => Nat.not_succ_le_self k (le_of_mem_freeSlots h), ih _ (k + 1)⟩

/-- There are n of them where so many of the f numbers from k on are not used. -/
theorem length_freeSlots {used : List Nat} {f n k : Nat} (h : n + (List.range' k f).countP used.contains ≤ f) :
    (freeSlots used f n k).length = n := by
  induction f generalizing n k with
  | zero => simp only [freeSlots, List.length_nil]; omega
  | succ f ih =>
    rw [List.range'_succ, List.countP_cons] at h
    rw [freeSlots]
    split
    next h0 => exact h0.symm
    next h0 =>
      split
      next hused =>
        rw [if_pos hused] at h
        exact ih (by omega)
      next hfree =>
        rw [if_neg hfree] at h
        rw [List.length_cons, ih (by omega)]
        omega

/-- A list holds at most as many numbers of a range as it is long. -/
theorem countP_range'_contains_le (used : List Nat) (k f : Nat) : (List.range' k f).countP used.contains ≤ used.length := by
  rw [List.countP_eq_length_filter]
  refine (List.subperm_of_subset ((List.nodup_range').filter _) fun x hx => ?_).length_le
  simpa using (List.mem_filter.1 hx).2

theorem length_freeSlots_enough (used : List Nat) (n : Nat) : (freeSlots used (used.length + n) n 0).length = n :=
  length_freeSlots (by have := countP_range'_contains_le used 0 (used.length + n); omega)

/-! ### Publishing -/

/-- t is s with other units in the write buffer. -/
def PublishedOnly (s t : State) : Prop := ∃ wb, t = s.withObjects s.obj wb

theorem PublishedOnly.trans {s t u : State} (a : PublishedOnly s t) (b : PublishedOnly t u) : PublishedOnly s u := by
  obtain ⟨_, rfl⟩ := a
  obtain ⟨wb, rfl⟩ := b
  exact ⟨wb, rfl⟩

theorem PublishedOnly.foldl {α : Type} {f : State → α → State} (h : ∀ t x, PublishedOnly t (f t x)) (l : List α) (s : State) :
    PublishedOnly s (l.foldl f s) :=
  List.foldlRecOn (motive := PublishedOnly s) l f ⟨_, rfl⟩ fun t ht x _ => ht.trans (h t x)

theorem publishUnit_publishedOnly (u : WbUnit) (s : State) : PublishedOnly s (publishUnit u s) := ⟨_, rfl⟩

theorem publishBytes_publishedOnly (n o : Nat) (bs : List Byte) (s : State) : PublishedOnly s (publishBytes n o bs s) :=
  List.foldlRecOn (motive := fun acc : State × Nat => PublishedOnly s acc.1) _ _ ⟨_, rfl⟩ fun acc hacc _ _ =>
    hacc.trans (publishUnit_publishedOnly _ acc.1)

theorem publishItem_publishedOnly (ix : Index) (s : State) (x : IxItem × List Byte × Nat) : PublishedOnly s (publishItem ix s x) :=
  (publishBytes_publishedOnly _ _ _ s).trans (publishBytes_publishedOnly _ _ _ _)

/-! ### One index takes entries -/

/-- An index with entries at the end of its side list. -/
def Index.append (ix : Index) (new : List SideEntry) : Index := { ix with side := ix.side ++ new }

/-- The objects once an index has taken entries. -/
def appendedObjects (s : State) (o : Nat) (new : List SideEntry) : Objects := (setIndex ((indexOf s o).append new) s).obj

theorem indexOf_mem {s : State} {o : Nat} (held : ∃ x ∈ s.obj.indexes, x.oid = o) : indexOf s o ∈ s.obj.indexes ∧ (indexOf s o).oid = o := by
  have hsome : (s.obj.indexes.find? (fun x => x.oid == o)).isSome := by simpa using held
  obtain ⟨x, hx⟩ := Option.isSome_iff_exists.1 hsome
  have hindex : indexOf s o = x := by rw [indexOf, hx, Option.getD_some]
  exact hindex ▸ ⟨List.mem_of_find?_eq_some hx, by simpa using List.find?_some hx⟩

theorem mem_setIndex {s : State} {x y : Index} (h : y ∈ (setIndex x s).obj.indexes) : y = x ∨ y.oid ≠ x.oid ∧ y ∈ s.obj.indexes := by
  obtain ⟨z, hz, rfl⟩ := List.mem_map.1 h
  by_cases heq : z.oid = x.oid
  · simp [heq]
  · simp [heq, hz]

/-- Every index held is the one that took the entries, or is another and as it was. -/
theorem appendedObjects_indexes {s : State} {o : Nat} (held : ∃ x ∈ s.obj.indexes, x.oid = o) {new : List SideEntry} {x : Index}
    (hx : x ∈ (appendedObjects s o new).indexes) : if x.oid = o then x.side = (indexOf s o).side ++ new else x ∈ s.obj.indexes := by
  have hoid : ((indexOf s o).append new).oid = o := (indexOf_mem held).2
  obtain rfl | ⟨hother, hmem⟩ := mem_setIndex hx
  · rw [if_pos hoid]
    rfl
  · rw [if_neg (hoid ▸ hother)]
    exact hmem

/-- The entries bring no item of the epoch, so that no vector waits to move that did not before. -/
theorem vectorsSettled_appendedObjects {s : State} {o : Nat} (held : ∃ x ∈ s.obj.indexes, x.oid = o) (hvec : Claims.vectorsSettled s)
    (new : List SideEntry) (wb : List WbUnit) : Claims.vectorsSettled (s.withObjects (appendedObjects s o new) wb) := by
  intro x hx
  obtain rfl | ⟨_, hmem⟩ := mem_setIndex hx
  · exact hvec (indexOf s o) (indexOf_mem held).1
  · exact hvec x hmem

/-! ### The two commits -/

/-- The slots of the side list's vectors that an insert of some records into index o takes: the lowest that no index with those vectors uses. -/
def insertSlots (s : State) (o records : Nat) : List Nat :=
  let used := (s.obj.indexes.filter (fun x => x.sideRegion == (indexOf s o).sideRegion)).flatMap usedSlots
  freeSlots used (used.length + records) records 0

/-- Each record of an insert with its slot: the item, its vector and the slot. -/
def placedItems (items : List (IxItem × List Byte)) (places : List Nat) : List (IxItem × List Byte × Nat) :=
  (items.zip places).map (fun x => ({ x.1.1 with loc := .side x.2 }, x.1.2, x.2))

/-- The entries of an insert's records. -/
def insertEntries (items : List (IxItem × List Byte)) (places : List Nat) : List SideEntry :=
  (items.zip places).map (fun x => SideEntry.insert { x.1.1 with loc := .side x.2 })

/-- The entries that a delete of ids appends: one for each that is live in its turn. -/
def deleteEntries (ix : Index) (ids : List Nat) : List SideEntry := (applyDeletes (liveItems ix ix.side.length) ids).1

/-- The deletion state of an id goes to the write buffer, as it stands once the index has taken some entries. -/
def publishDeletion (ix : Index) (new : List SideEntry) (s : State) (id : Nat) : State :=
  publishBytes ix.nearRegion (deletionAt ix + id / 8) [deletionByte (ix.append new) id] s

section
variable {s : State} {o : Nat} (n : Nat)

theorem commitInsert_eq {items : List (IxItem × List Byte)} (h : (indexOf s o).side.length + items.length ≤ sideLimit) :
    let put := placedItems items (insertSlots s o items.length)
    ∃ result, commitInsert n o items s = endRequest n 0 result
      (setIndex ((indexOf s o).append (put.map (fun x => SideEntry.insert x.1))) (put.foldl (publishItem (indexOf s o)) s)) :=
  ⟨_, if_neg (Nat.not_lt.2 h)⟩

theorem commitDelete_eq {ids : List Nat} (h : (indexOf s o).side.length + (deleteEntries (indexOf s o) ids).length ≤ sideLimit) :
    let new := deleteEntries (indexOf s o) ids
    ∃ result, commitDelete n o ids s = endRequest n 0 result
      (setIndex ((indexOf s o).append new) (ids.foldl (publishDeletion (indexOf s o) new) s)) :=
  ⟨_, if_neg (Nat.not_lt.2 h)⟩

/-- Within the limit an insert appends one entry for each record, each with a slot of its own. -/
theorem commitInsert_within {items : List (IxItem × List Byte)} (h : (indexOf s o).side.length + items.length ≤ sideLimit) :
    ∃ places result wb, places.length = items.length ∧ places.Nodup
      ∧ commitInsert n o items s = endRequest n 0 result (s.withObjects (appendedObjects s o (insertEntries items places)) wb) := by
  obtain ⟨result, hcommit⟩ := commitInsert_eq n h
  obtain ⟨wb, hpublish⟩ := PublishedOnly.foldl (publishItem_publishedOnly (indexOf s o)) (placedItems items (insertSlots s o items.length)) s
  have hentries (places : List Nat) : (placedItems items places).map (fun x => SideEntry.insert x.1) = insertEntries items places := List.map_map
  rw [hpublish, hentries] at hcommit
  exact ⟨_, result, wb, length_freeSlots_enough _ _, nodup_freeSlots _ _ _ _, hcommit⟩

/-- Within the limit a delete appends its entries. -/
theorem commitDelete_within {ids : List Nat} (h : (indexOf s o).side.length + (deleteEntries (indexOf s o) ids).length ≤ sideLimit) :
    ∃ result wb, commitDelete n o ids s = endRequest n 0 result (s.withObjects (appendedObjects s o (deleteEntries (indexOf s o) ids)) wb) := by
  obtain ⟨result, hcommit⟩ := commitDelete_eq n h
  obtain ⟨wb, hpublish⟩ := PublishedOnly.foldl (f := publishDeletion (indexOf s o) (deleteEntries (indexOf s o) ids))
    (fun t id => publishBytes_publishedOnly _ _ _ t) ids s
  rw [hpublish] at hcommit
  exact ⟨result, wb, hcommit⟩

/-- Beyond the limit an insert changes no object (R228). -/
theorem commitInsert_beyond {items : List (IxItem × List Byte)} (h : sideLimit < (indexOf s o).side.length + items.length) :
    commitInsert n o items s = endRequest n 0x45 [] (s.withObjects s.obj s.mem.wb) := if_pos h

/-- Beyond the limit a delete changes no object (R228). -/
theorem commitDelete_beyond {ids : List Nat} (h : sideLimit < (indexOf s o).side.length + (deleteEntries (indexOf s o) ids).length) :
    commitDelete n o ids s = endRequest n 0x45 [] (s.withObjects s.obj s.mem.wb) := if_pos h

end

/-- STROKE_COMMIT where the lone request's commit appends entries to the side list of an index: that index has them at its end, and the others are as
they were. -/
theorem LoneCommit.exec_of_appends {s : State} {n : Nat} {r : Request} (lone : LoneCommit s n r) (hleaves : r.work.leavesSlotAlone = true) {o : Nat}
    (held : ∃ x ∈ s.obj.indexes, x.oid = o) (hvec : Claims.vectorsSettled s) {new : List SideEntry} {result : List Byte} {wb : List WbUnit}
    (happends : commitUnit s n r s = endRequest n 0 result (s.withObjects (appendedObjects s o new) wb)) (measured : List Nat) :
    ∃ t, exec (.strokeCommit measured) s = .next t ∧ t.srv.slots = [] ∧ Claims.posts s t ⟨r.fn, r.ring⟩ r.tag r.opcode 0
      ∧ (ringOf t ⟨r.fn, r.ring⟩).st = (ringOf s ⟨r.fn, r.ring⟩).st
      ∧ ∀ x ∈ t.obj.indexes, if x.oid = o then x.side = (indexOf s o).side ++ new else x ∈ s.obj.indexes := by
  obtain ⟨t, hexec, hfree, hposts, hring, hindexes⟩ :=
    lone.exec_of_ends hleaves happends (vectorsSettled_appendedObjects held hvec new wb) measured
  exact ⟨t, hexec, hfree, hposts, hring, fun x hx => appendedObjects_indexes held (hindexes x hx)⟩

end Sys2Proof.Machine

namespace Sys2Proof.Proofs

open Sys2Proof Sys2Proof.Machine

/-- Settles O48: the commit of each command appends its entries or, beyond the limit, changes no object, and what follows it keeps the indexes. -/
theorem sideListLimit : Obligations.SideListLimit := by
  intro s n r measured o hclocks hfirmware hstroke hshell hslots hadmitted hcores hquiet hpost hsilent haborted hrunning hends held hvec
  have lone (hnotPipe : ∀ p, r.work ≠ .pipe p) : LoneCommit s n r :=
    ⟨hclocks, hfirmware, hstroke, hshell, hslots, hadmitted, hcores, hquiet, hpost, hsilent, haborted, hrunning, hnotPipe⟩
  refine ⟨fun items hwork => ?insert, fun ids hwork => ?delete⟩
  case insert =>
    have lone := lone (by simp [hwork])
    have hleaves : r.work.leavesSlotAlone = true := by rw [hwork]; rfl
    have hcommit : commitUnit s n r s = commitInsert n o items s := by simp [commitUnit, slotWaits, hwork, hends]
    refine ⟨fun hroom => ?_, fun hfull => lone.exec_of_ends hleaves (hcommit.trans (commitInsert_beyond n hfull)) hvec measured⟩
    obtain ⟨places, result, wb, hlength, hnodup, hinsert⟩ := commitInsert_within n hroom
    obtain ⟨t, hexec, hfree, hposts, hring, happended⟩ := lone.exec_of_appends hleaves held hvec (hcommit.trans hinsert) measured
    exact ⟨t, hexec, hfree, hposts, hring, places, hlength, hnodup, happended⟩
  case delete =>
    have lone := lone (by simp [hwork])
    have hleaves : r.work.leavesSlotAlone = true := by rw [hwork]; rfl
    have hcommit : commitUnit s n r s = commitDelete n o ids s := by simp [commitUnit, slotWaits, hwork, hends]
    refine ⟨fun hroom => ?_, fun hfull => lone.exec_of_ends hleaves (hcommit.trans (commitDelete_beyond n hfull)) hvec measured⟩
    obtain ⟨result, wb, hdelete⟩ := commitDelete_within n hroom
    exact lone.exec_of_appends hleaves held hvec (hcommit.trans hdelete) measured

end Sys2Proof.Proofs
end

section
/-!
PROOFS. The decisions at a stroke boundary (R307, R450, R451): the order of the units is an interleaving of the classes' sorted units, and the
governor takes the largest ratio at which the URGENT units fit, and of the others as many in list order as still fit.
-/

namespace Sys2Proof.Machine

open Sys2Proof

/-! ### Sorting by insertion -/

theorem insertBy_perm {α : Type} (lt : α → α → Bool) (x : α) (l : List α) : (insertBy lt x l).Perm (x :: l) := by
  induction l with
  | nil => exact .refl _
  | cons y ys ih =>
    rw [insertBy]
    split
    · exact .refl _
    · exact (ih.cons y).trans (.swap x y ys)

theorem sortBy_perm {α : Type} (lt : α → α → Bool) (l : List α) : (sortBy lt l).Perm l := by
  suffices h : ∀ acc, (l.foldl (fun acc x => insertBy lt x acc) acc).Perm (acc ++ l) from h []
  induction l with
  | nil => simp
  | cons x xs ih => exact fun acc => (ih _).trans (((insertBy_perm lt x acc).append_right xs).trans List.perm_middle.symm)

/-- A transitive relation that holds of a and b where a comes first, and of b and a where it does not, holds along a sorted list. -/
theorem pairwise_sortBy {α : Type} {lt : α → α → Bool} {R : α → α → Prop} (hlt : ∀ a b, lt a b = true → R a b)
    (hge : ∀ a b, lt a b = false → R b a) (htrans : ∀ a b c, R a b → R b c → R a c) (l : List α) : (sortBy lt l).Pairwise R := by
  have insert (x : α) (l : List α) (h : l.Pairwise R) : (insertBy lt x l).Pairwise R := by
    induction l with
    | nil => simp [insertBy]
    | cons y ys ih =>
      obtain ⟨hy, hys⟩ := List.pairwise_cons.1 h
      rw [insertBy]
      split
      next hxy => exact List.pairwise_cons.2 ⟨List.forall_mem_cons.2 ⟨hlt x y hxy, fun z hz => htrans x y z (hlt x y hxy) (hy z hz)⟩, h⟩
      next hxy =>
        refine List.pairwise_cons.2 ⟨fun z hz => ?_, ih hys⟩
        obtain rfl | hz := List.mem_cons.1 ((insertBy_perm lt x ys).mem_iff.1 hz)
        · exact hge z y (Bool.eq_false_of_not_eq_true hxy)
        · exact hy z hz
  exact List.foldlRecOn (motive := fun acc => acc.Pairwise R) l _ .nil fun acc h x _ => insert x acc h

/-! ### The order within a class -/

/-- Unit a may stand before unit b of its class: its target instant is no later, one without a target stands last, and of equal targets the
earlier fetched stands first (R307). -/
def mayPrecede (a b : Nat × Request) : Prop :=
  (∀ y, targetOf b.2 = some y → ∃ x, targetOf a.2 = some x ∧ x ≤ y) ∧ (targetOf a.2 = targetOf b.2 → a.2.fetchSeq ≤ b.2.fetchSeq)

theorem mayPrecede_trans (a b c : Nat × Request) (hab : mayPrecede a b) (hbc : mayPrecede b c) : mayPrecede a c := by
  obtain ⟨htarget, hfetch⟩ := hab
  obtain ⟨htarget', hfetch'⟩ := hbc
  refine ⟨fun z hz => ?_, fun hac => ?_⟩
  · obtain ⟨y, hy, hyz⟩ := htarget' z hz
    obtain ⟨x, hx, hxy⟩ := htarget y hy
    exact ⟨x, hx, hxy.trans hyz⟩
  · have hab : targetOf a.2 = targetOf b.2 := by
      cases hb : targetOf b.2 with
      | some y =>
        obtain ⟨x, hx, hxy⟩ := htarget y hb
        obtain ⟨y', hy', hyx⟩ := htarget' x (hac ▸ hx)
        rw [hb] at hy'
        cases hy'
        rw [hx, Nat.le_antisymm hxy hyx]
      | none =>
        cases hc : targetOf c.2 with
        | none => rw [hac, hc]
        | some z =>
          obtain ⟨y, hy, -⟩ := htarget' z hc
          rw [hb] at hy
          cases hy
    exact (hfetch hab).trans (hfetch' (hab ▸ hac))

theorem mayPrecede_of_before {a b : Nat × Request} (h : beforeInClass a b = true) : mayPrecede a b := by
  unfold beforeInClass at h
  cases ha : targetOf a.2 <;> cases hb : targetOf b.2 <;> simp [ha, hb, mayPrecede] at h ⊢ <;> omega

theorem mayPrecede_of_not_before {a b : Nat × Request} (h : beforeInClass a b = false) : mayPrecede b a := by
  unfold beforeInClass at h
  cases ha : targetOf a.2 <;> cases hb : targetOf b.2 <;> simp [ha, hb, mayPrecede] at h ⊢ <;> omega

theorem pairwise_sortBy_beforeInClass (l : List (Nat × Request)) : (sortBy beforeInClass l).Pairwise mayPrecede :=
  pairwise_sortBy (fun _ _ => mayPrecede_of_before) (fun _ _ => mayPrecede_of_not_before) mayPrecede_trans l

theorem pairwise_sortBy_fetchSeq (l : List (Nat × Request)) :
    (sortBy (fun a b => decide (a.2.fetchSeq < b.2.fetchSeq)) l).Pairwise (fun a b => a.2.fetchSeq ≤ b.2.fetchSeq) :=
  pairwise_sortBy (R := fun a b => a.2.fetchSeq ≤ b.2.fetchSeq) (fun _ _ h => Nat.le_of_lt (of_decide_eq_true h))
    (fun _ _ h => Nat.le_of_not_lt (of_decide_eq_false h)) (fun _ _ _ => Nat.le_trans) l

/-! ### The round robin takes every unit once, each class in its order -/

/-- A list that takes every element of some lists once, each time the first that is left of one of them. -/
inductive Interleaves {α : Type} : List (List α) → List α → Prop
  | done {ls : List (List α)} (h : ∀ l ∈ ls, l = []) : Interleaves ls []
  | take {ls : List (List α)} {i : Nat} {x : α} {l out : List α} (h : ls[i]? = some (x :: l)) (rest : Interleaves (ls.set i l) out) :
      Interleaves ls (x :: out)

/-- Taking the first element of a list away leaves the others. -/
theorem flatten_perm_cons_set {α : Type} {ls : List (List α)} {i : Nat} {x : α} {l : List α} (h : ls[i]? = some (x :: l)) :
    ls.flatten.Perm (x :: (ls.set i l).flatten) := by
  induction ls generalizing i with
  | nil => simp at h
  | cons k ks ih =>
    cases i with
    | zero =>
      obtain rfl : k = x :: l := by simpa using h
      simp
    | succ i => simpa using ((ih (by simpa using h)).append_left k).trans List.perm_middle

theorem Interleaves.perm {α : Type} {ls : List (List α)} {out : List α} (h : Interleaves ls out) : out.Perm ls.flatten := by
  induction h with
  | done hnil => rw [List.flatten_eq_nil_iff.2 hnil]
  | take hi _ ih => exact (ih.cons _).trans (flatten_perm_cons_set hi).symm

/-- Where a predicate holds of the elements of one list alone, those elements stand in the order of that list. -/
theorem Interleaves.filter_eq {α : Type} {ls : List (List α)} {out : List α} (h : Interleaves ls out) (p : α → Bool) {i : Nat} {l : List α}
    (hi : ls[i]? = some l) (hp : ∀ x ∈ l, p x = true) (hother : ∀ j m, j ≠ i → ls[j]? = some m → ∀ x ∈ m, p x = false) : out.filter p = l := by
  induction h generalizing l with
  | done hnil => rw [hnil l (List.mem_of_getElem? hi), List.filter_nil]
  | @take ls j x k out hj _ ih =>
    have hset (n : Nat) (hn : n ≠ j) : (ls.set j k)[n]? = ls[n]? := List.getElem?_set_ne hn.symm
    have hself : (ls.set j k)[j]? = some k := by simp [(List.getElem?_eq_some_iff.1 hj).1]
    by_cases hij : j = i
    · subst hij
      obtain rfl : x :: k = l := Option.some.inj (hj.symm.trans hi)
      obtain ⟨hx, hk⟩ := List.forall_mem_cons.1 hp
      rw [List.filter_cons_of_pos hx, ih hself hk fun n m hn hm => hother n m hn (hset n hn ▸ hm)]
    · have hx : ¬p x = true := by simp [hother j _ hij hj x List.mem_cons_self]
      rw [List.filter_cons_of_neg hx]
      refine ih (hset i (Ne.symm hij) ▸ hi) hp fun n m hn hm => ?_
      by_cases hnj : n = j
      · subst hnj
        obtain rfl : k = m := Option.some.inj (hself.symm.trans hm)
        exact fun y hy => hother n _ hn hj y (List.mem_cons_of_mem x hy)
      · exact hother n m hn (hset n hnj ▸ hm)

/-- The units of each class. -/
def Classes.units (cs : Classes) : List (List (Nat × Request)) := cs.map (fun c => c.2.2)

theorem units_addCredits (cs : Classes) : Classes.units (addCredits cs) = Classes.units cs := by
  rw [addCredits, Classes.units, List.map_map]
  refine List.map_congr_left fun c _ => ?_
  dsimp only [Function.comp]
  split <;> rfl

/-- The choice between the best class so far and the next one. -/
def keepBest (best : Option (Nat × Int)) (x : (Nat × Int × List (Nat × Request)) × Nat) : Option (Nat × Int) :=
  if x.1.2.2.isEmpty then best
  else
    match best with
    | some y => if y.2 < x.1.2.1 then some (x.2, x.1.2.1) else some y
    | none => some (x.2, x.1.2.1)

theorem bestClass_eq (cs : Classes) : bestClass cs = cs.zipIdx.foldl keepBest none := rfl

/-- The next class is chosen only where it has units, and passed over only where it has none or another is chosen. -/
theorem keepBest_cases (best : Option (Nat × Int)) (x : (Nat × Int × List (Nat × Request)) × Nat) :
    (keepBest best x = best ∧ (best = none → x.1.2.2 = [])) ∨ (keepBest best x = some (x.2, x.1.2.1) ∧ x.1.2.2 ≠ []) := by
  by_cases hempty : x.1.2.2 = []
  · exact .inl ⟨by simp [keepBest, hempty], fun _ => hempty⟩
  · cases best with
    | none => exact .inr ⟨by simp [keepBest, hempty], hempty⟩
    | some y =>
      by_cases hlt : y.2 < x.1.2.1
      · exact .inr ⟨by simp [keepBest, hempty, hlt], hempty⟩
      · exact .inl ⟨by simp [keepBest, hempty, hlt], nofun⟩

/-- Where no class is chosen, none has units. -/
theorem foldl_keepBest_none {xs : List ((Nat × Int × List (Nat × Request)) × Nat)} {best : Option (Nat × Int)} (h : xs.foldl keepBest best = none) :
    best = none ∧ ∀ x ∈ xs, x.1.2.2 = [] := by
  induction xs generalizing best with
  | nil => exact ⟨h, nofun⟩
  | cons x xs ih =>
    obtain ⟨hnone, hxs⟩ := ih h
    obtain ⟨hkeep, hx⟩ | ⟨htake, -⟩ := keepBest_cases best x
    · have hbest : best = none := hkeep.symm.trans hnone
      exact ⟨hbest, List.forall_mem_cons.2 ⟨hx hbest, hxs⟩⟩
    · cases htake.symm.trans hnone

/-- The class chosen has units. -/
theorem foldl_keepBest_some {xs : List ((Nat × Int × List (Nat × Request)) × Nat)} {best : Option (Nat × Int)} {y : Nat × Int}
    (h : xs.foldl keepBest best = some y) : best = some y ∨ ∃ x ∈ xs, x.2 = y.1 ∧ x.1.2.2 ≠ [] := by
  induction xs generalizing best with
  | nil => exact .inl h
  | cons x xs ih =>
    obtain hbest | ⟨z, hz, hzy⟩ := ih h
    · obtain ⟨hkeep, -⟩ | ⟨htake, hx⟩ := keepBest_cases best x
      · exact .inl (hkeep.symm.trans hbest)
      · exact .inr ⟨x, List.mem_cons_self, congrArg Prod.fst (Option.some.inj (htake.symm.trans hbest)), hx⟩
    · exact .inr ⟨z, List.mem_cons_of_mem x hz, hzy⟩

theorem units_of_bestClass_none {cs : Classes} (h : bestClass cs = none) : ∀ l ∈ Classes.units cs, l = [] := by
  rw [bestClass_eq] at h
  obtain ⟨-, hempty⟩ := foldl_keepBest_none h
  intro l hl
  obtain ⟨c, hc, rfl⟩ := List.mem_map.1 hl
  obtain ⟨i, hi⟩ := List.mem_iff_getElem?.1 hc
  exact hempty (c, i) (List.mem_zipIdx_iff_getElem?.2 hi)

theorem units_of_bestClass_some {cs : Classes} {i : Nat} {credit : Int} (h : bestClass cs = some (i, credit)) :
    ∃ c x l, cs[i]? = some c ∧ c.2.2 = x :: l := by
  rw [bestClass_eq] at h
  obtain hnone | ⟨⟨c, _⟩, hc, rfl, hunits⟩ := foldl_keepBest_some h
  · cases hnone
  · obtain ⟨x, l, hxl⟩ := List.exists_cons_of_ne_nil hunits
    exact ⟨c, x, l, List.mem_zipIdx_iff_getElem?.1 hc, hxl⟩

/-- With fuel for every unit the round robin interleaves the classes. -/
theorem roundRobin_interleaves (f : Nat) (cs : Classes) (h : (Classes.units cs).flatten.length ≤ f) : Interleaves (Classes.units cs) (roundRobin f cs) := by
  induction f generalizing cs with
  | zero => exact .done (List.flatten_eq_nil_iff.1 (List.length_eq_zero_iff.1 (Nat.le_zero.1 h)))
  | succ f ih =>
    rw [← units_addCredits] at h ⊢
    rw [roundRobin]
    cases hbest : bestClass (addCredits cs) with
    | none => exact .done (units_of_bestClass_none hbest)
    | some best =>
      obtain ⟨i, credit⟩ := best
      obtain ⟨c, x, l, hc, hxl⟩ := units_of_bestClass_some hbest
      have hunits : (Classes.units (addCredits cs))[i]? = some (x :: l) := by simp [Classes.units, hc, hxl]
      have hrest (k : Int) : Classes.units ((addCredits cs).set i (c.1, k, l)) = (Classes.units (addCredits cs)).set i l := List.map_set
      have hlength := (flatten_perm_cons_set hunits).length_eq
      simp only [List.getD_eq_getElem?_getD, hc, Option.getD_some, hxl, List.take_succ_cons, List.take_zero, List.drop_succ_cons, List.drop_zero,
        List.singleton_append]
      refine .take hunits ?_
      rw [← hrest]
      refine ih _ ?_
      rw [hrest]
      simp only [List.length_cons] at hlength
      omega

/-! ### The order of units -/

/-- The units of one class, in their order. -/
def classUnits (xs : List (Nat × Request)) (k : Nat) : List (Nat × Request) := sortBy beforeInClass (xs.filter (fun x => x.2.prio == k))

theorem mem_classUnits {xs : List (Nat × Request)} {k : Nat} {x : Nat × Request} (h : x ∈ classUnits xs k) : x.2.prio = k := by
  simpa using (List.mem_filter.1 ((sortBy_perm _ _).mem_iff.1 h)).2

/-- The URGENT units in fetch order. -/
def urgentUnits (xs : List (Nat × Request)) : List (Nat × Request) :=
  sortBy (fun a b => decide (a.2.fetchSeq < b.2.fetchSeq)) (xs.filter (fun x => x.2.prio == 0))

theorem count_filter_prio (xs : List (Nat × Request)) (x : Nat × Request) (k : Nat) :
    (xs.filter (fun y => y.2.prio == k)).count x = if x.2.prio = k then xs.count x else 0 := by
  split
  next hk => exact List.count_filter (by simpa using hk)
  next hk => exact List.count_eq_zero.2 fun hx => hk (by simpa using (List.mem_filter.1 hx).2)

/-- Every unit is of one of the four classes. -/
theorem classUnits_perm {xs : List (Nat × Request)} (h : ∀ x ∈ xs, x.2.prio ≤ 3) :
    (urgentUnits xs ++ [classUnits xs 1, classUnits xs 2, classUnits xs 3].flatten).Perm xs := by
  refine List.perm_iff_count.2 fun x => ?_
  have hurgent : (urgentUnits xs).count x = if x.2.prio = 0 then xs.count x else 0 :=
    ((sortBy_perm _ _).count_eq x).trans (count_filter_prio xs x 0)
  have hclass (k : Nat) : (classUnits xs k).count x = if x.2.prio = k then xs.count x else 0 :=
    ((sortBy_perm _ _).count_eq x).trans (count_filter_prio xs x k)
  simp only [List.count_append, List.flatten_cons, List.flatten_nil, List.count_nil, hurgent, hclass]
  by_cases hx : x ∈ xs
  · have := h x hx
    split_ifs <;> omega
  · simp [List.count_eq_zero.2 hx]

/-- The classes that the round robin starts from. -/
def unitClasses (s : State) (xs : List (Nat × Request)) : Classes :=
  [(fieldOf s.port.arbWeight 7 0, 0, classUnits xs 1), (fieldOf s.port.arbWeight 15 8, 0, classUnits xs 2),
   (fieldOf s.port.arbWeight 23 16, 0, classUnits xs 3)]

theorem unitOrder_eq (s : State) (xs : List (Nat × Request)) : unitOrder s xs = urgentUnits xs ++ roundRobin xs.length (unitClasses s xs) := rfl

/-- The units that are not URGENT are an interleaving of the classes. -/
theorem roundRobin_unitClasses (s : State) {xs : List (Nat × Request)} (h : ∀ x ∈ xs, x.2.prio ≤ 3) :
    Interleaves [classUnits xs 1, classUnits xs 2, classUnits xs 3] (roundRobin xs.length (unitClasses s xs)) := by
  refine roundRobin_interleaves xs.length (unitClasses s xs) ?_
  have hlength := (classUnits_perm h).length_eq
  rw [List.length_append] at hlength
  exact hlength ▸ Nat.le_add_left _ _

/-- The units of class k stand in the order of their class. -/
theorem Interleaves.filter_class {xs v : List (Nat × Request)} (h : Interleaves [classUnits xs 1, classUnits xs 2, classUnits xs 3] v) {k : Nat}
    (h1 : 1 ≤ k) (h3 : k ≤ 3) : v.filter (fun x => x.2.prio == k) = classUnits xs k := by
  have hclass (j : Nat) (m : List (Nat × Request)) (hm : [classUnits xs 1, classUnits xs 2, classUnits xs 3][j]? = some m) : m = classUnits xs (j + 1) := by
    obtain _ | _ | _ | j := j <;> simp_all
  refine h.filter_eq _ (i := k - 1) ?_ (fun x hx => by simpa using mem_classUnits hx) fun j m hj hm x hx => ?_
  · obtain rfl | rfl | rfl : k = 1 ∨ k = 2 ∨ k = 3 := by omega
    all_goals rfl
  · have hprio := mem_classUnits (hclass j m hm ▸ hx)
    simp only [beq_eq_false_iff_ne]
    omega

theorem unitOrder_ordered : Claims.UnitOrder := by
  intro s xs h
  have hv := roundRobin_unitClasses s h
  rw [unitOrder_eq]
  refine ⟨(hv.perm.append_left _).trans (classUnits_perm h), _, _, rfl, fun x hx => ?_, fun x hx hprio => ?_, pairwise_sortBy_fetchSeq _,
    fun k h1 h3 => ?_⟩
  · simpa using (List.mem_filter.1 ((sortBy_perm _ _).mem_iff.1 hx)).2
  · obtain ⟨l, hl, hx⟩ := List.mem_flatten.1 (hv.perm.mem_iff.1 hx)
    simp only [List.mem_cons, List.not_mem_nil, or_false] at hl
    obtain rfl | rfl | rfl := hl <;> simp [mem_classUnits hx] at hprio
  · rw [hv.filter_class h1 h3]
    exact pairwise_sortBy_beforeInClass _

/-! ### The governor -/

theorem mem_ratios {cap m : Nat} : m ∈ ratios cap ↔ 8 ≤ m ∧ m ≤ cap := by
  simp only [ratios, List.mem_map, List.mem_range]
  constructor
  · rintro ⟨i, hi, rfl⟩
    omega
  · rintro ⟨h8, hcap⟩
    exact ⟨cap - m, by omega, by omega⟩

theorem ratios_pairwise (cap : Nat) : (ratios cap).Pairwise (fun a b => b < a) := by
  refine List.pairwise_map.2 (List.pairwise_lt_range.imp_of_mem fun ha hb hab => ?_)
  have := List.mem_range.1 hb
  omega

/-- The ratio chosen is 8 or one that passes, and none above it passes. -/
theorem find_ratios (cap : Nat) (p : Nat → Bool) :
    let m := ((ratios cap).find? p).getD 8
    (m = 8 ∨ (p m = true ∧ 8 ≤ m ∧ m ≤ cap)) ∧ ∀ m', m < m' → 8 ≤ m' → m' ≤ cap → p m' = false := by
  cases hfind : (ratios cap).find? p with
  | none => exact ⟨.inl rfl, fun m' _ h8 hcap => by simpa using List.find?_eq_none.1 hfind m' (mem_ratios.2 ⟨h8, hcap⟩)⟩
  | some m =>
    obtain ⟨hm, before, after, hsplit, hbefore⟩ := List.find?_eq_some_iff_append.1 hfind
    have hrange := mem_ratios.1 (List.mem_of_find?_eq_some hfind)
    refine ⟨.inr ⟨hm, hrange⟩, fun m' hlt h8 hcap => ?_⟩
    have hmem := mem_ratios.2 ⟨h8, hcap⟩
    have hpair := ratios_pairwise cap
    rw [hsplit] at hmem hpair
    obtain hmem | hmem := List.mem_append.1 hmem
    · simpa using hbefore m' hmem
    · obtain rfl | hafter := List.mem_cons.1 hmem
      · exact absurd hlt (Nat.lt_irrefl _)
      · have := (List.pairwise_cons.1 (List.pairwise_append.1 hpair).2.1).1 m' hafter
        exact absurd hlt (by simpa using this.le)

/-- Units are added in list order up to the first that would no longer fit. -/
theorem addFitting_spec (s : State) (b : BoundaryData) (m : Nat) (us rest : List UnitEst) :
    ∃ k, addFitting s b m us rest = us ++ rest.take k ∧ (∀ j, 1 ≤ j → j ≤ k → j ≤ rest.length → strokeFits s b (us ++ rest.take j) m = true)
      ∧ (k < rest.length → strokeFits s b (us ++ rest.take (k + 1)) m = false) := by
  induction rest generalizing us with
  | nil => exact ⟨0, by simp [addFitting], fun j h1 h0 _ => by omega, nofun⟩
  | cons u more ih =>
    by_cases hfits : strokeFits s b (us ++ [u]) m = true
    · obtain ⟨k, hadd, hfit, hstop⟩ := ih (us ++ [u])
      refine ⟨k + 1, by simp [addFitting, hfits, hadd], fun j h1 hk hlength => ?_, fun hk => by simpa using hstop (by simpa using hk)⟩
      obtain _ | _ | j := j
      · omega
      · simpa using hfits
      · simpa using hfit (j + 1) (by omega) (by omega) (by simpa using hlength)
    · exact ⟨0, by simp [addFitting, hfits], fun j h1 h0 _ => by omega, fun _ => by simpa using hfits⟩

theorem governStroke_admits : Claims.GovernorAdmits := by
  intro s b placed
  refine ⟨fun hthrottle => by simp [governStroke, hthrottle], fun hthrottle => ?_⟩
  simp only [governStroke, hthrottle, Bool.false_eq_true, if_false]
  refine ⟨fun hnone => by simp [hnone], fun hsome => ?_, addFitting_spec s b _ _ _⟩
  rw [if_neg (by simpa using hsome)]
  exact find_ratios _ _

end Sys2Proof.Machine

namespace Sys2Proof.Proofs

open Sys2Proof Sys2Proof.Machine

/-- Settles O46: the round robin interleaves the sorted classes behind the URGENT units, and the governor searches the ratios downwards and adds units
in list order. -/
theorem boundaryDecisions : Obligations.BoundaryDecisions := ⟨unitOrder_ordered, governStroke_admits⟩

end Sys2Proof.Proofs
end

section
/-!
PROOFS. What a fetched entry becomes (R301, R389, R390; log entry 52): an entry of any row that the package takes is settled on the state its fetch
leaves, in the lowest free slot or with its completion, and nothing that waited moves on.
-/

namespace Sys2Proof.Machine

open Sys2Proof

/-! ### The lowest free slot -/

/-- Where the keys rise from n on, the number found is free and every one from n to it is taken. -/
theorem leastFree_spec {α : Type} (m : Sparse α) (n : Nat) (h : risingKeys m = true) (hn : ∀ x ∈ m, n ≤ x.1) :
    n ≤ leastFree m n ∧ slookup m (leastFree m n) = none ∧ ∀ j, n ≤ j → j < leastFree m n → slookup m j ≠ none := by
  induction m generalizing n with
  | nil => exact ⟨Nat.le_refl n, rfl, fun j hj hlt => absurd hlt (Nat.not_lt.2 hj)⟩
  | cons x m ih =>
    obtain ⟨k, v⟩ := x
    obtain ⟨habove, hm⟩ := (risingKeys_cons k v m).1 h
    by_cases hk : k = n
    · subst hk
      obtain ⟨hle, hfree, htaken⟩ := ih (k + 1) hm habove
      have hlt : k < leastFree m (k + 1) := hle
      rw [leastFree, if_pos rfl]
      refine ⟨hlt.le, by simp [slookup, hlt.ne', hlt.not_gt, hfree], fun j hj hj' => ?_⟩
      obtain rfl | hkj := Nat.eq_or_lt_of_le hj
      · simp [slookup]
      · simpa [slookup, hkj.ne', hkj.not_gt] using htaken j hkj hj'
    · have hnk : n < k := Nat.lt_of_le_of_ne (hn (k, v) List.mem_cons_self) (Ne.symm hk)
      rw [leastFree, if_neg hk]
      exact ⟨Nat.le_refl n, by simp [slookup, hnk.ne, hnk], fun j hj hlt => absurd hlt (Nat.not_lt.2 hj)⟩

/-! ### Posting leaves the serving state and the governor -/

theorem raiseMsix_rest (f v : Nat) (s : State) : raiseMsix f v s = { s with port := (raiseMsix f v s).port, mem := (raiseMsix f v s).mem } := by
  unfold raiseMsix
  dsimp only
  split <;> rfl

theorem moderate_rest (cq : RingRef) (urgent : Bool) (s : State) :
    moderate cq urgent s = { s with port := (moderate cq urgent s).port, mem := (moderate cq urgent s).mem } := by
  unfold moderate
  dsimp only
  split
  · rfl
  · split
    · rw [raiseMsix_rest]
      rfl
    · rfl

/-- A completion touches the rings and interrupts, memory and the trace alone. -/
theorem postCompletion_rest (q : RingRef) (c : Cpl) (reserved : Nat) (s : State) :
    postCompletion q c reserved s = { s with
      port := (postCompletion q c reserved s).port, mem := (postCompletion q c reserved s).mem, trace := (postCompletion q c reserved s).trace } := by
  unfold postCompletion
  rw [traceCommand_rest, moderate_rest]
  rfl

theorem nothingWaits_postCompletion {s : State} (h : Claims.nothingWaits s) (q : RingRef) (c : Cpl) (reserved : Nat) :
    Claims.nothingWaits (postCompletion q c reserved s) := by
  rw [postCompletion_rest]
  exact h

/-! ### The row of an entry -/

/-- A command of a row of entries is a fetch with the row's body, of an entry of that row where the command is carried out. -/
theorem exec_entryRow (s : State) (q : RingRef) (e : Entry) :
    ∀ row ∈ Claims.entryRows, exec (row.1 q e) s = fetchEntry (runs s (row.1 q e)) row.2 q e s := by
  simp only [Claims.entryRows, List.forall_mem_cons, List.not_mem_nil, false_implies, implies_true, and_true]
  and_intros
  all_goals
    simp only [runs, Bool.and_true]
    rfl

/-- The check of R437 lets every command through where the package is no other member of a shell. -/
theorem shellGate_eq {s : State} (h : s.net.myMember = 0 ∨ s.net.shell = .solo ∨ s.net.shell = .joining) (q : RingRef) (e : Entry)
    (t : Except CmdErr Taken) : shellGate q e s t = t := by
  have hopen : (s.net.myMember != 0 && (s.net.shell == .formed || s.net.shell == .restarting || s.net.shell == .ending)) = false := by
    rcases h with h | h | h <;> simp [h]
  cases t <;> simp [shellGate, hopen]

/-- An entry that the package takes is settled on the state that its fetch leaves. -/
theorem takeEntry_of_takes {s : State} {q : RingRef} {e : Entry} (h : Claims.takes s q e) (body : RingRef → Entry → State → Except CmdErr Taken) :
    takeEntry body q e s
      = settleTaken q e (ringOf s q).sqHead s.srv.fetchSeq (body q e (Claims.fetched q s)) (Claims.fetched q s) := by
  obtain ⟨-, hheader, hgate⟩ := h
  have hgate' : (Claims.fetched q s).net.myMember = 0 ∨ (Claims.fetched q s).net.shell = .solo ∨ (Claims.fetched q s).net.shell = .joining := hgate
  rw [← shellGate_eq hgate' q e (body q e (Claims.fetched q s)), takeEntry, hheader]
  rfl

/-- What the command of an entry that the package takes does. -/
theorem exec_of_takes {s : State} {q : RingRef} {e : Entry} {row : (RingRef → Entry → Instr) × (RingRef → Entry → State → Except CmdErr Taken)}
    (hrow : row ∈ Claims.entryRows) (hruns : runs s (row.1 q e) = true) (h : Claims.takes s q e) {taken : Taken}
    (hbody : row.2 q e (Claims.fetched q s) = .ok taken) :
    exec (row.1 q e) s
      = .next (Claims.after s (settle (settleTaken q e (ringOf s q).sqHead s.srv.fetchSeq (.ok taken) (Claims.fetched q s)))) := by
  rw [exec_entryRow s q e row hrow, hruns, fetchEntry, if_pos rfl, if_pos h.1, takeEntry_of_takes h, hbody]
  rfl

/-! ### Nothing moves on behind a new request -/

theorem drainCheck_of_noPower {s : State} (h : s.srv.slots.length = 1 → powerSlots s = []) : drainCheck s = s := by
  unfold drainCheck
  split
  next hdrain =>
    simp only [Bool.and_eq_true, beq_iff_eq] at hdrain
    rw [h hdrain.1.2]
  next => rfl

/-- A request that enters no power state ends no drain. -/
theorem drainCheck_setSlot (s : State) (k : Nat) {r : Request} (h : ∀ n, r.work ≠ .power n) : drainCheck (setSlot s k r) = setSlot s k r := by
  refine drainCheck_of_noPower fun halone => ?_
  obtain ⟨x, hx⟩ := List.length_eq_one_iff.1 halone
  have hmem : (k, r) ∈ (setSlot s k r).srv.slots := mem_of_slookup _ _ _ (slookup_sset_self _ _ _)
  obtain rfl : (k, r) = x := List.mem_singleton.1 (hx ▸ hmem)
  rw [powerSlots, hx, List.filterMap_cons]
  cases hw : r.work with
  | power n => exact absurd hw (h n)
  | _ => rfl

theorem settle_setSlot {s : State} (hholds : s.srv.holds = []) (k : Nat) {r : Request} (h : ∀ n, r.work ≠ .power n) :
    settle (setSlot s k r) = setSlot s k r := by
  have hall : settleAll (setSlot s k r) = setSlot s k r := by
    simp [settleAll, setSlot, hholds, settleHolds]
  rw [settle, hall, drainCheck_setSlot s k h]

theorem entriesTakeSlots : Claims.EntriesTakeSlots := by
  intro s q e row hrow hruns htakes w u hbody hwork hholds hrising
  obtain ⟨-, hfree, htaken⟩ := leastFree_spec u.srv.slots 0 hrising (fun _ _ => Nat.zero_le _)
  refine ⟨⟨hfree, fun j hj => htaken j (Nat.zero_le j) hj⟩, _, exec_of_takes hrow hruns htakes hbody, ?_⟩
  rw [settleTaken, settle_setSlot hholds _ hwork]
  exact ⟨slookup_sset_self _ _ _, fun j hj => slookup_sset_other _ _ _ _ hj, rfl⟩

theorem entriesComplete : Claims.EntriesComplete := by
  intro s q e row hrow hruns htakes st res u hbody hholds hdrain
  rw [exec_of_takes hrow hruns htakes hbody, settleTaken, settle_of_nothingWaits (nothingWaits_postCompletion ⟨hholds, hdrain⟩ _ _ _)]

end Sys2Proof.Machine

namespace Sys2Proof.Proofs

open Sys2Proof Sys2Proof.Machine

/-- Settles O27: a row's command settles what the row's body has taken, and nothing that waits moves on. -/
theorem entriesAct : Obligations.EntriesAct := ⟨entriesTakeSlots, entriesComplete⟩

end Sys2Proof.Proofs
end

section
/-!
PROOFS. The rows about one request or conversation (R308, R310, R327, R396): a request that ends outside a stroke gives up its slot and posts its
completion whatever its work, and a conversation that expires gives way to its entry in the recent table.
-/

namespace Sys2Proof.Machine

open Sys2Proof

/-! ### The end of a request -/

/-- t is s in its slots and in what posts completions, nothing begins to wait, no index comes in, and host memory stays in its form. -/
structure KeepsSlots (s t : State) : Prop where
  slots : t.srv.slots = s.srv.slots
  port : t.port = s.port
  indexes : ∀ x ∈ t.obj.indexes, x ∈ s.obj.indexes
  hostWf : Memory.wf s.mem.host = true → Memory.wf t.mem.host = true
  quiet : Claims.nothingWaits s → Claims.nothingWaits t

theorem KeepsSlots.refl (s : State) : KeepsSlots s s := ⟨rfl, rfl, fun _ => id, id, id⟩

theorem KeepsSlots.trans {s t u : State} (a : KeepsSlots s t) (b : KeepsSlots t u) : KeepsSlots s u :=
  ⟨b.slots.trans a.slots, b.port.trans a.port, fun x hx => a.indexes x (b.indexes x hx), b.hostWf ∘ a.hostWf, b.quiet ∘ a.quiet⟩

theorem hostWrite_keepsSlots (s : State) (a : Nat) (bs : List Byte) : KeepsSlots s (hostWrite s a bs) := ⟨rfl, rfl, fun _ => id, hostWrite_wf s a bs, id⟩

theorem setConv_keepsSlots (c : Conv) (s : State) : KeepsSlots s (setConv c s) := ⟨rfl, rfl, fun _ => id, id, id⟩

theorem dropConv_keepsSlots (f id : Nat) (s : State) : KeepsSlots s (dropConv f id s) := ⟨rfl, rfl, fun _ h => h, fun h => h, fun h => h⟩

theorem endConv_keepsSlots (how : ConvEnd) (s : State) (c : Conv) : KeepsSlots s (endConv how s c) := ⟨rfl, rfl, fun _ hx => (List.mem_filter.1 hx).1, id, id⟩

theorem abandonWork_keepsSlots (w : Work) (s : State) : KeepsSlots s (abandonWork w s) := by
  unfold abandonWork
  split
  · split
    · exact ⟨rfl, rfl, fun _ => id, id, id⟩
    · exact .refl s
  · exact ⟨rfl, rfl, fun _ => id, id, id⟩
  · exact ⟨rfl, rfl, fun _ => id, id, fun h => ⟨h.1, rfl⟩⟩
  · exact .refl s

theorem settleConv_keepsSlots (r : Request) (status : Nat) (s : State) : KeepsSlots s (settleConv r status s) := by
  unfold settleConv
  split
  · split
    · exact .refl s
    · split
      · exact .refl s
      · split_ifs
        exacts [endConv_keepsSlots _ _ _, setConv_keepsSlots _ _, endConv_keepsSlots _ _ _, dropConv_keepsSlots _ _ _, setConv_keepsSlots _ _]
  · split
    · split_ifs
      exacts [endConv_keepsSlots _ _ _, setConv_keepsSlots _ _, .refl s]
    · exact .refl s
  · split
    · split_ifs
      exacts [endConv_keepsSlots _ _ _, setConv_keepsSlots _ _, .refl s]
    · exact .refl s
  · exact .refl s

/-- A request's end gives up its slot and the objects that nothing names any more. -/
theorem releaseRequest_keepsSlots (n status : Nat) (r : Request) (s : State) :
    ∃ t, KeepsSlots s t ∧ releaseRequest n status r s = collect (freeSlot t n) := by
  refine ⟨_, .trans (.trans ?_ (abandonWork_keepsSlots r.work _)) (settleConv_keepsSlots r status _), rfl⟩
  split
  · split
    · exact hostWrite_keepsSlots _ _ _
    · exact .refl s
  · exact .refl s

/-- Where a completion can be posted and what it says depend on the ring pairs and host memory alone. -/
theorem posts_congr {s s' : State} (h : s'.port.rings = s.port.rings) (t : State) (q : RingRef) (tag opcode status : Nat) :
    Claims.posts s' t q tag opcode status = Claims.posts s t q tag opcode status := by
  simp only [Claims.posts, cqOf, ringOf, h]

/-- A request's end releases it and posts a completion with its tag, its opcode and the status. -/
theorem endRequest_eq_post {s : State} {n : Nat} {r : Request} (hslot : slotOf s n = some r) (hsilent : r.silent = false) (status : Nat) (result : List Byte) :
    ∃ c : Cpl, endRequest n status result s = postCompletion ⟨r.fn, r.ring⟩ c 1 (releaseRequest n status r s)
      ∧ c.tag = r.tag ∧ c.opcode = r.opcode ∧ c.status = status :=
  ⟨_, by simp only [endRequest, hslot, hsilent, Bool.false_eq_true, if_false]; rfl, rfl, rfl, rfl⟩

/-- A request that ends leaves its slot free, no other slot changed, its completion posted, its ring in its state, and nothing that waits. -/
theorem endRequest_posts {s : State} {n : Nat} {r : Request} (hslot : slotOf s n = some r) (hsilent : r.silent = false)
    (hpost : Claims.canPost s ⟨r.fn, r.ring⟩) (hquiet : Claims.nothingWaits s) (status : Nat) (result : List Byte) :
    let t := endRequest n status result s
    t.srv.slots = serase s.srv.slots n ∧ Claims.posts s t ⟨r.fn, r.ring⟩ r.tag r.opcode status
      ∧ (ringOf t ⟨r.fn, r.ring⟩).st = (ringOf s ⟨r.fn, r.ring⟩).st ∧ Claims.nothingWaits t ∧ ∀ x ∈ t.obj.indexes, x ∈ s.obj.indexes := by
  obtain ⟨u, ⟨hslots, hport, hindexes, hhost, hwaits⟩, hrelease⟩ := releaseRequest_keepsSlots n status r s
  obtain ⟨c, hend, htag, hopcode, rfl⟩ := endRequest_eq_post hslot hsilent status result
  have hfreed : (collect (freeSlot u n)).srv.slots = serase s.srv.slots n := congrArg (serase · n) hslots
  have hport : (collect (freeSlot u n)).port = s.port := hport
  have hwaits : Claims.nothingWaits (collect (freeSlot u n)) := hwaits hquiet
  have hcan : Claims.canPost (collect (freeSlot u n)) ⟨r.fn, r.ring⟩ := ⟨by simpa only [cqOf, ringOf, hport] using hpost.1, hhost hpost.2⟩
  have hkept : ∀ x ∈ (collect (freeSlot u n)).obj.indexes, x ∈ s.obj.indexes := fun x hx => hindexes x (List.mem_filter.1 hx).1
  rw [← hrelease] at hfreed hport hwaits hcan hkept
  have posted := postCompletion_posted hcan c 1
  rw [hend]
  refine ⟨?_, ?_, ?_, nothingWaits_postCompletion hwaits _ _ _, ?_⟩
  · rw [postCompletion_rest]
    exact hfreed
  · rw [← posts_congr (congrArg HostPort.rings hport), ← htag, ← hopcode]
    exact posted.entry
  · rw [posted.ringSt]
    simp only [ringOf, hport]
  · rw [postCompletion_rest]
    exact hkept

/-! ### The rows -/

/-- KV_POOL_EXHAUSTED ends a request that has waited its strokes for a page (R310). -/
theorem execKvPoolExhausted_eq {s : State} {n : Nat} {r : Request} (hslot : slotOf s n = some r) (hclocks : clocksRun s = true) (hwaiting : r.st = .waiting)
    (hpage : r.wait = 3) (hlong : s.srv.pageWait ≤ r.holdPages) :
    exec (.kvPoolExhausted n) s = finish s (settle (endRequest n 0x47 [] s)) := by
  simp [exec, execKvPoolExhausted, hslot, hclocks, hwaiting, hpage, hlong]

theorem kvPoolExhausted_ends {s : State} {n : Nat} {r : Request} (hslot : slotOf s n = some r) (hclocks : clocksRun s = true) (hwaiting : r.st = .waiting)
    (hpage : r.wait = 3) (hlong : s.srv.pageWait ≤ r.holdPages) (hquiet : Claims.nothingWaits s) (hpost : Claims.canPost s ⟨r.fn, r.ring⟩)
    (hsilent : r.silent = false) (hrising : risingKeys s.srv.slots = true) :
    ∃ t, exec (.kvPoolExhausted n) s = .next t ∧ slotOf t n = none ∧ (∀ k, k ≠ n → slotOf t k = slotOf s k)
      ∧ Claims.posts s t ⟨r.fn, r.ring⟩ r.tag r.opcode 0x47 ∧ (ringOf t ⟨r.fn, r.ring⟩).st = (ringOf s ⟨r.fn, r.ring⟩).st := by
  obtain ⟨hslots, hposts, hring, hwaits, -⟩ := endRequest_posts hslot hsilent hpost hquiet 0x47 []
  have hexec := execKvPoolExhausted_eq hslot hclocks hwaiting hpage hlong
  rw [settle_of_nothingWaits hwaits] at hexec
  refine ⟨_, hexec, ?_, fun k hk => ?_, hposts, hring⟩
  · exact (congrArg (slookup · n) hslots).trans (slookup_serase_self _ _ hrising)
  · exact (congrArg (slookup · k) hslots).trans (slookup_serase_other _ _ _ hrising hk)

/-- AGE_HIGH, AGE_MEDIUM and AGE_LOW (R396). -/
theorem ageLimit_eq (s : State) {prio : Nat} (h1 : 1 ≤ prio) (h3 : prio ≤ 3) :
    ageLimit s prio
      = 10000 * (if prio = 1 then fieldOf s.port.ageNow 15 0 else if prio = 2 then fieldOf s.port.ageNow 31 16 else fieldOf s.port.ageNow 47 32) := by
  obtain rfl | rfl | rfl : prio = 1 ∨ prio = 2 ∨ prio = 3 := by omega
  all_goals rfl

/-- AGEING_PROMOTION marks a request at the age limit of its class (R396). -/
theorem ageingPromotion_marks {s : State} {n : Nat} {r : Request} (hslot : slotOf s n = some r) (hclocks : clocksRun s = true) (h1 : 1 ≤ r.prio)
    (hst : r.st = .ready ∨ r.st = .waiting) (haged : r.aged = false) (hage : r.tFetch + ageLimit s r.prio ≤ s.clk.ts) :
    exec (.ageingPromotion n) s = .next (setSlot s n { r with promote := true }) := by
  have hwaits : (r.st == .ready || r.st == .waiting) = true := by rcases hst with hst | hst <;> simp [hst]
  have hexec : exec (.ageingPromotion n) s = finish s (setSlot s n { r with promote := true }) := by
    simp only [exec, execAgeingPromotion, hslot, hclocks, h1, hwaits, haged, now, hage, decide_true, Bool.not_false, Bool.and_self, if_true]
  exact hexec

/-- FAR_TILE_RESIDENT makes a request that waits for FAR tiles READY (R308). -/
theorem farTileResident_readies {s : State} {n : Nat} {r : Request} (hslot : slotOf s n = some r) (hclocks : clocksRun s = true) (hwaiting : r.st = .waiting)
    (hfar : r.wait = 4) : exec (.farTileResident n) s = .next (setSlot s n { r with st := .ready, wait := 0 }) := by
  have hexec : exec (.farTileResident n) s = finish s (setSlot s n { r with st := .ready, wait := 0 }) := by
    simp [exec, execFarTileResident, hslot, hclocks, hwaiting, hfar]
  exact hexec

theorem convOf_mem {s : State} {fn id : Nat} {c : Conv} (h : convOf s fn id = some c) : c.fn = fn ∧ c.id = id := by
  simpa using List.find?_some h

theorem convOf_endConv (how : ConvEnd) (s : State) (c : Conv) : convOf (endConv how s c) c.fn c.id = none := by
  refine List.find?_eq_none.2 fun x hx => ?_
  simpa [imp_iff_not_or] using (List.mem_filter.1 hx).2

/-- BOATHOUSE_EXPIRY ends a conversation whose instant the calendar has reached (R327). -/
theorem execBoathouseExpiry_eq {s : State} {fn id : Nat} {c : Conv} (hfn : fn < 64) (hconv : convOf s fn id = some c) (hpaused : c.st = .paused)
    (hcancel : c.expiryCancelled = false) (hclocks : clocksRun s = true) (hretain : s.gov.st ≠ .retain)
    (hdue : c.expirySec < s.cal.sec ∨ (c.expirySec = s.cal.sec ∧ c.expiryFrac ≤ s.cal.frac)) (hflow : Claims.eventsFlow s) :
    ∃ q k, exec (.boathouseExpiry fn id) s = finish s (endConv .expired { s with boot := { s.boot with highWater := k, evq := q } } c) := by
  obtain ⟨hact, hroom⟩ := hflow
  obtain ⟨q, k, hlatch, -⟩ := latch_room (.boathouse fn id) s hroom
  have hexpires : expires c = true := by simp [expires, hpaused, hcancel]
  have hreached : calReached s c.expirySec c.expiryFrac = true := by
    rcases hdue with h | ⟨h, hfrac⟩
    · simp [calReached, h]
    · simp [calReached, h, hfrac]
  have hconv' : convOf { s with boot := { s.boot with highWater := k, evq := q } } fn id = some c := hconv
  refine ⟨q, k, ?_⟩
  simp [exec, execBoathouseExpiry, hfn, hconv, hclocks, hexpires, hreached, hretain, hlatch, hact, hconv']

theorem boathouseExpiry_expires {s : State} {fn id : Nat} {c : Conv} (hfn : fn < 64) (hconv : convOf s fn id = some c) (hpaused : c.st = .paused)
    (hcancel : c.expiryCancelled = false) (hclocks : clocksRun s = true) (hretain : s.gov.st ≠ .retain)
    (hdue : c.expirySec < s.cal.sec ∨ (c.expirySec = s.cal.sec ∧ c.expiryFrac ≤ s.cal.frac)) (hflow : Claims.eventsFlow s) :
    ∃ t, exec (.boathouseExpiry fn id) s = .next t ∧ convOf t fn id = none ∧ t.srv.recent.head? = some (fn, id, .expired)
      ∧ (∀ x ∈ s.srv.convs, ¬(x.fn = fn ∧ x.id = id) → x ∈ t.srv.convs) ∧ t.srv.slots = s.srv.slots := by
  obtain ⟨q, k, hexec⟩ := execBoathouseExpiry_eq hfn hconv hpaused hcancel hclocks hretain hdue hflow
  obtain ⟨rfl, rfl⟩ := convOf_mem hconv
  exact ⟨_, hexec, convOf_endConv .expired _ c, rfl, fun x hx hother => List.mem_filter.2 ⟨hx, by simpa [imp_iff_not_or] using hother⟩, rfl⟩

end Sys2Proof.Machine

namespace Sys2Proof.Proofs

open Sys2Proof Sys2Proof.Machine

/-- Settles O49: each row by what its command does where its condition holds. -/
theorem requestEvents : Obligations.RequestEvents := by
  refine ⟨fun s n r hslot hclocks => ⟨fun hwaiting hpage hlong => ?_, fun h1 h3 hst haged hage => ?_, ?_⟩,
    fun s fn id c => boathouseExpiry_expires⟩
  · exact kvPoolExhausted_ends hslot hclocks hwaiting hpage hlong
  · exact ⟨ageingPromotion_marks hslot hclocks h1 hst haged (ageLimit_eq s h1 h3 ▸ hage), rfl, rfl⟩
  · exact farTileResident_readies hslot hclocks

end Sys2Proof.Proofs
end

section
/-!
PROOFS. The boundary of a stroke with no request, and with one URGENT request whose command installs a change (R301, R306, R440; log entry 115).
-/

namespace Sys2Proof.Machine

open Sys2Proof

/-! ### What the boundary starts from -/

/-- The package at a boundary where no epoch waits: a shell that has restarted serves again, and the age limits are taken. -/
def atBoundary (s : State) : State := { afterRestart s with port := { s.port with ageNow := s.port.arbAge } }

theorem atBoundary_rest (s : State) : atBoundary s = { s with
    port := { s.port with ageNow := s.port.arbAge }
    net := { s.net with shell := if s.net.shell = .restarting then (if s.net.shellId = 0 then .solo else .formed) else s.net.shell } } := by
  unfold atBoundary afterRestart
  split <;> rfl

/-- STROKE_BOUNDARY where no epoch waits. -/
theorem exec_strokeBoundary {s : State} (hcompose : canCompose s = true) (hepoch : s.net.nextEpoch = none) (b : BoundaryData) :
    exec (.strokeBoundary b) s
      = let s1 := prepareSlots b (atBoundary s)
        let p := placeUnits b (candidates s1) [] s1
        finish s (settleAll (startStroke b p.1 p.2)) := by
  have hafter : (afterRestart s).net.nextEpoch = none := by
    unfold afterRestart
    split <;> exact hepoch
  have hadopt : adoptEpoch (afterRestart s) = afterRestart s := by rw [adoptEpoch, hafter]
  have hport : (afterRestart s).port = s.port := by
    unfold afterRestart
    split <;> rfl
  simp only [exec, execStrokeBoundary, hcompose, if_true, composeStroke, hadopt, hport, atBoundary]

theorem settleAll_of_noHolds {s : State} (h : s.srv.holds = []) : settleAll s = s := by
  simp [settleAll, h, settleHolds]

theorem unitOrder_nil (s : State) : unitOrder s [] = [] := rfl

theorem unitOrder_singleton (s : State) {x : Nat × Request} (h : x.2.prio ≤ 3) : unitOrder s [x] = [x] :=
  List.perm_singleton.1 (unitOrder_ordered s [x] (by simpa using h)).1

/-! ### A boundary with no request -/

theorem prepareSlots_of_noRequests {s : State} (h : s.srv.slots = []) (b : BoundaryData) : prepareSlots b s = s := by
  have hslots : { s with srv := { s.srv with slots := [] } } = s := by rw [← h]
  simp only [prepareSlots, slotsIn, h, List.map_nil, List.filter_nil, List.foldl_nil, unitOrder_nil, servePages, leaveQueues, hslots]

/-- A stroke in which no unit was placed admits none, and leaves all but the governor, the stroke's own fields and the trace. -/
theorem startStroke_nil (b : BoundaryData) (s : State) :
    ∃ gov trace, startStroke b [] s = { s with
        gov := gov, trace := trace, srv := { s.srv with strokeNo := s.srv.strokeNo + 1, strokeSince := some (now s), admitted := [] } }
      ∧ gov.mNow = if s.gov.throttling = true then 8 else s.gov.mCap := by
  have hgovern : governStroke s b [] = (if s.gov.throttling = true then 8 else s.gov.mCap, []) := by
    unfold governStroke
    split <;> simp [addFitting]
  unfold startStroke
  rw [hgovern]
  rw [traceWrite_rest]
  exact ⟨_, _, rfl, rfl⟩

/-- STROKE_BOUNDARY with no request (R301, R440). -/
theorem strokeBoundary_of_noRequests {s : State} (hcompose : canCompose s = true) (hepoch : s.net.nextEpoch = none) (hholds : s.srv.holds = [])
    (hslots : s.srv.slots = []) (b : BoundaryData) :
    ∃ t, exec (.strokeBoundary b) s = .next t ∧ t.srv.strokeSince = some s.clk.ts ∧ t.srv.strokeNo = s.srv.strokeNo + 1 ∧ t.srv.admitted = []
      ∧ t.srv.slots = [] ∧ t.gov.mNow = (if s.gov.throttling = true then 8 else s.gov.mCap)
      ∧ t.net.shell = (if s.net.shell = .restarting then (if s.net.shellId = 0 then .solo else .formed) else s.net.shell)
      ∧ t.mem = s.mem ∧ t.obj = s.obj ∧ t.cores = s.cores := by
  rw [exec_strokeBoundary hcompose hepoch, atBoundary_rest]
  generalize hu : ({ s with port := _, net := _ } : State) = u
  have hslots' : u.srv.slots = [] := by rw [← hu]; exact hslots
  obtain ⟨gov, trace, hstart, hm⟩ := startStroke_nil b u
  have hcandidates : candidates u = [] := by simp only [candidates, slotsIn, hslots', List.filter_nil, unitOrder_nil]
  simp only [prepareSlots_of_noRequests hslots', hcandidates, placeUnits, hstart]
  rw [settleAll_of_noHolds (by rw [← hu]; exact hholds)]
  subst hu
  exact ⟨_, rfl, rfl, rfl, rfl, hslots, hm, rfl, rfl, rfl, rfl⟩

/-! ### A boundary with one installing command -/

section
variable {s : State} {n : Nat} {r : Request} {i : Install} (hslot : slotOf s n = some r) (hwork : r.work = .install i)
include hslot hwork

theorem leaveQueue_install : leaveQueue n s = (true, setSlot s n { r with st := .ready }) := by
  simp only [leaveQueue, hslot, hwork, hasUnit, if_true]

theorem findWait_install (b : BoundaryData) : findWait b n s = s := by
  simp only [findWait, hslot, hwork]

theorem takePages_install : takePages n s = (true, s) := by
  simp only [takePages, hslot, hwork]

/-- A unit of an installing command starts with its request's own fields alone. -/
theorem startUnit_install {e : UnitEst} (he : e.slot = n) :
    startUnit e s = setSlot s n { r with
      st := .running, wait := 0, holdPages := 0, strokes := r.strokes + 1, firstAdmit := some (r.firstAdmit.getD (now s)), endsStage := e.endsStage } := by
  subst he
  have hpipe (t : State) (r' : Request) (ht : slotOf t e.slot = some r') (hr' : r'.work = .install i) : pipeOf t e.slot = none := by
    simp only [pipeOf, ht, hr']
  have hunit (t : State) (r' : Request) (ht : slotOf t e.slot = some r') (hr' : r'.work = .install i) : mapSyncs e.slot (setUpUnit e.slot t) = t := by
    simp only [setUpUnit, ht, hpipe t r' ht hr', mapSyncs, Option.bind_none]
  have hdeadline : deadlineMissed s r = false := by simp only [deadlineMissed, hwork]
  simp only [startUnit, hslot, hdeadline, Bool.false_eq_true, if_false]
  exact hunit _ _ (slookup_sset_self _ _ _) hwork

end

theorem busiestNs_singleton_le {e : UnitEst} {limit : Nat} (h : ∀ d, d < 8 → e.dieNs.getD d 0 ≤ limit) : busiestNs [e] ≤ limit := by
  refine List.foldlRecOn (motive := (· ≤ limit)) _ _ (Nat.zero_le _) fun acc hacc x hx => Nat.max_le.2 ⟨hacc, ?_⟩
  obtain ⟨d, hd, rfl⟩ := List.mem_map.1 hx
  simpa using h d (List.mem_range.1 hd)

/-- One request is in the slots: URGENT, not aborted, not promoted, and its command installs a change. -/
structure LoneInstall (s : State) (n : Nat) (r : Request) (i : Install) : Prop where
  slots : s.srv.slots = [(n, r)]
  work : r.work = .install i
  notAborted : r.aborted = false
  urgent : r.prio = 0
  notPromoted : r.promote = false

namespace LoneInstall

variable {s : State} {n : Nat} {r : Request} {i : Install}

theorem slotOf_eq (lone : LoneInstall s n r i) : slotOf s n = some r := slotOf_of_slots lone.slots

/-- Another state of the request leaves it alone in the slots. -/
theorem setSlot (lone : LoneInstall s n r i) {r' : Request} (hwork : r'.work = r.work) (haborted : r'.aborted = r.aborted) (hprio : r'.prio = r.prio)
    (hpromote : r'.promote = r.promote) : LoneInstall (Machine.setSlot s n r') n r' i where
  slots := by simp [Machine.setSlot, lone.slots, sset]
  work := hwork.trans lone.work
  notAborted := haborted.trans lone.notAborted
  urgent := hprio.trans lone.urgent
  notPromoted := hpromote.trans lone.notPromoted

/-- The slots in a state, in their order. -/
theorem slotsIn_eq (lone : LoneInstall s n r i) (ok : Request → Bool) : slotsIn s ok = if ok r = true then [(n, r)] else [] := by
  rw [slotsIn, lone.slots]
  split
  next hok =>
    simp only [List.filter_cons, hok, lone.notAborted, Bool.not_false, Bool.and_self, if_true, List.filter_nil]
    exact unitOrder_singleton s (by simp [lone.urgent])
  next hok => simp [hok, unitOrder_nil]

/-- A QUEUED installing command is READY once the boundary has prepared the slots. -/
theorem prepareSlots_eq (lone : LoneInstall s n r i) (hqueued : r.st = .queued) (b : BoundaryData) :
    prepareSlots b s = Machine.setSlot s n { r with st := .ready } := by
  have hpromoted : { s with srv := { s.srv with slots := s.srv.slots.map (fun x => (x.1, promoteAged x.2)) } } = s := by
    simp only [lone.slots, List.map_cons, List.map_nil, promoteAged, lone.notPromoted, Bool.false_eq_true, if_false]
    rw [← lone.slots]
  have hagain : s.srv.slots.filter (fun x => x.2.st == .waiting && (x.2.wait == 1 || x.2.wait == 2)) = [] := by simp [lone.slots, hqueued]
  have hfree : convBusy s r = false := by simp [convBusy, convName, lone.work]
  have hready := lone.setSlot (r' := { r with st := .ready }) rfl rfl rfl rfl
  have hleave : leaveQueues [(n, r)] [] s = Machine.setSlot s n { r with st := .ready } := by
    simp only [leaveQueues, hfree, lone.work, Bool.false_and, Bool.or_self, Bool.false_eq_true, if_false, leaveQueue_install lone.slotOf_eq lone.work]
  have hpages : slotsIn s (fun r => r.st == .waiting && r.wait == 3) = [] := by simp [lone.slotsIn_eq, hqueued]
  have hqueue : slotsIn s (fun r => r.st == .queued) = [(n, r)] := by simp [lone.slotsIn_eq, hqueued]
  have hsearch : slotsIn (Machine.setSlot s n { r with st := .ready }) (fun r => r.st == .ready) = [(n, { r with st := .ready })] := by
    simp [hready.slotsIn_eq]
  rw [prepareSlots, hpromoted, hagain, List.foldl_nil, hpages, servePages]
  simp only [hqueue, hleave, hsearch, List.foldl_cons, List.foldl_nil, findWait_install hready.slotOf_eq hready.work]

/-- The unit of a READY installing command whose estimate is within 8 ms is placed. -/
theorem placeUnits_eq (lone : LoneInstall s n r i) (hready : r.st = .ready) {b : BoundaryData} (hshort : busiestNs [{ estOf b n with slot := n }] ≤ 8000000) :
    placeUnits b (candidates s) [] s = ([{ estOf b n with slot := n }], s) := by
  have hcandidates : candidates s = [(n, r)] := by
    rw [candidates, lone.slotsIn_eq]
    simp [hready, mergeBusy, lone.work]
  simp [hcandidates, placeUnits, Nat.not_lt.2 hshort, takePages_install lone.slotOf_eq lone.work]

/-- The governor admits the one URGENT unit. -/
theorem governStroke_admitted (lone : LoneInstall s n r i) (b : BoundaryData) {e : UnitEst} (he : e.slot = n) : (governStroke s b [e]).2 = [e] := by
  have hurgent : isUrgent s e.slot = true := by simp [isUrgent, he, lone.slotOf_eq, lone.urgent]
  unfold governStroke
  split <;> simp [hurgent, addFitting]

/-- A stroke of the one unit starts with its request RUNNING. -/
theorem startStroke_eq (lone : LoneInstall s n r i) (b : BoundaryData) {e : UnitEst} (he : e.slot = n) :
    let t := startStroke b [e] s
    t.srv.admitted = [n] ∧ t.srv.strokeSince = some s.clk.ts ∧ t.srv.holds = s.srv.holds ∧ t.obj = s.obj
      ∧ t.srv.slots = [(n, { r with st := .running, wait := 0, holdPages := 0, strokes := r.strokes + 1
                                    firstAdmit := some (r.firstAdmit.getD s.clk.ts), endsStage := e.endsStage })] := by
  have hadmits := lone.governStroke_admitted b he
  have hout : [n].filter (fun k => !([n] : List Nat).contains k) = [] := by simp
  unfold startStroke
  simp only [hadmits, List.map_cons, List.map_nil, he, hout, List.foldl_cons, List.foldl_nil]
  generalize hu : ({ s with gov := _, srv := _ } : State) = u
  have hslot : slotOf u n = some r := by rw [← hu]; exact lone.slotOf_eq
  rw [startUnit_install hslot lone.work he, traceWrite_rest]
  subst hu
  refine ⟨rfl, rfl, rfl, rfl, ?_⟩
  show sset s.srv.slots n _ = _
  rw [lone.slots]
  simp [sset, now]

end LoneInstall

/-- STROKE_BOUNDARY with one URGENT request that is QUEUED with an installing command: it is admitted and RUNNING (R301, R307). -/
theorem strokeBoundary_of_loneInstall {s : State} {n : Nat} {r : Request} {i : Install} (lone : LoneInstall s n r i) (hqueued : r.st = .queued)
    (hcompose : canCompose s = true) (hepoch : s.net.nextEpoch = none) (hholds : s.srv.holds = []) {b : BoundaryData}
    (hshort : ∀ d, d < 8 → (estOf b n).dieNs.getD d 0 ≤ 8000000) :
    ∃ t, exec (.strokeBoundary b) s = .next t ∧ t.srv.admitted = [n] ∧ t.srv.strokeSince = some s.clk.ts
      ∧ t.srv.slots = [(n, { r with st := .running, wait := 0, holdPages := 0, strokes := r.strokes + 1
                                    firstAdmit := some (r.firstAdmit.getD s.clk.ts), endsStage := (estOf b n).endsStage })]
      ∧ t.obj = s.obj := by
  have hbusiest : busiestNs [{ estOf b n with slot := n }] ≤ 8000000 := busiestNs_singleton_le hshort
  have lone0 : LoneInstall (atBoundary s) n r i := by
    rw [atBoundary_rest]
    exact ⟨lone.slots, lone.work, lone.notAborted, lone.urgent, lone.notPromoted⟩
  have lone1 : LoneInstall (setSlot (atBoundary s) n { r with st := .ready }) n { r with st := .ready } i := lone0.setSlot rfl rfl rfl rfl
  rw [exec_strokeBoundary hcompose hepoch]
  simp only [lone0.prepareSlots_eq hqueued, lone1.placeUnits_eq rfl hbusiest]
  obtain ⟨hadmitted, hsince, hholds', hobj, hslots⟩ := lone1.startStroke_eq b (e := { estOf b n with slot := n }) rfl
  rw [atBoundary_rest] at *
  rw [settleAll_of_noHolds (hholds'.trans hholds)]
  exact ⟨_, rfl, hadmitted, hsince, hslots, hobj⟩

end Sys2Proof.Machine
end

section
/-!
PROOFS. The strokes of a request that is alone (R63, R301, R306; log entries 115, 125): what its boundary starts and what its commit point ends,
for work that no pipeline does.
-/

namespace Sys2Proof.Machine

open Sys2Proof

/-! ### The commit point -/

/-- As LoneCommit, but whatever the commit point makes of the request, one that is aborted or whose end was decided too: it is alone in the stroke and
its completion can be posted, no launch runs, nothing waits for its end, and no merged vector waits to move. -/
structure LoneSlot (s : State) (n : Nat) (r : Request) : Prop where
  clocks : clocksRun s = true
  firmware : fwRunning s = true
  inStroke : s.srv.strokeSince ≠ none
  shell : s.net.shell ≠ .ending
  slots : s.srv.slots = [(n, r)]
  admitted : s.srv.admitted = [n]
  noLaunch : ∀ c ∈ s.cores, c.2.launch = none
  quiet : Claims.nothingWaits s
  canPost : Claims.canPost s ⟨r.fn, r.ring⟩
  notSilent : r.silent = false
  notPipe : ∀ p, r.work ≠ .pipe p
  settled : Claims.vectorsSettled s

/-- The stroke of the lone request runs no record: its commit point is the request's own, and what ends the stroke. -/
theorem LoneSlot.commitStroke_eq {s : State} {n : Nat} {r : Request} (lone : LoneSlot s n r) (measured : List Nat) :
    commitStroke measured s = settle (moveVectors (endStroke measured (commitSlot s n s))) := by
  have hwork := lone.notPipe
  have hslot := slotOf_of_slots lone.slots
  have hrecords : unitRecords s n = [] := by simp only [unitRecords, hslot, Option.bind_some]
  have hfuel : roundFuel s n = 1 := by simp only [roundFuel, hslot, Option.bind_some]
  have hround : runRound n s = s := by simp only [runRound, hrecords, List.foldl_nil, dueCores_of_noLaunch lone.noLaunch]
  have hunit : runUnit n s = s := by simp only [runUnit, hfuel, runRounds, hround, ite_self]
  have hrun : runStroke s = s := by simp only [runStroke, lone.admitted, List.foldl_cons, List.foldl_nil, hunit, ite_self]
  have hdone : unitDone s n = true := by simp only [unitDone, hslot, Option.bind_some]
  have hopen : strokeOpen s = false := by simp [strokeOpen, lone.slots, hdone]
  have hinstances : strokeInstances s = [] := by simp only [strokeInstances, lone.slots, List.flatMap_cons, List.flatMap_nil, List.append_nil]
  have horder : slotsInOrder s = [(n, r)] := by simp [slotsInOrder, lone.slots, sortBy, insertBy]
  have hstated (m : Model) : rerankStated s m = [] := by simp [rerankStated, lone.slots]
  have hrerank (t : State) : rerankMeasured s t = t := by
    refine List.foldlRecOn (motive := (· = t)) _ _ rfl fun u hu m _ => ?_
    simp [hstated, hu]
  simp only [commitStroke, endStroke, lone.shell, if_false, hrun, hopen, Bool.false_eq_true, hinstances, List.foldl_nil, horder, List.foldl_cons, hrerank]

/-- STROKE_COMMIT frees the lone request's slot, ends the stroke and dummy mode, and posts a completion with the status; more holds of the state it leaves. -/
def CommitEnds (s : State) (r : Request) (measured : List Nat) (status : Nat) (more : State → Prop) : Prop :=
  ∃ t, exec (.strokeCommit measured) s = .next t ∧ t.srv.slots = [] ∧ t.srv.strokeSince = none ∧ t.boot.dummy = false
    ∧ Claims.posts s t ⟨r.fn, r.ring⟩ r.tag r.opcode status ∧ more t

/-- The lone request ends at the commit point on a state u, to which its command may have brought s. -/
theorem LoneSlot.commitEnds {s u : State} {n : Nat} {r : Request} (lone : LoneSlot s n r) (measured : List Nat) {status : Nat} {result : List Byte}
    (hcommit : commitSlot s n s = endRequest n status result u) (hslots : u.srv.slots = s.srv.slots) (hrings : u.port.rings = s.port.rings)
    (hhost : u.mem.host = s.mem.host) (hquiet : Claims.nothingWaits u) (hsettled : Claims.vectorsSettled u) {more : State → Prop}
    (hmore : more (Claims.after s (endStroke measured (endRequest n status result u)))) : CommitEnds s r measured status more := by
  have hslot : slotOf u n = some r := slotOf_of_slots (hslots.trans lone.slots)
  have hpost : Claims.canPost u ⟨r.fn, r.ring⟩ := by
    obtain ⟨hirq, hwf⟩ := lone.canPost
    exact ⟨by simpa only [cqOf, ringOf, hrings] using hirq, hhost ▸ hwf⟩
  obtain ⟨hfree, hposts, -, hwaits, hindexes⟩ := endRequest_posts hslot lone.notSilent hpost hquiet status result
  have hready : (clocksRun s && fwRunning s && s.srv.strokeSince.isSome) = true := by
    simp [lone.clocks, lone.firmware, Option.isSome_iff_ne_none, lone.inStroke]
  have hexec : exec (.strokeCommit measured) s = finish s (endStroke measured (endRequest n status result u)) := by
    rw [exec, execStrokeCommit, if_pos hready, lone.commitStroke_eq, hcommit,
      settle_moveVectors_endStroke measured (fun x hx => hsettled x (hindexes x hx)) hwaits]
  refine ⟨_, hexec, ?_, rfl, rfl, posts_congr hrings _ _ _ _ _ ▸ hposts, hmore⟩
  refine hfree.trans ?_
  simp [hslots, lone.slots, serase]

section
variable {s : State} {n : Nat} {r : Request} (lone : LoneSlot s n r) (measured : List Nat)
include lone

theorem LoneSlot.commitSlot_eq :
    commitSlot s n s = if r.aborted then endRequest n 0x80 [] s else if r.st = .ending then endRequest n r.status [] s
      else if r.st = .running then commitUnit s n r s else countHold n r s := by
  simp [commitSlot, slotOf_of_slots lone.slots, lone.quiet.1, settleHolds, lone.notSilent]

/-- An aborted request ends ABORTED. -/
theorem LoneSlot.commitEnds_of_aborted (haborted : r.aborted = true) : CommitEnds s r measured 0x80 (fun _ => True) :=
  lone.commitEnds measured (by rw [lone.commitSlot_eq, if_pos haborted]) rfl rfl rfl lone.quiet lone.settled trivial

/-- A request whose end was decided ends with its status. -/
theorem LoneSlot.commitEnds_of_decided (haborted : r.aborted = false) (hst : r.st = .ending) : CommitEnds s r measured r.status (fun _ => True) :=
  lone.commitEnds measured (result := []) (by simp [lone.commitSlot_eq, haborted, hst]) rfl rfl rfl lone.quiet lone.settled trivial

/-- A RUNNING request commits its unit. -/
theorem LoneSlot.commitSlot_of_running (haborted : r.aborted = false) (hst : r.st = .running) : commitSlot s n s = commitUnit s n r s := by
  simp [lone.commitSlot_eq, haborted, hst]

/-- SERVING takes effect at the commit point (R313). -/
theorem LoneSlot.commitEnds_serving (haborted : r.aborted = false) (hst : r.st = .running) (hends : r.endsStage = true) {us pages : Nat}
    (hwork : r.work = .install (.serving us pages)) :
    CommitEnds s r measured 0 (fun t => t.srv.strokeTargetUs = us ∧ t.srv.pageWait = pages) := by
  let u := applyInstall (.serving us pages) s
  have hcommit : commitSlot s n s = endRequest n 0 [] u := by
    rw [lone.commitSlot_of_running haborted hst]
    simp [commitUnit, slotWaits, hwork, hends, commitInstall, installResult, u]
  have hslot : slotOf u n = some r := slotOf_of_slots lone.slots
  refine lone.commitEnds measured hcommit rfl rfl rfl lone.quiet lone.settled ?_
  rw [endRequest_eq hslot lone.notSilent (by rw [hwork]; rfl), postCompletion_rest]
  exact ⟨rfl, rfl⟩

/-- ARBITRATION takes effect at the commit point (R396). -/
theorem LoneSlot.commitEnds_arbitration (haborted : r.aborted = false) (hst : r.st = .running) (hends : r.endsStage = true) {weight age : Reg}
    (hwork : r.work = .install (.arbitration weight age)) :
    CommitEnds s r measured 0 (fun t => t.port.arbWeight = weight ∧ t.port.arbAge = age) := by
  let u := applyInstall (.arbitration weight age) s
  have hcommit : commitSlot s n s = endRequest n 0 [] u := by
    rw [lone.commitSlot_of_running haborted hst]
    simp [commitUnit, slotWaits, hwork, hends, commitInstall, installResult, u]
  have hslot : slotOf u n = some r := slotOf_of_slots lone.slots
  have hirq : bitOf (ringOf (collect (freeSlot u n)) (cqOf (collect (freeSlot u n)) ⟨r.fn, r.ring⟩)).cfg 19 = false := lone.canPost.1
  refine lone.commitEnds measured hcommit rfl rfl rfl lone.quiet lone.settled ?_
  rw [endRequest_eq hslot lone.notSilent (by rw [hwork]; rfl), postCompletion_of_irqOff hirq, traceCommand_rest]
  exact ⟨rfl, rfl⟩

end

end Sys2Proof.Machine
end

section
/-!
PROOFS. Row writes (R355, R356, R374): what a byte of a region reads as once bytes have been published, and that a table's region keeps its bytes
when what nothing names any more is given up.
-/

namespace Sys2Proof.Machine

open Sys2Proof

/-! ### The unit that the write buffer holds -/

/-- The unit that a write buffer holds of unit j of region n. -/
def heldUnit (wb : List WbUnit) (n j : Nat) : Option WbUnit := wb.find? (fun u => u.region == n && u.unit == j)

/-- Two units stand for the same bytes. -/
def sameUnit (u x : WbUnit) : Bool := x.region == u.region && x.unit == u.unit

/-- A unit of the buffer once bytes of the same unit have been published. -/
def mergedUnit (u x : WbUnit) : WbUnit :=
  { x with
    bytes := overlay x.bytes u.bytes
    poison := x.poison.filter (fun w => !(List.range 8).all (fun i => u.bytes.any (fun b => b.1 == 8 * w + i))) ++ u.poison }

theorem publishUnit_wb (u : WbUnit) (s : State) :
    (publishUnit u s).mem.wb
      = if s.mem.wb.any (sameUnit u) then s.mem.wb.map (fun x => if sameUnit u x then mergedUnit u x else x) else s.mem.wb ++ [u] := rfl

/-- Publishing a unit merges it into the one that is there, or adds it, and leaves the others. -/
theorem heldUnit_publishUnit (u : WbUnit) (s : State) (n j : Nat) :
    heldUnit (publishUnit u s).mem.wb n j
      = if u.region = n ∧ u.unit = j then some ((heldUnit s.mem.wb n j).elim u (mergedUnit u)) else heldUnit s.mem.wb n j := by
  have hmerge (x : WbUnit) : (if sameUnit u x then mergedUnit u x else x).region = x.region ∧ (if sameUnit u x then mergedUnit u x else x).unit = x.unit := by
    split <;> exact ⟨rfl, rfl⟩
  have hmap : (s.mem.wb.map (fun x => if sameUnit u x then mergedUnit u x else x)).find? (fun x => x.region == n && x.unit == j)
      = (heldUnit s.mem.wb n j).map (fun x => if sameUnit u x then mergedUnit u x else x) := by
    simp only [List.find?_map, heldUnit, Function.comp_def, hmerge]
  have hheld {x : WbUnit} (hx : heldUnit s.mem.wb n j = some x) : sameUnit u x = true ↔ u.region = n ∧ u.unit = j := by
    have hfound := List.find?_some hx
    simp only [Bool.and_eq_true, beq_iff_eq] at hfound
    simp only [sameUnit, hfound, Bool.and_eq_true, beq_iff_eq]
    exact and_congr eq_comm eq_comm
  have hnone (hx : heldUnit s.mem.wb n j = none) (hu : u.region = n ∧ u.unit = j) : s.mem.wb.any (sameUnit u) = false := by
    obtain ⟨rfl, rfl⟩ := hu
    exact List.any_eq_false.2 (List.find?_eq_none.1 hx)
  rw [publishUnit_wb]
  split
  next hany =>
    rw [heldUnit, hmap]
    cases hx : heldUnit s.mem.wb n j with
    | none =>
      have hu : ¬(u.region = n ∧ u.unit = j) := fun hu => by simp [hnone hx hu] at hany
      rw [if_neg hu]
      rfl
    | some x =>
      simp only [Option.map_some, hheld hx, Option.elim_some]
      split <;> rfl
  next hany =>
    rw [heldUnit, List.find?_append]
    change (heldUnit s.mem.wb n j).or _ = _
    cases hx : heldUnit s.mem.wb n j with
    | none =>
      by_cases hu : u.region = n ∧ u.unit = j
      · simp [hu]
      · simp [hu]
    | some x =>
      have hu : ¬(u.region = n ∧ u.unit = j) := fun hu =>
        hany (List.any_eq_true.2 ⟨x, List.mem_of_find?_eq_some hx, (hheld hx).2 hu⟩)
      rw [if_neg hu, Option.some_or]

/-! ### The byte that the write buffer holds -/

/-- Of two bytes at an offset the new one wins. -/
theorem find_overlay (old new : List (Nat × Byte)) (k : Nat) :
    (overlay old new).find? (fun b => b.1 == k) = (new.find? (fun b => b.1 == k)).or (old.find? (fun b => b.1 == k)) := by
  rw [overlay, List.find?_append]
  cases hnew : new.find? (fun b => b.1 == k) with
  | none =>
    have hkeep (x : Nat × Byte) (hx : x.1 = k) : new.any (fun y => y.1 == x.1) = false :=
      List.any_eq_false.2 (hx ▸ List.find?_eq_none.1 hnew)
    rw [Option.or_none, Option.none_or, List.find?_filter]
    refine congrArg (List.find? · old) (funext fun x => ?_)
    by_cases hx : x.1 = k
    · rw [hkeep x hx, hx]
      simp
    · simp [hx]
  | some b =>
    have hold : (old.filter (fun x => !new.any (fun y => y.1 == x.1))).find? (fun b => b.1 == k) = none := by
      refine List.find?_eq_none.2 fun x hx hk => ?_
      have hfresh := (List.mem_filter.1 hx).2
      rw [beq_iff_eq.1 hk, Bool.not_eq_true', List.any_eq_false] at hfresh
      exact hfresh b (List.mem_of_find?_eq_some hnew) (List.find?_some (p := fun b : Nat × Byte => b.1 == k) hnew)
    rw [hold, Option.none_or, Option.some_or]

/-- The byte that a write buffer holds for offset a of region n. -/
def bufferedByte (wb : List WbUnit) (n a : Nat) : Option (Nat × Byte) :=
  (heldUnit wb n (a / 4096)).bind (fun u => u.bytes.find? (fun b => b.1 == a % 4096))

/-- The byte of the near copy at offset a of region n. -/
def nearByte (s : State) (n a : Nat) : Byte :=
  readByte (sgetD (regionOf s n).near (a / (regionOf s n).tileBytes) {}).data (a % (regionOf s n).tileBytes)

theorem regionByte_eq (s : State) (n a : Nat) : regionByte s n a = (bufferedByte s.mem.wb n a).elim (nearByte s n a) Prod.snd := by
  unfold regionByte bufferedByte heldUnit
  dsimp only
  split
  next h => rw [h]; rfl
  next h => rw [h]; rfl

theorem regionByte_congr {s t : State} (hregions : t.mem.regions = s.mem.regions) (hwb : t.mem.wb = s.mem.wb) (n a : Nat) :
    regionByte t n a = regionByte s n a := by
  simp only [regionByte_eq, nearByte, regionOf, hregions, hwb]

/-- Once a unit has been published the buffer holds its byte, and where it has none what it held. -/
theorem bufferedByte_publishUnit (u : WbUnit) (s : State) (n a : Nat) :
    bufferedByte (publishUnit u s).mem.wb n a
      = if u.region = n ∧ u.unit = a / 4096 then (u.bytes.find? (fun b => b.1 == a % 4096)).or (bufferedByte s.mem.wb n a)
        else bufferedByte s.mem.wb n a := by
  rw [bufferedByte, heldUnit_publishUnit]
  split
  next hu =>
    rw [bufferedByte]
    cases heldUnit s.mem.wb n (a / 4096) with
    | none => simp
    | some x => exact find_overlay x.bytes u.bytes _
  next hu => rfl

/-! ### Publishing bytes -/

/-- Bytes that stand from offset o of their unit. -/
def unitBytes (o : Nat) (bs : List Byte) : List (Nat × Byte) := bs.zipIdx.map (fun x => (o + x.2, x.1))

theorem find_unitBytes (o : Nat) (bs : List Byte) (k : Nat) :
    (unitBytes o bs).find? (fun b => b.1 == k) = if o ≤ k ∧ k < o + bs.length then some (k, bs.getD (k - o) 0) else none := by
  suffices h : ∀ i, ((bs.zipIdx i).map (fun x => (o + x.2, x.1))).find? (fun b => b.1 == k)
      = if o + i ≤ k ∧ k < o + i + bs.length then some (k, bs.getD (k - (o + i)) 0) else none from h 0
  intro i
  induction bs generalizing i with
  | nil => simp
  | cons b bs ih =>
    rw [List.zipIdx_cons, List.map_cons]
    by_cases hk : o + i = k
    · subst hk
      simp
    · rw [List.find?_cons_of_neg (by simpa using hk), ih]
      have hrange : (o + (i + 1) ≤ k ∧ k < o + (i + 1) + bs.length) ↔ (o + i ≤ k ∧ k < o + i + (b :: bs).length) := by
        rw [List.length_cons]
        omega
      simp only [hrange]
      split
      next h =>
        have hnext : k - (o + i) = k - (o + (i + 1)) + 1 := by omega
        rw [hnext, List.getD_cons_succ]
      next => rfl

/-- Publishing the bytes of one span, from position at_ of a block. -/
def publishSpan (n : Nat) (bs : List Byte) (acc : State × Nat) (p : Nat × Nat × Nat) : State × Nat :=
  (publishUnit ⟨n, p.1, unitBytes p.2.1 ((bs.drop acc.2).take p.2.2), []⟩ acc.1, acc.2 + p.2.2)

theorem publishBytes_eq (n o : Nat) (bs : List Byte) (s : State) :
    publishBytes n o bs s = ((tileSpans 4096 (bs.length + 1) o bs.length).foldl (publishSpan n bs) (s, 0)).1 := rfl

/-- One span reads back within it, and elsewhere the region reads as before. -/
theorem regionByte_publishSpan (n o k : Nat) (bs : List Byte) (s : State) (i : Nat) (hk : k ≤ 4096 - o % 4096) (hi : i + k ≤ bs.length) (a : Nat) :
    regionByte (publishSpan n bs (s, i) (o / 4096, o % 4096, k)).1 n a
      = if o ≤ a ∧ a < o + k then bs.getD (i + (a - o)) 0 else regionByte s n a := by
  have hlength : ((bs.drop i).take k).length = k := by simp; omega
  rw [publishSpan, regionByte_eq, bufferedByte_publishUnit, find_unitBytes, hlength]
  by_cases ha : o ≤ a ∧ a < o + k
  · have hunit : o / 4096 = a / 4096 := by omega
    have hoff : o % 4096 ≤ a % 4096 ∧ a % 4096 < o % 4096 + k := by omega
    have hat : a % 4096 - o % 4096 = a - o := by omega
    rw [if_pos ⟨rfl, hunit⟩, if_pos hoff, if_pos ha, hat]
    simp only [Option.some_or, Option.elim_some, List.getD_eq_getElem?_getD]
    rw [List.getElem?_take_of_lt (by omega), List.getElem?_drop]
  · rw [if_neg ha, regionByte_eq]
    by_cases hunit : o / 4096 = a / 4096
    · have hoff : ¬(o % 4096 ≤ a % 4096 ∧ a % 4096 < o % 4096 + k) := by omega
      rw [if_pos ⟨rfl, hunit⟩, if_neg hoff, Option.none_or]
      rfl
    · rw [if_neg (fun h => hunit h.2)]
      rfl

/-- Bytes published read back, and every other byte of the region reads as before (R355, R356). -/
theorem regionByte_publishBytes (n o : Nat) (bs : List Byte) (s : State) (a : Nat) :
    regionByte (publishBytes n o bs s) n a = if o ≤ a ∧ a < o + bs.length then bs.getD (a - o) 0 else regionByte s n a := by
  suffices h : ∀ f o m i (t : State), m < f → i + m ≤ bs.length →
      regionByte ((tileSpans 4096 f o m).foldl (publishSpan n bs) (t, i)).1 n a
        = if o ≤ a ∧ a < o + m then bs.getD (i + (a - o)) 0 else regionByte t n a by
    have hall := h (bs.length + 1) o bs.length 0 s (Nat.lt_succ_self _) (by omega)
    rwa [← publishBytes_eq, Nat.zero_add] at hall
  intro f
  induction f with
  | zero => exact fun _ _ _ _ h => absurd h (Nat.not_lt_zero _)
  | succ f ih =>
    intro o m i t hm hi
    rw [tileSpans]
    split
    next h0 => simp [h0]
    next h0 =>
      have hk : min m (4096 - o % 4096) ≤ m := Nat.min_le_left _ _
      have hpos : 0 < min m (4096 - o % 4096) := by omega
      have hspan := regionByte_publishSpan n o (min m (4096 - o % 4096)) bs t i (Nat.min_le_right _ _) (by omega) a
      generalize min m (4096 - o % 4096) = k at *
      rw [List.foldl_cons]
      change regionByte ((tileSpans 4096 f (o + k) (m - k)).foldl (publishSpan n bs) ((publishSpan n bs (t, i) (o / 4096, o % 4096, k)).1, i + k)).1 n a = _
      rw [ih (o + k) (m - k) (i + k) _ (by omega) (by omega), hspan]
      by_cases hin : o ≤ a ∧ a < o + m
      · by_cases hfirst : a < o + k
        · rw [if_neg (by omega), if_pos ⟨hin.1, hfirst⟩, if_pos hin]
        · have hat : i + k + (a - (o + k)) = i + (a - o) := by omega
          rw [if_pos (by omega), if_pos hin, hat]
      · rw [if_neg (by omega), if_neg (by omega), if_neg hin]

/-! ### Rows of a table -/

/-- Rows at different places of a table do not meet. -/
theorem rowAt_disjoint {t : Table} {x y : Nat} (h : x / t.shardCount ≠ y / t.shardCount) :
    rowAt t x + t.rowBytes ≤ rowAt t y ∨ rowAt t y + t.rowBytes ≤ rowAt t x := by
  simp only [rowAt, ← Nat.succ_mul]
  rcases Nat.lt_or_gt_of_ne h with h | h
  · exact .inl (Nat.mul_le_mul_right _ h)
  · exact .inr (Nat.mul_le_mul_right _ h)

/-- A row of a TABLE_ROW_WRITE goes to the write buffer (R374). -/
def publishRow (t : Table) (s : State) (y : Nat × List Byte) : State := publishBytes t.region (rowAt t y.1) y.2 s

/-- The rows go in turn. -/
def publishRows (t : Table) (rows : List (Nat × List Byte)) (s : State) : State := rows.foldl (publishRow t) s

theorem publishRows_publishedOnly (t : Table) (rows : List (Nat × List Byte)) (s : State) : PublishedOnly s (publishRows t rows s) :=
  PublishedOnly.foldl (fun _ _ => publishBytes_publishedOnly _ _ _ _) rows s

theorem publishRows_cons (t : Table) (x : Nat × List Byte) (xs : List (Nat × List Byte)) (s : State) :
    publishRows t (x :: xs) s = publishRows t xs (publishRow t s x) := rfl

/-- A byte that no row covers reads as before. -/
theorem regionByte_publishRows_other {t : Table} {rows : List (Nat × List Byte)} (hlength : ∀ y ∈ rows, y.2.length = t.rowBytes) {a : Nat}
    (ha : ∀ y ∈ rows, a < rowAt t y.1 ∨ rowAt t y.1 + t.rowBytes ≤ a) (s : State) :
    regionByte (publishRows t rows s) t.region a = regionByte s t.region a := by
  refine List.foldlRecOn (motive := fun u => regionByte u t.region a = regionByte s t.region a) rows _ rfl fun u hu y hy => ?_
  have hout : ¬(rowAt t y.1 ≤ a ∧ a < rowAt t y.1 + y.2.length) := by
    have := ha y hy
    rw [hlength y hy]
    omega
  rw [publishRow, regionByte_publishBytes, if_neg hout, hu]

/-- Rows of different places read as they were given. -/
theorem regionByte_publishRows {t : Table} {rows : List (Nat × List Byte)} (hplaces : (rows.map (fun y => y.1 / t.shardCount)).Nodup)
    (hlength : ∀ y ∈ rows, y.2.length = t.rowBytes) (s : State) :
    ∀ y ∈ rows, ∀ i, i < t.rowBytes → regionByte (publishRows t rows s) t.region (rowAt t y.1 + i) = y.2.getD i 0 := by
  induction rows generalizing s with
  | nil => exact fun y hy => absurd hy List.not_mem_nil
  | cons x xs ih =>
    obtain ⟨hx, hxs⟩ := List.forall_mem_cons.1 hlength
    obtain ⟨hfresh, hplaces⟩ := List.nodup_cons.1 hplaces
    intro y hy i hi
    rw [publishRows_cons]
    obtain rfl | hy := List.mem_cons.1 hy
    · have hother : ∀ z ∈ xs, rowAt t y.1 + i < rowAt t z.1 ∨ rowAt t z.1 + t.rowBytes ≤ rowAt t y.1 + i := fun z hz => by
        have hplace : y.1 / t.shardCount ≠ z.1 / t.shardCount := fun h => hfresh (List.mem_map.2 ⟨z, hz, h.symm⟩)
        rcases rowAt_disjoint hplace with h | h <;> omega
      have hself : rowAt t y.1 ≤ rowAt t y.1 + i ∧ rowAt t y.1 + i < rowAt t y.1 + y.2.length := by omega
      rw [regionByte_publishRows_other hxs hother, publishRow, regionByte_publishBytes, if_pos hself, Nat.add_sub_cancel_left]
    · exact ih hplaces hxs _ y hy i hi

/-! ### The regions that stay -/

/-- A region stays: it is software's or the device's own, or an object holds it. -/
def regionStays (s : State) (k : Nat) : Bool := (decide (64 ≤ k) && decide (k < 256)) || decide (k < 4) || (heldRegions s).contains k

theorem dropRegions_mem (s : State) :
    (dropRegions s).mem.regions = s.mem.regions.filter (fun x => regionStays s x.1)
      ∧ (dropRegions s).mem.wb = s.mem.wb.filter (fun u => regionStays s u.region) := ⟨rfl, rfl⟩

/-- A region that an object holds reads as before once the regions that none holds are gone, where the keys of regions rise. -/
theorem regionByte_dropRegions {s : State} (hrising : risingKeys s.mem.regions = true) {n : Nat} (hheld : n ∈ heldRegions s) (a : Nat) :
    regionByte (dropRegions s) n a = regionByte s n a := by
  obtain ⟨hregions, hwb⟩ := dropRegions_mem s
  have hstays : regionStays s n = true := by simp [regionStays, hheld]
  have hregion : regionOf (dropRegions s) n = regionOf s n := by
    rw [regionOf, sgetD, hregions, slookup_filter _ _ _ hrising, if_pos hstays]
    rfl
  have hunit (j : Nat) : heldUnit (dropRegions s).mem.wb n j = heldUnit s.mem.wb n j := by
    rw [heldUnit, hwb, List.find?_filter, heldUnit]
    refine congrArg (List.find? · s.mem.wb) (funext fun u => ?_)
    by_cases hu : u.region = n
    · simp [hu, hstays, beq_eq_decide]
    · simp [hu]
  simp only [regionByte_eq, bufferedByte, nearByte, hregion, hunit]

theorem tableOf_mem {s : State} {o : Nat} (held : ∃ x ∈ s.obj.tables, x.oid = o) : tableOf s o ∈ s.obj.tables ∧ (tableOf s o).oid = o := by
  have hsome : (s.obj.tables.find? (fun x => x.oid == o)).isSome := by simpa using held
  obtain ⟨x, hx⟩ := Option.isSome_iff_exists.1 hsome
  have htable : tableOf s o = x := by rw [tableOf, hx, Option.getD_some]
  exact htable ▸ ⟨List.mem_of_find?_eq_some hx, by simpa using List.find?_some hx⟩

/-- A table that stays keeps the bytes of its region. -/
theorem regionByte_collect {s : State} (hrising : risingKeys s.mem.regions = true) {o : Nat} (held : ∃ x ∈ (collect s).obj.tables, x.oid = o) (a : Nat) :
    regionByte (collect s) (tableOf s o).region a = regionByte s (tableOf s o).region a := by
  obtain ⟨x, hx, hxo⟩ := held
  obtain ⟨hxs, hlive⟩ := List.mem_filter.1 hx
  obtain ⟨htable, hoid⟩ := tableOf_mem ⟨x, hxs, hxo⟩
  have hstays : tableOf s o ∈ (collect s).obj.tables := List.mem_filter.2 ⟨htable, by rw [hoid, ← hxo]; exact hlive⟩
  have hheld : (tableOf s o).region ∈ heldRegions { s with obj := (collect s).obj } := by
    simp only [heldRegions, List.mem_append]
    exact .inl (.inr (List.mem_map_of_mem hstays))
  have hdrop := regionByte_dropRegions (s := { s with obj := (collect s).obj }) hrising hheld a
  exact hdrop.trans (regionByte_congr rfl rfl _ a)

end Sys2Proof.Machine
end

section
/-!
PROOFS. The commit point of a lone TABLE_ROW_WRITE (R63, R374): its rows are published, and the end of the request keeps them.
-/

namespace Sys2Proof.Machine

open Sys2Proof

/-- What a request's end posts and gives up leaves the regions and the write buffer of the package that has given it up. -/
theorem endRequest_mem {s : State} {n : Nat} {r : Request} (hslot : slotOf s n = some r) (hsilent : r.silent = false)
    (hleaves : r.work.leavesSlotAlone = true) (hirq : bitOf (ringOf s (cqOf s ⟨r.fn, r.ring⟩)).cfg 19 = false) (status : Nat) (result : List Byte) :
    let t := endRequest n status result s
    let u := collect (freeSlot s n)
    t.mem.regions = u.mem.regions ∧ t.mem.wb = u.mem.wb ∧ t.obj = u.obj := by
  have hirq' : bitOf (ringOf (collect (freeSlot s n)) (cqOf (collect (freeSlot s n)) ⟨r.fn, r.ring⟩)).cfg 19 = false := hirq
  rw [endRequest_eq hslot hsilent hleaves, postCompletion_of_irqOff hirq', traceCommand_rest]
  exact ⟨rfl, rfl, rfl⟩

/-- A table that the end of a request keeps has the bytes of its region as they were. -/
theorem regionByte_endRequest {s : State} {n : Nat} {r : Request} (hslot : slotOf s n = some r) (hsilent : r.silent = false)
    (hleaves : r.work.leavesSlotAlone = true) (hirq : bitOf (ringOf s (cqOf s ⟨r.fn, r.ring⟩)).cfg 19 = false) (status : Nat) (result : List Byte)
    (hrising : risingKeys s.mem.regions = true) {o : Nat} (held : ∃ x ∈ (endRequest n status result s).obj.tables, x.oid = o) (a : Nat) :
    regionByte (endRequest n status result s) (tableOf s o).region a = regionByte s (tableOf s o).region a := by
  obtain ⟨hregions, hwb, hobj⟩ := endRequest_mem hslot hsilent hleaves hirq status result
  rw [hobj] at held
  have hcollect := regionByte_collect (s := freeSlot s n) hrising held a
  exact (regionByte_congr hregions hwb _ a).trans (hcollect.trans (regionByte_congr rfl rfl _ a))

/-- A TABLE_ROW_WRITE publishes its rows at the commit point: each reads as it was given, and no other byte of the table's region changes. -/
theorem LoneSlot.commitEnds_rowWrite {s : State} {n : Nat} {r : Request} (lone : LoneSlot s n r) (measured : List Nat) (haborted : r.aborted = false)
    (hst : r.st = .running) (hends : r.endsStage = true) (hrising : risingKeys s.mem.regions = true) {o : Nat} {rows : List (Nat × List Byte)}
    (hwork : r.work = .rowWrite o rows) (hplaces : (rows.map (fun y => y.1 / (tableOf s o).shardCount)).Nodup)
    (hlength : ∀ y ∈ rows, y.2.length = (tableOf s o).rowBytes) :
    let tab := tableOf s o
    CommitEnds s r measured 0 (fun t => (∃ x ∈ t.obj.tables, x.oid = o) →
      (∀ y ∈ rows, ∀ i, i < tab.rowBytes → regionByte t tab.region (rowAt tab y.1 + i) = y.2.getD i 0)
      ∧ ∀ a, (∀ y ∈ rows, a < rowAt tab y.1 ∨ rowAt tab y.1 + tab.rowBytes ≤ a) → regionByte t tab.region a = regionByte s tab.region a) := by
  intro tab
  obtain ⟨wb, hwb⟩ := publishRows_publishedOnly tab rows s
  have hcommit : commitSlot s n s = endRequest n 0 [] (publishRows tab rows s) := by
    rw [lone.commitSlot_of_running haborted hst]
    simp only [commitUnit, slotWaits, hwork, hends, if_true, List.any_nil, Bool.false_eq_true, if_false]
    rfl
  have hrows := regionByte_publishRows hplaces hlength s
  have hothers := fun a ha => regionByte_publishRows_other (t := tab) hlength (a := a) ha s
  rw [hwb] at hcommit hrows hothers
  have hslot : slotOf (s.withObjects s.obj wb) n = some r := slotOf_of_slots lone.slots
  refine lone.commitEnds measured hcommit rfl rfl rfl lone.quiet lone.settled fun held => ?_
  have hbytes := regionByte_endRequest hslot lone.notSilent (by rw [hwork]; rfl) lone.canPost.1 0 [] hrising held
  refine ⟨fun y hy i hi => ?_, fun a ha => ?_⟩
  · exact (hbytes _).trans (hrows y hy i hi)
  · exact (hbytes a).trans (hothers a ha)

end Sys2Proof.Machine
end

section
/-!
PROOFS. The statement on strokes (O47). It quantifies over every state, so over those whose map of regions is out of order too. A request's end drops
the regions that no object holds any more, and where such a region hides another behind it, bytes of a table's region that no row was written to read
differently after the commit. It holds wherever the keys of regions rise, as every operation on sparse maps keeps them (strokesRun_of_risingKeys).
-/

namespace Sys2Proof.Proofs

open Sys2Proof Sys2Proof.Machine

/-- STROKE_BOUNDARY and STROKE_COMMIT (R63, R301, R306, R374, R440), as the statement has them, for every state in which the keys of regions rise. -/
theorem strokesRun_of_risingKeys :
    (∀ (s : State) (b : BoundaryData), canCompose s = true → s.net.nextEpoch = none → s.srv.holds = [] →
      (s.srv.slots = [] → ∃ t, exec (.strokeBoundary b) s = .next t ∧ t.srv.strokeSince = some s.clk.ts ∧ t.srv.strokeNo = s.srv.strokeNo + 1 ∧ t.srv.admitted = []
        ∧ t.srv.slots = [] ∧ t.gov.mNow = (if s.gov.throttling = true then 8 else s.gov.mCap)
        ∧ t.net.shell = (if s.net.shell = .restarting then (if s.net.shellId = 0 then .solo else .formed) else s.net.shell)
        ∧ t.mem = s.mem ∧ t.obj = s.obj ∧ t.cores = s.cores)
      ∧ (∀ n r i, s.srv.slots = [(n, r)] → r.st = .queued → r.work = .install i → r.aborted = false → r.prio = 0 → r.promote = false → convName r = 0 →
          (∀ d, d < 8 → (estOf b n).dieNs.getD d 0 ≤ 8000000) →
        ∃ t, exec (.strokeBoundary b) s = .next t ∧ t.srv.admitted = [n] ∧ t.srv.strokeSince = some s.clk.ts
          ∧ t.srv.slots = [(n, { r with st := .running, wait := 0, holdPages := 0, strokes := r.strokes + 1, firstAdmit := some (r.firstAdmit.getD s.clk.ts)
                                        endsStage := (estOf b n).endsStage })]
          ∧ t.obj = s.obj))
    ∧ (∀ (s : State) (n : Nat) (r : Request) (measured : List Nat), risingKeys s.mem.regions = true → clocksRun s = true → fwRunning s = true →
        s.srv.strokeSince ≠ none → s.net.shell ≠ .ending →
        s.srv.slots = [(n, r)] → s.srv.admitted = [n] → (∀ c ∈ s.cores, c.2.launch = none) → Claims.nothingWaits s → Claims.canPost s ⟨r.fn, r.ring⟩ →
        r.silent = false → (∀ p, r.work ≠ .pipe p) → Claims.vectorsSettled s →
        let ends := fun (status : Nat) (more : State → Prop) => ∃ t, exec (.strokeCommit measured) s = .next t ∧ t.srv.slots = [] ∧ t.srv.strokeSince = none
          ∧ t.boot.dummy = false ∧ Claims.posts s t ⟨r.fn, r.ring⟩ r.tag r.opcode status ∧ more t
        (r.aborted = true → ends 0x80 (fun _ => True))
        ∧ (r.aborted = false → r.st = .ending → ends r.status (fun _ => True))
        ∧ (r.aborted = false → r.st = .running → r.endsStage = true →
            (∀ us pages, r.work = .install (.serving us pages) → ends 0 (fun t => t.srv.strokeTargetUs = us ∧ t.srv.pageWait = pages))
            ∧ (∀ w a, r.work = .install (.arbitration w a) → ends 0 (fun t => t.port.arbWeight = w ∧ t.port.arbAge = a))
            ∧ (∀ o rows, r.work = .rowWrite o rows → let tab := tableOf s o
                (rows.map (fun y => y.1 / tab.shardCount)).Nodup → (∀ y ∈ rows, y.2.length = tab.rowBytes) → ends 0 (fun t => (∃ x ∈ t.obj.tables, x.oid = o) →
                  (∀ y ∈ rows, ∀ i, i < tab.rowBytes → regionByte t tab.region (rowAt tab y.1 + i) = y.2.getD i 0)
                  ∧ ∀ a, (∀ y ∈ rows, a < rowAt tab y.1 ∨ rowAt tab y.1 + tab.rowBytes ≤ a) → regionByte t tab.region a = regionByte s tab.region a)))) := by
  refine ⟨fun s b hcompose hepoch hholds => ⟨fun hslots => strokeBoundary_of_noRequests hcompose hepoch hholds hslots b,
    fun n r i hslots hqueued hwork haborted hprio hpromote _ hshort => ?_⟩, fun s n r measured hrising hclocks hfirmware hstroke hshell hslots hadmitted hcores
      hquiet hpost hsilent hpipe hvec => ?_⟩
  · exact strokeBoundary_of_loneInstall ⟨hslots, hwork, haborted, hprio, hpromote⟩ hqueued hcompose hepoch hholds hshort
  · have lone : LoneSlot s n r := ⟨hclocks, hfirmware, hstroke, hshell, hslots, hadmitted, hcores, hquiet, hpost, hsilent, hpipe, hvec⟩
    refine ⟨lone.commitEnds_of_aborted measured, lone.commitEnds_of_decided measured, fun haborted hst hends => ⟨fun us pages hwork => ?_,
      fun w a hwork => ?_, fun o rows hwork hplaces hlength => ?_⟩⟩
    · exact lone.commitEnds_serving measured haborted hst hends hwork
    · exact lone.commitEnds_arbitration measured haborted hst hends hwork
    · exact lone.commitEnds_rowWrite measured haborted hst hends hrising hwork hplaces hlength

/-- A TABLE_ROW_WRITE of no rows, whose unit ends at this commit point. -/
def emptyRowWrite : Request :=
  { fn := 0, ring := 1, tag := 7, opcode := 0x32, prio := 0, entry := 0, fetchSeq := 0, tFetch := 0, st := .running, work := .rowWrite 1 [] }

/-- The request alone in a stroke of a running package. Its table's region 4, whose first byte is 1, is listed behind region 300, which no object
holds: region 4 reads as one that was never set up. -/
def unorderedRegions : State :=
  { State.reset with
    pins := { State.reset.pins with pwrok := true }
    boot := { State.reset.boot with stage := 15 }
    srv := { State.reset.srv with slots := [(0, emptyRowWrite)], strokeSince := some 0, admitted := [0] }
    obj := { State.reset.obj with tables := [{ oid := 1, region := 4 }], tableSlot := [(0, 1)] }
    mem := { State.reset.mem with regions := [(300, {}), (4, { near := [(0, { data := [(0, 1)] })] })] } }

/-- Once region 300 is dropped, the entry that it hid answers for the table's region. -/
theorem unorderedRegions_commit : ∃ t, exec (.strokeCommit []) unorderedRegions = .next t ∧ (∃ x ∈ t.obj.tables, x.oid = 1)
    ∧ regionByte t 4 0 ≠ regionByte unorderedRegions 4 0 := by
  have hexec : exec (.strokeCommit []) unorderedRegions = finish unorderedRegions (commitStroke [] unorderedRegions) := by
    rw [exec, execStrokeCommit, if_pos (by decide)]
  refine ⟨_, hexec, ?_⟩
  decide +kernel

/-- Refutes O47: a commit of no rows changes a byte of the table's region where the map of regions is out of order. -/
theorem not_strokesRun : ¬Obligations.StrokesRun := by
  rintro ⟨-, hcommit⟩
  have hpost : Claims.canPost unorderedRegions ⟨0, 1⟩ := ⟨by decide +kernel, rfl⟩
  obtain ⟨-, -, hruns⟩ := hcommit unorderedRegions 0 emptyRowWrite [] rfl rfl (by decide) (by decide) rfl rfl (List.forall_mem_nil _) ⟨rfl, rfl⟩
    hpost rfl (by simp [emptyRowWrite]) (List.forall_mem_nil _)
  obtain ⟨-, -, hrows⟩ := hruns rfl rfl rfl
  obtain ⟨t, ht, -, -, -, -, hbytes⟩ := hrows 1 [] rfl List.nodup_nil nofun
  obtain ⟨u, hu, htable, hne⟩ := unorderedRegions_commit
  cases ht.symm.trans hu
  exact hne ((hbytes htable).2 0 nofun)

end Sys2Proof.Proofs
end

section
/-!
PROOFS. Tiles (R335 to R340, R356, R357): what reading a tile in, writing one back and draining a unit leave as it was, and that a region whose dirty
tiles are all written back has no dirty tile.
-/

namespace Sys2Proof.Machine

open Sys2Proof

/-! ### Answers, and regions and ports by number -/

/-- The effect t on s keeps what an answer restores: the queue, the part and the backup domain. -/
def Kept (s t : State) : Prop := t.pending = s.pending ∧ t.part = s.part ∧ t.cal = s.cal

theorem finish_of_kept {s t : State} (h : Kept s t) : finish s t = .next t := by
  obtain ⟨hpending, hpart, hcal⟩ := h
  rw [finish, ← hpending, ← hpart, ← hcal]

@[simp] theorem regionOf_setRegion_self (s : State) (n : Nat) (r : Region) : regionOf (setRegion s n r) n = r := by simp [regionOf]

theorem regionOf_setRegion_other (s : State) (r : Region) {n m : Nat} (h : m ≠ n) : regionOf (setRegion s n r) m = regionOf s m :=
  sgetD_sset_other _ _ _ _ _ h

@[simp] theorem farPortOf_setFarPort_self (s : State) (p : Nat) (x : FarPort) : farPortOf (setFarPort s p x) p = x := by simp [farPortOf]

/-! ### What moving tiles leaves -/

/-- t is s but for the content of its regions, of far memory and of host memory. -/
def ContentOnly (s t : State) : Prop :=
  t = { s with mem := { s.mem with
    regions := t.mem.regions, far := t.mem.far, farPoison := t.mem.farPoison, useClock := t.mem.useClock, host := t.mem.host, hostBad := t.mem.hostBad } }

theorem ContentOnly.refl (s : State) : ContentOnly s s := rfl

theorem setRegion_content (s : State) (n : Nat) (r : Region) : ContentOnly s (setRegion s n r) := rfl

theorem ContentOnly.kept {s t : State} (h : ContentOnly s t) : Kept s t := by
  rw [h]
  exact ⟨rfl, rfl, rfl⟩

theorem ContentOnly.trans {s t u : State} (a : ContentOnly s t) (b : ContentOnly t u) : ContentOnly s u := by
  unfold ContentOnly at *
  rw [b, a]

theorem ContentOnly.foldl {α : Type} {f : State → α → State} (h : ∀ t x, ContentOnly t (f t x)) (l : List α) (s : State) :
    ContentOnly s (l.foldl f s) := by
  induction l generalizing s with
  | nil => rfl
  | cons x xs ih => exact (h s x).trans (ih _)

/-- t is s but for the tiles of region n and the content of the tiers below. -/
structure TilesOnly (n : Nat) (s t : State) : Prop where
  content : ContentOnly s t
  region : regionOf t n = { regionOf s n with near := (regionOf t n).near }
  others : ∀ m, m ≠ n → regionOf t m = regionOf s m

namespace TilesOnly

variable {n : Nat} {s t u : State}

theorem refl (n : Nat) (s : State) : TilesOnly n s s := ⟨rfl, rfl, fun _ _ => rfl⟩

theorem trans (a : TilesOnly n s t) (b : TilesOnly n t u) : TilesOnly n s u :=
  ⟨a.content.trans b.content, by rw [b.region, a.region], fun m hm => (b.others m hm).trans (a.others m hm)⟩

theorem foldl {α : Type} {f : State → α → State} (h : ∀ t x, TilesOnly n t (f t x)) (l : List α) (s : State) : TilesOnly n s (l.foldl f s) := by
  induction l generalizing s with
  | nil => exact refl n s
  | cons x xs ih => exact (h s x).trans (ih _)

/-- A fold that carries a position beside the state. -/
theorem foldlPos {α : Type} {f : State × Nat → α → State × Nat} (h : ∀ t x, TilesOnly n t.1 (f t x).1) (l : List α) (x0 : State × Nat) :
    TilesOnly n x0.1 (l.foldl f x0).1 := by
  induction l generalizing x0 with
  | nil => exact refl n _
  | cons x xs ih => exact (h x0 x).trans (ih _)

theorem setNear (n : Nat) (s : State) (near : Sparse Tile) : TilesOnly n s (setRegion s n { regionOf s n with near := near }) :=
  ⟨rfl, by rw [regionOf_setRegion_self], fun _ hm => regionOf_setRegion_other _ _ hm⟩

theorem useClock (n : Nat) (s : State) (k : Nat) : TilesOnly n s { s with mem := { s.mem with useClock := k } } := ⟨rfl, rfl, fun _ _ => rfl⟩

theorem lowerWrite (n : Nat) (s : State) (r : Region) (o len : Nat) (piece : Mem) (poison : List Nat) :
    TilesOnly n s (lowerWrite s r o len piece poison) := by
  unfold Machine.lowerWrite
  split
  all_goals exact ⟨rfl, rfl, fun _ _ => rfl⟩

theorem writeBackOne (n : Nat) (s : State) (k : Nat) : TilesOnly n s (writeBackOne s n k) := by
  unfold Machine.writeBackOne
  dsimp only
  split
  next x _ =>
    split
    · exact (lowerWrite n s _ _ _ _ _).trans (setNear n _ _)
    · exact refl n s
  next => exact refl n s

theorem writeBackTile (n : Nat) (s : State) (k : Nat) : TilesOnly n s (writeBackTile s n k) := by
  unfold Machine.writeBackTile
  split
  · exact (writeBackOne n s _).trans (writeBackOne n _ _)
  · exact writeBackOne n s k

theorem writeBackAll (n : Nat) (s : State) : TilesOnly n s (writeBackAll n s) :=
  foldl (α := Nat × Tile) (fun t x => writeBackTile n t x.1) _ s

theorem evictTile (n : Nat) (s : State) (k : Nat) : TilesOnly n s (evictTile s n k) := (writeBackTile n s k).trans (setNear n _ _)

theorem fillTile (n : Nat) (s : State) (k : Nat) : TilesOnly n s (fillTile s n k) := by
  have hclock := useClock n s (s.mem.useClock + 1)
  unfold Machine.fillTile
  dsimp only
  split
  next => exact hclock.trans (setNear n _ _)
  next =>
    refine TilesOnly.trans ?_ (setNear n _ _)
    split
    next => exact hclock.trans (evictTile n _ _)
    next => exact hclock

theorem storeTiles (dirty : Bool) (s : State) (n o : Nat) (bs : List Byte) (pois : List Nat) : TilesOnly n s (storeTiles dirty s n o bs pois) :=
  foldlPos (fun t p => (fillTile n t.1 p.1).trans (setNear n _ _)) _ (s, 0)

theorem lowerStore (s : State) (n o : Nat) (bs : List Byte) (pois : List Nat) : TilesOnly n s (lowerStore s n o bs pois) := by
  refine foldlPos (fun t p => ?_) _ (s, 0)
  dsimp only
  split
  next => exact (lowerWrite n t.1 _ _ _ _ _).trans (setNear n _ _)
  next => exact lowerWrite n t.1 _ _ _ _ _

theorem drainUnit (u : WbUnit) (s : State) : TilesOnly u.region s (drainUnit u s) := by
  unfold Machine.drainUnit
  dsimp only
  split
  · refine foldl (fun t p => ?_) _ s
    split
    · exact storeTiles true t _ _ _ _
    · exact lowerStore t _ _ _ _
  · exact refl _ s

end TilesOnly

/-- Draining the write buffer empties it, and moves tiles besides. -/
theorem drainAll_content (s : State) : ContentOnly { s with mem := { s.mem with wb := [] } } (drainAll s) :=
  ContentOnly.foldl (fun t u => (TilesOnly.drainUnit u t).content) _ _

/-! ### Writing back -/

/-- Tile k is not in the near copy of region n, or is clean there. -/
def tileClean (s : State) (n k : Nat) : Prop := ∀ x, slookup (regionOf s n).near k = some x → x.dirty = false

theorem writeBackOne_clean {s : State} {n t k : Nat} (h : k = t ∨ tileClean s n k) : tileClean (writeBackOne s n t) n k := by
  unfold writeBackOne
  dsimp only
  split
  next x hx =>
    split
    next =>
      intro y hy
      rw [regionOf_setRegion_self] at hy
      dsimp only at hy
      by_cases hk : k = t
      · rw [hk, slookup_sset_self, Option.some.injEq] at hy
        exact hy ▸ rfl
      · rw [slookup_sset_other _ _ _ _ hk] at hy
        exact h.resolve_left hk y hy
    next hclean =>
      rcases h with rfl | h
      · intro y hy
        rw [hx, Option.some.injEq] at hy
        exact hy ▸ (by simpa using hclean)
      · exact h
  next hnone =>
    rcases h with rfl | h
    · intro y hy
      rw [hnone] at hy
      cases hy
    · exact h

/-- A tile written back is clean, and no tile becomes dirty (R338, R357). -/
theorem writeBackTile_clean {s : State} {n t k : Nat} (h : k = t ∨ tileClean s n k) : tileClean (writeBackTile s n t) n k := by
  unfold writeBackTile
  split
  · have hhalf : k = t / 2 * 2 + 1 ∨ k = t / 2 * 2 ∨ tileClean s n k := by
      rcases h with rfl | h
      · omega
      · exact .inr (.inr h)
    exact writeBackOne_clean (hhalf.imp_right writeBackOne_clean)
  · exact writeBackOne_clean h

theorem foldl_writeBackTile_clean {n k : Nat} (l : Sparse Tile) (s : State) (h : k ∈ l.map Prod.fst ∨ tileClean s n k) :
    tileClean (l.foldl (fun t x => writeBackTile t n x.1) s) n k := by
  induction l generalizing s with
  | nil => exact h.resolve_left List.not_mem_nil
  | cons x xs ih =>
    refine ih _ ?_
    rw [List.map_cons, List.mem_cons] at h
    rcases h with (h | h) | h
    · exact .inr (writeBackTile_clean (.inl h))
    · exact .inl h
    · exact .inr (writeBackTile_clean (.inr h))

/-- A region whose dirty tiles are all written back has no dirty tile. -/
theorem writeBackAll_clean (s : State) (n k : Nat) : tileClean (writeBackAll n s) n k := by
  refine foldl_writeBackTile_clean _ s ?_
  cases hk : slookup (regionOf s n).near k with
  | none => exact .inr (fun x hx => by rw [hk] at hx; cases hx)
  | some x => exact .inl (List.mem_map.2 ⟨(k, x), mem_of_slookup _ _ _ hk, rfl⟩)

end Sys2Proof.Machine
end

section
/-!
PROOFS. Region commands (R342): what each command does where it is accepted and where it is not, and what its end leaves.
-/

namespace Sys2Proof.Machine

open Sys2Proof

/-! ### A write of REGION_CMD -/

/-- The rows of REGION_CMD write it with their OP. -/
theorem exec_regionCommands {s : State} {n : Nat} (hn : n < 256) (hup : hostUp s = true) :
    exec (.regionEnable 0 n) s = finish s (regionCmd 1 n s) ∧ exec (.regionDisable 0 n) s = finish s (regionCmd 2 n s)
      ∧ exec (.regionFlush 0 n) s = finish s (regionCmd 3 n s) ∧ exec (.regionInvalidate 0 n) s = finish s (regionCmd 4 n s) := by
  have hreach : (0 < 64 ∧ n < 256) := ⟨by decide, hn⟩
  have htakes : (hostUp s && (0 : Nat) == 0) = true := by simp [hup]
  refine ⟨?_, ?_, ?_, ?_⟩
  · rw [exec, execRegionEnable, if_pos hreach, if_pos htakes]
  · rw [exec, execRegionDisable, if_pos hreach, if_pos htakes]
  · rw [exec, execRegionFlush, if_pos hreach, if_pos htakes]
  · rw [exec, execRegionInvalidate, if_pos hreach, if_pos htakes]

theorem regionCmd_busy {s : State} (hbusy : s.mem.busy = true) (op n : Nat) :
    regionCmd op n s = { s with mem := { s.mem with cmdIgnored := true } } := if_pos hbusy

section

variable {s : State} {n : Nat} (hidle : s.mem.busy = false)

include hidle

theorem regionCmd_device (hn : n < 64) (op : Nat) : regionCmd op n s = cmdResult n 2 s :=
  (if_neg (Bool.eq_false_iff.1 hidle)).trans (if_pos hn)

variable (hn : 64 ≤ n)

include hn

theorem regionCmd_enable : regionCmd 1 n s = if (regionOf s n).st = .disabled then cmdStart 1 n s else cmdResult n 6 s :=
  (if_neg (Bool.eq_false_iff.1 hidle)).trans (if_neg (Nat.not_lt.2 hn))

theorem regionCmd_disable :
    regionCmd 2 n s = if (regionOf s n).st ≠ .active then cmdResult n 6 s else if regionBound s n then cmdResult n 5 s
      else cmdStart 2 n (setRegion (drainAll s) n { regionOf (drainAll s) n with st := .disabling }) :=
  (if_neg (Bool.eq_false_iff.1 hidle)).trans (if_neg (Nat.not_lt.2 hn))

theorem regionCmd_flush :
    regionCmd 3 n s = if (regionOf s n).st ≠ .active then cmdResult n 6 s
      else cmdStart 3 n (setRegion (writeBackAll n s) n { regionOf (writeBackAll n s) n with st := .flushing }) :=
  (if_neg (Bool.eq_false_iff.1 hidle)).trans (if_neg (Nat.not_lt.2 hn))

theorem regionCmd_invalidate : regionCmd 4 n s = if (regionOf s n).st = .active then cmdStart 4 n s else cmdResult n 6 s :=
  (if_neg (Bool.eq_false_iff.1 hidle)).trans (if_neg (Nat.not_lt.2 hn))

end

@[simp] theorem regionOf_cmdStart (op n m : Nat) (s : State) : regionOf (cmdStart op n s) m = regionOf s m := rfl

/-- A command in progress, begun on a package whose regions' content alone has changed. -/
theorem cmdStart_of_content {s t : State} {wb : List WbUnit} (h : ContentOnly { s with mem := { s.mem with wb := wb } } t) (op n : Nat) (r : Region) :
    let u := cmdStart op n (setRegion t n r)
    finish s u = .next u ∧ (u.mem.busy = true ∧ u.mem.cmd = some (op, n) ∧ u.mem.lastRegion = n ∧ u.mem.result = s.mem.result)
      ∧ u.mem.wb = wb ∧ u = { s with mem := u.mem } := by
  intro u
  have hu : u = cmdStart op n (setRegion t n r) := rfl
  rw [h] at hu
  rw [hu]
  exact ⟨rfl, ⟨rfl, rfl, rfl, rfl⟩, rfl, rfl⟩

/-! ### The end of a command -/

/-- The command in progress ends with a RESULT. -/
def cmdEnd (result : Nat) (s : State) : State := { s with mem := { s.mem with busy := false, cmd := none, result := result } }

theorem exec_regionCmdComplete {s : State} {op n : Nat} (hcmd : s.mem.cmd = some (op, n)) (hclocks : clocksRun s = true) :
    exec .regionCmdComplete s = finish s (finishCmd op n s) := by
  rw [exec, execRegionCmdComplete, hcmd]
  dsimp only
  rw [if_pos hclocks]

theorem finishCmd_enable (n : Nat) (s : State) :
    finishCmd 1 n s = if enableCheck s n = 0 then cmdEnd 0 (setRegion s n { regionOf s n with st := .active, near := [] })
      else cmdEnd (enableCheck s n) s := rfl

theorem finishCmd_disable (n : Nat) (s : State) :
    finishCmd 2 n s = cmdEnd 0 (setRegion (writeBackAll n s) n { regionOf (writeBackAll n s) n with st := .disabled, near := [] }) := rfl

theorem finishCmd_flush {n : Nat} {s : State} (h : (regionOf s n).st = .flushing) :
    finishCmd 3 n s = cmdEnd 0 (setRegion s n { regionOf s n with st := .active }) := by
  rw [finishCmd, if_pos h]
  rfl

theorem finishCmd_invalidate (n : Nat) (s : State) :
    finishCmd 4 n s = cmdEnd 0 (setRegion (writeBackAll n s) n { regionOf (writeBackAll n s) n with near := [] }) := rfl

/-- ENABLE's checks in their order (R342): INVALID, OVERLAP, NO_NEAR_SPACE, PORT_DOWN. -/
theorem enableCheck_eq (s : State) (n : Nat) :
    enableCheck s n = if regionValid s (regionOf s n) = false then 1
      else if regionOverlaps s n (regionOf s n) = true then 3
      else if nearFree s (regionOf s n).partn < (regionOf s n).nearMib * 2 ^ 20 then 4
      else if ∃ p ∈ regionPorts s (regionOf s n), (farPortOf s p).serving = false ∨ (farPortOf s p).linkUp = false then 7 else 0 := by
  have hports : ((regionPorts s (regionOf s n)).any (fun p => !((farPortOf s p).serving && (farPortOf s p).linkUp)) = true)
      = ∃ p ∈ regionPorts s (regionOf s n), (farPortOf s p).serving = false ∨ (farPortOf s p).linkUp = false := by
    simp only [List.any_eq_true, Bool.not_eq_true', Bool.and_eq_false_iff]
  simp only [enableCheck, Bool.not_eq_true', hports]

/-- The end of a command on a package whose regions' content alone has changed. -/
theorem cmdEnd_of_content {s t : State} (h : ContentOnly s t) (result : Nat) :
    let u := cmdEnd result t
    finish s u = .next u ∧ u.mem.busy = false ∧ u.mem.cmd = none ∧ u.mem.result = result ∧ u = { s with mem := u.mem } := by
  intro u
  have hu : u = cmdEnd result t := rfl
  rw [h] at hu
  rw [hu]
  exact ⟨rfl, rfl, rfl, rfl, rfl⟩

@[simp] theorem regionOf_cmdEnd (result n : Nat) (s : State) : regionOf (cmdEnd result s) n = regionOf s n := rfl

/-- The end of a command that wrote a region's dirty tiles back and empties its near copy: its configuration is as it was. -/
theorem cmdEnd_of_writeBack (s : State) (n : Nat) (st : RegionState) :
    let r := regionOf (writeBackAll n s) n
    let u := cmdEnd 0 (setRegion (writeBackAll n s) n { r with st := st, near := [] })
    (finish s u = .next u ∧ u.mem.busy = false ∧ u.mem.cmd = none ∧ u.mem.result = 0 ∧ u = { s with mem := u.mem })
      ∧ regionOf u n = { regionOf s n with st := st, near := [] } := by
  have htiles := TilesOnly.writeBackAll n s
  refine ⟨cmdEnd_of_content (htiles.content.trans (setRegion_content _ n _)) 0, ?_⟩
  rw [regionOf_cmdEnd, regionOf_setRegion_self, htiles.region]

end Sys2Proof.Machine

namespace Sys2Proof.Proofs

open Sys2Proof Sys2Proof.Machine

theorem regionCommandsStart : Claims.RegionCommandsStart := by
  intro s n hn hup r began failed
  obtain ⟨henable, hdisable, hflush, hinvalidate⟩ := exec_regionCommands hn hup
  have hall {t : State} (hcmd : ∀ op, regionCmd op n s = t) :
      ∀ c ∈ ([.regionEnable 0 n, .regionDisable 0 n, .regionFlush 0 n, .regionInvalidate 0 n] : List Instr), exec c s = finish s t := by
    simp only [List.forall_mem_cons, List.not_mem_nil, false_implies, implies_true, and_true]
    exact ⟨hcmd 1 ▸ henable, hcmd 2 ▸ hdisable, hcmd 3 ▸ hflush, hcmd 4 ▸ hinvalidate⟩
  refine ⟨fun hbusy => hall (regionCmd_busy hbusy · n), fun hidle hdev => hall (regionCmd_device hidle hdev), fun hidle hsoft => ?_⟩
  rw [regionCmd_enable hidle hsoft] at henable
  rw [regionCmd_disable hidle hsoft] at hdisable
  rw [regionCmd_flush hidle hsoft] at hflush
  rw [regionCmd_invalidate hidle hsoft] at hinvalidate
  refine ⟨fun hst => ?_, fun hst => ?_, fun hst => ⟨?_, ?_, ?_⟩, fun hst hbound => ?_, fun hst hfree => ?_, fun hst _ => ?_, fun hst => ?_⟩
  · rw [if_pos hst] at henable
    exact ⟨cmdStart 1 n s, henable, ⟨rfl, rfl, rfl, rfl⟩, rfl, rfl⟩
  · rw [if_neg hst] at henable
    exact henable
  · rw [if_pos hst] at hdisable
    exact hdisable
  · rw [if_pos hst] at hflush
    exact hflush
  · rw [if_neg hst] at hinvalidate
    exact hinvalidate
  · rw [if_neg (not_not_intro hst), if_pos hbound] at hdisable
    exact hdisable
  · rw [if_neg (not_not_intro hst), if_neg (by simp [hfree])] at hdisable
    obtain ⟨hfinish, hbegan, hwb, hrest⟩ := cmdStart_of_content (drainAll_content s) 2 n { regionOf (drainAll s) n with st := .disabling }
    exact ⟨_, hdisable.trans hfinish, hbegan, by simp, hwb, hrest⟩
  · rw [if_neg (not_not_intro hst)] at hflush
    have htiles := TilesOnly.writeBackAll n s
    obtain ⟨hfinish, hbegan, -, hrest⟩ := cmdStart_of_content (wb := s.mem.wb) htiles.content 3 n { regionOf (writeBackAll n s) n with st := .flushing }
    refine ⟨_, hflush.trans hfinish, hbegan, by simp, fun k x hx => ?_, fun m hm => ?_, hrest⟩
    · rw [regionOf_cmdStart, regionOf_setRegion_self] at hx
      exact writeBackAll_clean s n k x hx
    · rw [regionOf_cmdStart, regionOf_setRegion_other _ _ hm]
      exact htiles.others m hm
  · rw [if_pos hst] at hinvalidate
    exact ⟨cmdStart 4 n s, hinvalidate, ⟨rfl, rfl, rfl, rfl⟩, rfl, rfl⟩

theorem regionCommandEnds : Claims.RegionCommandEnds := by
  intro s op n hcmd hclocks r ended keeps
  have hexec := exec_regionCmdComplete hcmd hclocks
  refine ⟨?_, ?_, ?_, ?_⟩
  · rintro rfl result
    have hresult : enableCheck s n = result := enableCheck_eq s n
    rw [finishCmd_enable, hresult] at hexec
    by_cases hok : result = 0
    · rw [if_pos hok] at hexec
      obtain ⟨hfinish, hended⟩ := cmdEnd_of_content (setRegion_content s n { r with st := .active, near := [] }) 0
      refine ⟨_, hexec.trans hfinish, hok ▸ hended, ?_, fun _ => ?_, fun h => absurd hok h⟩
      · simp [keeps, r]
      · simp
    · rw [if_neg hok] at hexec
      obtain ⟨hfinish, hended⟩ := cmdEnd_of_content (ContentOnly.refl s) result
      exact ⟨_, hexec.trans hfinish, hended, ⟨rfl, rfl, rfl⟩, fun h => absurd h hok, fun _ => rfl⟩
  · rintro rfl
    obtain ⟨⟨hfinish, hended⟩, hregion⟩ := cmdEnd_of_writeBack s n .disabled
    rw [finishCmd_disable] at hexec
    exact ⟨_, hexec.trans hfinish, hended, by simp [keeps, hregion, r], by rw [hregion], by rw [hregion]⟩
  · rintro rfl hst
    rw [finishCmd_flush hst] at hexec
    obtain ⟨hfinish, hended⟩ := cmdEnd_of_content (setRegion_content s n { r with st := .active }) 0
    exact ⟨_, hexec.trans hfinish, hended, by simp [r]⟩
  · rintro rfl
    obtain ⟨⟨hfinish, hended⟩, hregion⟩ := cmdEnd_of_writeBack s n (regionOf (writeBackAll n s) n).st
    rw [finishCmd_invalidate] at hexec
    have hst : (regionOf (writeBackAll n s) n).st = r.st := by rw [(TilesOnly.writeBackAll n s).region]
    exact ⟨_, hexec.trans hfinish, hended, by simp [keeps, hregion, r], by rw [hregion, hst], by rw [hregion]⟩

/-- Settles O38: each command by its OP and the region's state, and its end by the state that its beginning left. -/
theorem regionCommands : Obligations.RegionCommands := ⟨regionCommandsStart, regionCommandEnds⟩

end Sys2Proof.Proofs
end

section
/-!
PROOFS. Set-up of the memory tiers (R15, R336, R341, R346): what a write of a region's registers, of MEM_CTL and of FMP_CTL leaves in each field, and the
far-memory map that follows.
-/

namespace Sys2Proof.Machine

open Sys2Proof

/-! ### 64-bit writes -/

theorem merged_full (old : Reg) {w : RegAccess} (h : w.half = .full) : merged old w = w.data := by rw [merged, h]

/-- A field after its own 64-bit write: the value written where that is in range, else the one it held (R15). -/
theorem fieldOf_rwField_full (old : Reg) {w : RegAccess} (hfull : w.half = .full) {hi lo : Nat} (ok : Nat → Bool) (r : Reg) (h : lo ≤ hi) (h64 : hi < 64) :
    fieldOf (rwField old w hi lo ok r) hi lo = if ok (fieldOf w.data hi lo) = true then fieldOf w.data hi lo else fieldOf r hi lo := by
  rw [fieldOf_rwField_self old w ok r h h64, merged_full old hfull]

/-- A one-bit field after its own 64-bit write. -/
theorem bitOf_rwField_full (old : Reg) {w : RegAccess} (hfull : w.half = .full) {n : Nat} (r : Reg) (h64 : n < 64) :
    bitOf (rwField old w n n anyVal r) n = bitOf w.data n := by
  rw [rwField_eq, merged_full old hfull, anyVal, if_pos rfl, bitOf, testBit_withField r _ n le_rfl h64, if_pos ⟨le_rfl, le_rfl⟩, testBit_fieldOf]
  simp [bitOf]

/-- A bit is kept by the write of a field that it is not in. -/
theorem bitOf_rwField_other (old : Reg) (w : RegAccess) {hi lo : Nat} (ok : Nat → Bool) (r : Reg) (n : Nat) (h : lo ≤ hi) (h64 : hi < 64)
    (hd : n < lo ∨ hi < n) : bitOf (rwField old w hi lo ok r) n = bitOf r n := by
  rw [rwField_eq]
  split
  · rw [bitOf, testBit_withField r _ n h h64, if_neg (by omega)]
    rfl
  · rfl

/-! ### Region configuration (R336, R341) -/

theorem exec_regionConfigWrite {s : State} {n : Nat} {w : RegAccess} (hn : n < 256) (hw : pfWrite w s = true) (x : RegionReg) :
    exec (.regionConfigWrite n x w) s = finish s (writeRegion n x w s) := by
  rw [exec, execRegionConfigWrite, if_pos hn, if_pos hw]

theorem writeRegion_device {n : Nat} (hn : n < 64) (x : RegionReg) (w : RegAccess) (s : State) : writeRegion n x w s = s := if_pos hn

section

variable {s : State} {n : Nat} (hn : 64 ≤ n)

include hn

theorem writeRegion_inUse (hst : (regionOf s n).st ≠ .disabled) (x : RegionReg) (w : RegAccess) :
    writeRegion n x w s = { s with mem := { s.mem with cfgIgnored := true } } :=
  (if_neg (Nat.not_lt.2 hn)).trans (if_pos hst)

variable (hst : (regionOf s n).st = .disabled) (w : RegAccess)

include hst

theorem writeRegion_base :
    writeRegion n .base w s = setRegion s n { regionOf s n with
      base := rwField (regionOf s n).base w 63 62 tierVal (rwField (regionOf s n).base w 57 12 anyVal (regionOf s n).base) } :=
  (if_neg (Nat.not_lt.2 hn)).trans (if_neg (not_not_intro hst))

theorem writeRegion_size :
    writeRegion n .size w s = setRegion s n { regionOf s n with size := rwField (regionOf s n).size w 47 12 anyVal (regionOf s n).size } :=
  (if_neg (Nat.not_lt.2 hn)).trans (if_neg (not_not_intro hst))

theorem writeRegion_cfg :
    writeRegion n .cfg w s = setRegion s n { regionOf s n with
      cfg := rwField (regionOf s n).cfg w 11 10 anyVal (rwField (regionOf s n).cfg w 15 12 anyVal
        (rwField (regionOf s n).cfg w 47 16 anyVal (rwField (regionOf s n).cfg w 1 0 modeVal (regionOf s n).cfg))) } :=
  (if_neg (Nat.not_lt.2 hn)).trans (if_neg (not_not_intro hst))

end

/-! ### The far-memory map (R346) -/

/-- t is s but for the far-memory map. -/
def MapOnly (s t : State) : Prop :=
  t = { s with mem := { s.mem with
    mapPorts := t.mem.mapPorts, mapInterleaved := t.mem.mapInterleaved, mapValid := t.mem.mapValid, fallback := t.mem.fallback } }

theorem buildMap_mapOnly (s : State) : MapOnly s (buildMap s) := rfl

theorem remap_mapOnly (s : State) : MapOnly s (remap s) := by
  unfold remap
  split
  · rfl
  · exact buildMap_mapOnly s

theorem MapOnly.kept {s t : State} (h : MapOnly s t) : Kept s t := by
  rw [h]
  exact ⟨rfl, rfl, rfl⟩

theorem MapOnly.farPortOf_eq {s t : State} (h : MapOnly s t) (p : Nat) : farPortOf t p = farPortOf s p := by
  rw [h]
  rfl

theorem MapOnly.regionOf_eq {s t : State} (h : MapOnly s t) (n : Nat) : regionOf t n = regionOf s n := by
  rw [h]
  rfl

theorem remap_of_unused {s : State} (hunused : farInUse s = false) (hvalid : s.mem.mapValid = true) : remap s = buildMap s :=
  if_neg (by simp [hunused, hvalid])

theorem mem_servingPorts {s : State} {p : Nat} : p ∈ servingPorts s ↔ p < Config.farPorts s.part ∧ (farPortOf s p).serving = true := by
  simp [servingPorts]

/-- The map is interleaved only where FM_INTERLEAVE asks for it and its ports number 1, 2 or 4 of equal capacity (R346). -/
theorem buildMap_interleaved {s : State} (h : (buildMap s).mem.mapInterleaved = true) :
    bitOf s.mem.ctl 0 = true ∧ ((servingPorts s).length = 1 ∨ (servingPorts s).length = 2 ∨ (servingPorts s).length = 4)
      ∧ ∀ p ∈ servingPorts s, ∀ q ∈ servingPorts s, (farPortOf s p).capacityGib = (farPortOf s q).capacityGib := by
  have hinter : (bitOf s.mem.ctl 0
      && (servingPorts s).all (fun p => (farPortOf s p).capacityGib == (farPortOf s ((servingPorts s).headD 0)).capacityGib)
      && ((servingPorts s).length == 1 || (servingPorts s).length == 2 || (servingPorts s).length == 4)) = true := h
  simp only [Bool.and_eq_true, Bool.or_eq_true, beq_iff_eq, List.all_eq_true] at hinter
  obtain ⟨⟨hwant, hequal⟩, hcount⟩ := hinter
  exact ⟨hwant, or_assoc.1 hcount, fun p hp q hq => (hequal p hp).trans (hequal q hq).symm⟩

/-! ### MEM_CTL (R346) -/

/-- MEM_CTL after a write. -/
def memCtlAfter (w : RegAccess) (s : State) : Reg :=
  let r := rwField s.mem.ctl w 15 8 anyVal (rwField s.mem.ctl w 1 1 anyVal s.mem.ctl)
  if farInUse s then r else rwField s.mem.ctl w 0 0 anyVal r

/-- The package with MEM_CTL written. -/
def withMemCtl (w : RegAccess) (s : State) : State := { s with mem := { s.mem with ctl := memCtlAfter w s } }

theorem exec_memCtlWrite {s : State} {w : RegAccess} (hw : pfWrite w s = true) : exec (.memCtlWrite w) s = finish s (writeMemCtl w s) := by
  rw [exec, execMemCtlWrite, if_pos hw]

theorem writeMemCtl_eq (w : RegAccess) (s : State) :
    writeMemCtl w s = if (bitOf (memCtlAfter w s) 0 != bitOf s.mem.ctl 0 && s.mem.mapValid) = true then buildMap (withMemCtl w s) else withMemCtl w s := rfl

theorem writeMemCtl_mapOnly (w : RegAccess) (s : State) : MapOnly (withMemCtl w s) (writeMemCtl w s) := by
  rw [writeMemCtl_eq]
  split
  · exact buildMap_mapOnly _
  · rfl

theorem writeMemCtl_ctl (w : RegAccess) (s : State) : (writeMemCtl w s).mem.ctl = memCtlAfter w s := by
  rw [writeMemCtl_mapOnly]
  rfl

section

variable {w : RegAccess} (hfull : w.half = .full) (s : State)

include hfull

/-- SCRUB_HOURS and the retain bit take their fields. -/
theorem memCtlAfter_fields : fieldOf (memCtlAfter w s) 15 8 = fieldOf w.data 15 8 ∧ bitOf (memCtlAfter w s) 1 = bitOf w.data 1 := by
  unfold memCtlAfter
  dsimp only
  split
  all_goals
    simp (disch := omega) only [fieldOf_rwField_other, bitOf_rwField_other, fieldOf_rwField_full _ hfull, bitOf_rwField_full _ hfull, anyVal, if_true, and_self]

/-- FM_INTERLEAVE is held while something uses far memory. -/
theorem memCtlAfter_interleave : bitOf (memCtlAfter w s) 0 = if farInUse s then bitOf s.mem.ctl 0 else bitOf w.data 0 := by
  unfold memCtlAfter
  dsimp only
  split
  · simp (disch := omega) only [bitOf_rwField_other]
  · simp (disch := omega) only [bitOf_rwField_full _ hfull]

theorem writeMemCtl_used {s : State} (hused : farInUse s = true) : writeMemCtl w s = withMemCtl w s := by
  rw [writeMemCtl_eq, memCtlAfter_interleave hfull, if_pos hused]
  simp

/-- A change of FM_INTERLEAVE builds the map. -/
theorem writeMemCtl_changes {s : State} (hunused : farInUse s = false) (hvalid : s.mem.mapValid = true) (hchange : bitOf w.data 0 ≠ bitOf s.mem.ctl 0) :
    writeMemCtl w s = buildMap (withMemCtl w s) := by
  rw [writeMemCtl_eq, memCtlAfter_interleave hfull, hunused]
  simp [hvalid, hchange]

end

/-! ### FMP_CTL (R346) -/

/-- MAX_RATE after a 64-bit write of FMP_CTL. -/
def maxRateAfter (w : RegAccess) (f : FarPort) : Nat := if fieldOf w.data 5 4 < 2 then fieldOf w.data 5 4 else f.maxRate

/-- A port with MAX_RATE written. -/
def FarPort.withMaxRate (w : RegAccess) (f : FarPort) : FarPort :=
  { f with maxRate := maxRateAfter w f, rate := if maxRateAfter w f = 1 then min f.rate 1 else f.rate }

/-- A port that is held down. -/
def FarPort.down (f : FarPort) : FarPort := { f with enable := false, linkUp := false, serving := false, width := 0, rate := 0, retraining := false }

section

variable {s : State} {p : Nat} {w : RegAccess}

theorem exec_fmpRetrain (hp : p < Config.farPorts s.part) (hwrote : wrote w 1 = true) (hw : pfWrite w s = true) :
    exec (.fmpRetrain p w) s = finish s (writeFmpCtl p w s) := by
  rw [exec, execFmpRetrain, if_pos ⟨hp, hwrote⟩, if_pos hw]

/-- FMP_CTL.MAX_RATE as it stands in the register. -/
theorem fieldOf_fmpCtl {f : FarPort} (hmax : f.maxRate < 4) : fieldOf (BitVec.ofNat 64 (bit f.enable + 16 * f.maxRate)) 5 4 = f.maxRate := by
  have hbit : bit f.enable < 2 := by unfold bit; split <;> omega
  rw [fieldOf, BitVec.toNat_ofNat, Nat.shiftRight_eq_div_pow]
  omega

/-- A write of FMP_CTL with RETRAIN: MAX_RATE takes its field, and ENABLE 0 takes a port down that no region uses. -/
theorem writeFmpCtl_eq (hwrote : wrote w 1 = true) (hfull : w.half = .full) (hmax : (farPortOf s p).maxRate < 4) :
    writeFmpCtl p w s =
      let f := (farPortOf s p).withMaxRate w
      if (!bitOf w.data 0 && (farPortOf s p).enable && !portInUse s p) = true then
        if farInUse s then setFarPort s p f.down else remap (setFarPort s p f.down)
      else setFarPort s p { f with enable := (farPortOf s p).enable || bitOf w.data 0 } := by
  have hrate : fieldOf (rwField (BitVec.ofNat 64 (bit (farPortOf s p).enable + 16 * (farPortOf s p).maxRate)) w 5 4 (fun v => decide (v < 2))
      (BitVec.ofNat 64 (bit (farPortOf s p).enable + 16 * (farPortOf s p).maxRate))) 5 4 = maxRateAfter w (farPortOf s p) := by
    rw [fieldOf_rwField_full _ hfull _ _ (by decide) (by decide), fieldOf_fmpCtl hmax, maxRateAfter]
    simp only [decide_eq_true_eq]
  unfold writeFmpCtl
  dsimp only
  rw [hrate, bitOf_rwField_full _ hfull _ (by decide), hwrote]
  simp only [Bool.true_and, beq_iff_eq]
  rfl

/-- ENABLE 1: the port is enabled and its MAX_RATE written, and nothing besides. -/
theorem writeFmpCtl_enabled (hwrote : wrote w 1 = true) (hfull : w.half = .full) (hmax : (farPortOf s p).maxRate < 4) (hon : bitOf w.data 0 = true) :
    writeFmpCtl p w s = setFarPort s p { (farPortOf s p).withMaxRate w with enable := true } := by
  rw [writeFmpCtl_eq hwrote hfull hmax]
  simp [hon]

/-- ENABLE 0 for an enabled port that no region uses: the port is down, and the map follows where no region uses far memory. -/
theorem writeFmpCtl_disabled (hwrote : wrote w 1 = true) (hfull : w.half = .full) (hmax : (farPortOf s p).maxRate < 4) (hoff : bitOf w.data 0 = false)
    (henabled : (farPortOf s p).enable = true) (hunused : portInUse s p = false) :
    MapOnly (setFarPort s p ((farPortOf s p).withMaxRate w).down) (writeFmpCtl p w s)
      ∧ (farInUse s = false → writeFmpCtl p w s = remap (setFarPort s p ((farPortOf s p).withMaxRate w).down)) := by
  rw [writeFmpCtl_eq hwrote hfull hmax]
  dsimp only
  rw [if_pos (by simp [hoff, henabled, hunused])]
  refine ⟨?_, fun hfar => if_neg (by simp [hfar])⟩
  split
  · rfl
  · exact remap_mapOnly _

end

end Sys2Proof.Machine

namespace Sys2Proof.Proofs

open Sys2Proof Sys2Proof.Machine

/-- Settles O39: a region's registers by its state, MEM_CTL by what uses far memory, and FMP_CTL by its ENABLE. -/
theorem memorySetUp : Obligations.MemorySetUp := by
  refine ⟨fun s n w hn hw hfull => ?_, fun s w hw hfull => ?_, fun s p w hp hwrote hw hfull => ?_⟩
  · intro r
    have hexec {x : RegionReg} {t : State} (h : writeRegion n x w s = t) : exec (.regionConfigWrite n x w) s = finish s t :=
      (exec_regionConfigWrite hn hw x).trans (congrArg (finish s) h)
    refine ⟨fun hdev x => hexec (writeRegion_device hdev x w s), fun hsoft hst x => hexec (writeRegion_inUse hsoft hst x w), fun hsoft hst => ?_,
      fun hsoft hst => ?_, fun hsoft hst => ?_⟩
    · refine ⟨_, hexec (writeRegion_base hsoft hst w), rfl, ?_⟩
      simp (disch := omega) only [fieldOf_rwField_other, fieldOf_rwField_full _ hfull, anyVal, tierVal, bne_iff_ne, ite_not, if_true, r, and_self]
    · refine ⟨_, hexec (writeRegion_size hsoft hst w), rfl, ?_⟩
      simp (disch := omega) only [fieldOf_rwField_other, fieldOf_rwField_full _ hfull, anyVal, if_true, r, and_self]
    · refine ⟨_, hexec (writeRegion_cfg hsoft hst w), rfl, ?_⟩
      simp (disch := omega) only [fieldOf_rwField_other, fieldOf_rwField_full _ hfull, anyVal, modeVal, decide_eq_true_eq, if_true, r, and_self]
  · obtain ⟨hscrub, hretain⟩ := memCtlAfter_fields hfull s
    have hinterleave := memCtlAfter_interleave hfull s
    refine ⟨_, (exec_memCtlWrite hw).trans (finish_of_kept (writeMemCtl_mapOnly w s).kept), ?_⟩
    rw [writeMemCtl_ctl]
    refine ⟨hscrub, hretain, fun hused => ⟨writeMemCtl_used hfull hused, ?_⟩, fun hunused => ?_, fun hunused hvalid hchange => ?_⟩
    · rw [hinterleave, if_pos hused]
    · rw [hinterleave, hunused]
      rfl
    · have hwant : bitOf (withMemCtl w s).mem.ctl 0 = bitOf w.data 0 := by
        rw [withMemCtl, hinterleave, hunused]
        rfl
      rw [writeMemCtl_changes hfull hunused hvalid hchange, ← hwant]
      exact ⟨rfl, buildMap_interleaved, rfl⟩
  · intro f rate hmax
    refine ⟨fun hon => ?_, fun hoff henabled hunused => ?_⟩
    · rw [exec_fmpRetrain hp hwrote hw, writeFmpCtl_enabled hwrote hfull hmax hon]
      rfl
    · obtain ⟨hmap, hremap⟩ := writeFmpCtl_disabled hwrote hfull hmax hoff henabled hunused
      have hport := hmap.farPortOf_eq p
      rw [farPortOf_setFarPort_self, FarPort.down] at hport
      refine ⟨_, (exec_fmpRetrain hp hwrote hw).trans (finish_of_kept hmap.kept), by rw [hport], by rw [hport], by rw [hport], fun hfar hvalid hmem => ?_⟩
      have hbuild : remap (setFarPort s p (f.withMaxRate w).down) = buildMap (setFarPort s p (f.withMaxRate w).down) := remap_of_unused hfar hvalid
      rw [hremap hfar, hbuild] at hmem
      have hserving := (mem_servingPorts.1 hmem).2
      rw [farPortOf_setFarPort_self] at hserving
      cases hserving

end Sys2Proof.Proofs
end

section
/-!
PROOFS. Detected events (R461 to R464, R470, R513, R514): a record that names no function and asks for no restart, taken while events flow, is the
newest of the log, and changes nothing but what a record writes and the unit it is charged to.
-/

namespace Sys2Proof.Machine

open Sys2Proof

/-! ### Writing a record -/

theorem raiseMsix_host (f v : Nat) (s : State) :
    raiseMsix f v s = { s with
      port := (raiseMsix f v s).port
      mem := { s.mem with host := (raiseMsix f v s).mem.host, hostBad := (raiseMsix f v s).mem.hostBad } } := by
  unfold raiseMsix
  dsimp only
  split <;> rfl

/-- t is s but for what a record writes: the log, the interrupt with its message in host memory, the pins and the trace. -/
def LogOnly (s t : State) : Prop :=
  t = { s with
    port := t.port, mem := { s.mem with host := t.mem.host, hostBad := t.mem.hostBad }, pins := t.pins, trace := t.trace
    flt := { s.flt with newest := t.flt.newest, live := t.flt.live, history := t.flt.history } }

/-- The record that stands newest in the log of t is r, with the time of detection in s and the next SEQ. -/
def NewestIs (r : ErrRec) (s t : State) : Prop :=
  ∃ nv, t.flt.live.head? = some { r with
      time := s.clk.ts, seq := (s.flt.newest + 1) % 2 ^ 32, nv := nv, pkg := pkgNow s, shell := s.net.shellId }
    ∧ t.flt.newest = (s.flt.newest + 1) % 2 ^ 32

/-- The record of an event that no function's command caused, written. -/
theorem logRecord_logOnly {r : ErrRec} (hfn : 64 ≤ r.fn) (who : Option UnitRef) (s : State) : LogOnly s (logRecord r who s) := by
  unfold logRecord
  dsimp only
  rw [if_neg (Nat.not_lt.2 hfn), traceWrite_rest]
  split
  · rw [raiseMsix_host]
    rfl
  · rfl

theorem logRecord_newestIs {r : ErrRec} (hfn : 64 ≤ r.fn) (who : Option UnitRef) (s : State) : NewestIs r s (logRecord r who s) := by
  unfold logRecord
  dsimp only
  rw [if_neg (Nat.not_lt.2 hfn), traceWrite_rest]
  split
  · rw [raiseMsix_host]
    exact ⟨_, rfl, rfl⟩
  · exact ⟨_, rfl, rfl⟩

theorem NewestIs.recorded {r : ErrRec} {s s' t : State} (h : NewestIs r s t) (hts : s.clk.ts = s'.clk.ts) (hnewest : s.flt.newest = s'.flt.newest)
    {p : ErrRec → Prop} (hp : ∀ time seq nv pkg shell, p { r with time := time, seq := seq, nv := nv, pkg := pkg, shell := shell }) :
    Claims.recorded s' t p := by
  obtain ⟨nv, hhead, hseq⟩ := h
  exact ⟨_, hhead, hp _ _ _ _ _, hts, congrArg (fun k => (k + 1) % 2 ^ 32) hnewest, hseq⟩

/-! ### Units under watch -/

theorem hasBit_setBit (m n : Nat) : hasBit (setBit m n) n = true := by
  unfold hasBit setBit
  split
  next hset => exact hset
  next hclear => rw [Nat.add_comm, Nat.testBit_two_pow_add_eq, Bool.eq_false_iff.2 hclear, Bool.not_false]

theorem chargeUnit_rest (u : UnitRef) (s : State) : chargeUnit u s = { s with crews := (chargeUnit u s).crews } := by
  unfold chargeUnit
  dsimp only
  split
  · rfl
  · split
    all_goals split <;> rfl

/-- A unit in placement that is charged its first event enters WATCH (R470). -/
theorem inWatch_chargeUnit {u : UnitRef} {s : State} (hwatch : inWatch s u = false) (hout : unitOut s u = false) : inWatch (chargeUnit u s) u = true := by
  rw [chargeUnit, if_neg (by simp [hout])]
  cases u with
  | core n =>
    have hbit : hasBit (crewOf s (n / 9)).watch (n % 9) = false := hwatch
    simp [unitCrew, hbit, inWatch, hasBit_setBit]
  | crew n =>
    have hbit : (crewOf s n).sramWatch = false := hwatch
    simp [unitCrew, hbit, inWatch]

/-! ### Taking an event -/

/-- The event queue's high-water mark once an event has passed through it. -/
def passEvent (s : State) : State := { s with boot := { s.boot with highWater := max s.boot.highWater (s.boot.evq.length + 1) } }

theorem latchEvent_of_flows {s : State} (h : Claims.eventsFlow s) (e : Event) : latchEvent e s = (false, passEvent s) := by
  obtain ⟨hact, hroom⟩ := h
  rw [latchEvent, if_neg (Nat.not_le.2 hroom), if_neg hact]
  rfl

/-- t is s but for what a detected event writes: a record, the queue's high-water mark and the crews under watch. -/
def EventOnly (s t : State) : Prop :=
  t = { s with
    port := t.port, mem := { s.mem with host := t.mem.host, hostBad := t.mem.hostBad }, pins := t.pins, trace := t.trace
    flt := { s.flt with newest := t.flt.newest, live := t.flt.live, history := t.flt.history }
    boot := { s.boot with highWater := t.boot.highWater }, crews := t.crews }

/-- An event charged to no unit, with no restart: it is recorded and passes through the queue. -/
theorem detect_unattributed {r : ErrRec} {s : State} (hflow : Claims.eventsFlow s) (hfn : 64 ≤ r.fn) (haction : r.action = 0) :
    EventOnly s (detect r none s) ∧ NewestIs r s (detect r none s) := by
  have hlog := logRecord_logOnly hfn none s
  have hflow' : Claims.eventsFlow (logRecord r none s) := by
    rw [hlog]
    exact hflow
  have hact : (passEvent (logRecord r none s)).boot.act ≠ .held := hflow'.1
  have hdetect : detect r none s = passEvent (logRecord r none s) := by
    simp [detect, latchEvent_of_flows hflow', hact, actOn, haction]
  rw [hdetect]
  refine ⟨?_, logRecord_newestIs hfn none s⟩
  rw [hlog]
  rfl

/-- The record of the first event charged to a unit: its VERDICT is 1. -/
def firstEvent (r : ErrRec) : ErrRec := { r with verdict := 1 }

/-- The first event charged to a unit in placement: it is recorded with VERDICT 1, and puts the unit in WATCH (R470). -/
theorem detect_firstOf {r : ErrRec} {u : UnitRef} {s : State} (hflow : Claims.eventsFlow s) (hfn : 64 ≤ r.fn) (haction : r.action = 0)
    (hverdict : r.verdict = 0) (hwatch : inWatch s u = false) (hout : unitOut s u = false) :
    EventOnly s (detect r (some u) s) ∧ NewestIs (firstEvent r) s (detect r (some u) s) ∧ inWatch (detect r (some u) s) u = true := by
  have hlog := logRecord_logOnly (r := firstEvent r) hfn (some u) s
  have hnewest := logRecord_newestIs (r := firstEvent r) hfn (some u) s
  have hwatch' : inWatch (logRecord (firstEvent r) (some u) s) u = false := by
    rw [hlog]
    cases u <;> exact hwatch
  have hout' : unitOut (logRecord (firstEvent r) (some u) s) u = false := by
    rw [hlog]
    cases u <;> exact hout
  have hdetect : detect r (some u) s = passEvent (chargeUnit u (logRecord (firstEvent r) (some u) s)) := by
    have hflow' : Claims.eventsFlow (chargeUnit u (logRecord (firstEvent r) (some u) s)) := by
      rw [chargeUnit_rest, hlog]
      exact hflow
    have hact : (passEvent (chargeUnit u (logRecord (firstEvent r) (some u) s))).boot.act ≠ .held := hflow'.1
    have hfirst : (if (!inWatch s u && !unitOut s u && r.verdict == 0) = true then { r with verdict := 1 } else r) = firstEvent r :=
      if_pos (by simp [hwatch, hout, hverdict])
    unfold detect
    dsimp only
    rw [hfirst, latchEvent_of_flows hflow']
    simp [hact, actOn, haction, hwatch]
  rw [hdetect]
  generalize logRecord (firstEvent r) (some u) s = d at hlog hnewest hwatch' hout'
  refine ⟨?_, ?_, ?_⟩
  · rw [chargeUnit_rest, hlog]
    rfl
  · rw [chargeUnit_rest]
    exact hnewest
  · have hin := inWatch_chargeUnit hwatch' hout'
    cases u <;> exact hin

/-! ### An event found on the way -/

/-- t is s but for its memories and its serving state. -/
def MemSrvOnly (s t : State) : Prop := t = { s with mem := t.mem, srv := t.srv }

theorem MemSrvOnly.eventsFlow {s t : State} (h : MemSrvOnly s t) (hflow : Claims.eventsFlow s) : Claims.eventsFlow t := by
  rw [h]
  exact hflow

/-- A command whose effect on memories and requests ends in an event answers with the effect, the record and nothing besides. -/
theorem detect_after {r : ErrRec} {s t : State} (h : MemSrvOnly s t) (hflow : Claims.eventsFlow s) (hfn : 64 ≤ r.fn) (haction : r.action = 0) :
    finish s (detect r none t) = .next (detect r none t) ∧ EventOnly t (detect r none t)
      ∧ ∀ p : ErrRec → Prop, (∀ time seq nv pkg shell, p { r with time := time, seq := seq, nv := nv, pkg := pkg, shell := shell }) →
        Claims.recorded s (detect r none t) p := by
  obtain ⟨hevent, hnewest⟩ := detect_unattributed (h.eventsFlow hflow) hfn haction
  refine ⟨?_, hevent, fun p hp => hnewest.recorded ?_ ?_ hp⟩
  · rw [hevent, h]
    rfl
  · rw [h]
  · rw [h]

theorem EventOnly.kept {s t : State} (h : EventOnly s t) : Kept s t := by
  rw [h]
  exact ⟨rfl, rfl, rfl⟩

theorem EventOnly.regionOf_eq {s t : State} (h : EventOnly s t) (n : Nat) : regionOf t n = regionOf s n := by
  rw [h]
  rfl

theorem EventOnly.farPortOf_eq {s t : State} (h : EventOnly s t) (p : Nat) : farPortOf t p = farPortOf s p := by
  rw [h]
  rfl

theorem EventOnly.srv_eq {s t : State} (h : EventOnly s t) : t.srv = s.srv := by rw [h]

end Sys2Proof.Machine
end

section
/-!
PROOFS. Far-memory ports (R345 to R347): what the loss of a link, its return, the loss of a port, a late read and a port that comes up leave.
-/

namespace Sys2Proof.Machine

open Sys2Proof

theorem MapOnly.memSrvOnly {s t : State} (h : MapOnly s t) : MemSrvOnly s t := by
  rw [h]
  rfl

theorem ContentOnly.memSrvOnly {s t : State} (h : ContentOnly s t) : MemSrvOnly s t := by
  rw [h]
  rfl

theorem ContentOnly.farPortOf_eq {s t : State} (h : ContentOnly s t) (p : Nat) : farPortOf t p = farPortOf s p := by
  rw [h]
  rfl

theorem MemSrvOnly.trans {s t u : State} (a : MemSrvOnly s t) (b : MemSrvOnly t u) : MemSrvOnly s u := by
  unfold MemSrvOnly at *
  rw [b, a]

theorem setFarPort_memSrvOnly (s : State) (p : Nat) (x : FarPort) : MemSrvOnly s (setFarPort s p x) := rfl

/-! ### A port that is lost for good (R347) -/

theorem foldl_failRegion_content (ns : List Nat) (s : State) : ContentOnly s (ns.foldl failRegion s) :=
  ContentOnly.foldl (fun t n => setRegion_content t n _) ns s

/-- Each of the regions is FAILED with an empty near copy, and no other region changes. -/
theorem regionOf_foldl_failRegion (ns : List Nat) (s : State) (m : Nat) :
    regionOf (ns.foldl failRegion s) m = if m ∈ ns then { regionOf s m with st := .failed, near := [] } else regionOf s m := by
  induction ns generalizing s with
  | nil => simp
  | cons n ns ih =>
    rw [List.foldl_cons, ih]
    by_cases hm : m = n
    · subst hm
      simp [failRegion]
    · simp [failRegion, regionOf_setRegion_other _ _ hm, hm]

/-- A port that serves no more. -/
def FarPort.lost (f : FarPort) : FarPort := { f with serving := false, retraining := false, width := 0, rate := 0 }

/-- The package once the port serves no more and its regions are FAILED. -/
def portFailed (p : Nat) (s : State) : State := (portRegions s p).foldl failRegion (setFarPort s p (farPortOf s p).lost)

/-- The package without the port: the map follows where no region uses far memory. -/
def withoutPort (p : Nat) (s : State) : State := remap (portFailed p s)

/-- The record of a port lost with no dirty tile. -/
def portLostRecord (p : Nat) (s : State) : ErrRec :=
  { cls := 2, action := 0, code := 0x40, unitKind := 5, unit := p, detail0 := (farPortOf s p).serial, detail1 := (portRegions s p).length }

section

variable {s : State} {p : Nat}

theorem losePort_clean (hconvs : s.srv.convs = []) (hwb : s.mem.wb = [])
    (hclean : ∀ n ∈ portRegions s p, ∀ x ∈ (regionOf s n).near, x.2.dirty = false) :
    losePort p s = detect (portLostRecord p s) none (withoutPort p s) := by
  have hdirty : (portRegions s p).any (fun n => (regionOf s n).near.any (fun x => x.2.dirty) || s.mem.wb.any (fun u => u.region == n)) = false := by
    simpa [hwb] using fun n hn k x hx => hclean n hn (k, x) hx
  have hempty : (portFailed p s).mem.wb = [] := by
    rw [portFailed, foldl_failRegion_content]
    exact hwb
  have hbuffer : { portFailed p s with mem := { (portFailed p s).mem with
      wb := (portFailed p s).mem.wb.filter (fun u => !(portRegions s p).contains u.region) } } = portFailed p s := by
    rw [hempty, List.filter_nil, ← hempty]
  unfold losePort
  dsimp only
  rw [hdirty, hconvs, List.filter_nil, ite_self, List.foldl_nil]
  exact congrArg (fun t => detect (portLostRecord p s) none (remap t)) hbuffer

theorem withoutPort_memSrvOnly : MemSrvOnly s (withoutPort p s) :=
  (setFarPort_memSrvOnly s p _).trans ((foldl_failRegion_content _ _).memSrvOnly.trans (remap_mapOnly _).memSrvOnly)

theorem farPortOf_withoutPort : farPortOf (withoutPort p s) p = (farPortOf s p).lost := by
  rw [withoutPort, (remap_mapOnly _).farPortOf_eq, portFailed, (foldl_failRegion_content _ _).farPortOf_eq, farPortOf_setFarPort_self]

theorem regionOf_withoutPort (n : Nat) :
    regionOf (withoutPort p s) n = if n ∈ portRegions s p then { regionOf s n with st := .failed, near := [] } else regionOf s n := by
  rw [withoutPort, (remap_mapOnly _).regionOf_eq, portFailed, regionOf_foldl_failRegion]
  rfl

theorem withoutPort_srv : (withoutPort p s).srv = s.srv := by
  rw [withoutPort, remap_mapOnly, portFailed, foldl_failRegion_content]
  rfl

theorem exec_fmpRetrainEnd (hp : p < Config.farPorts s.part) (hclocks : clocksRun s = true) (hretraining : (farPortOf s p).retraining = true)
    (same : Bool) :
    exec (.fmpRetrainEnd p same) s
      = finish s (if same then setFarPort s p { farPortOf s p with linkUp := true, retraining := false } else losePort p s) := by
  rw [exec, execFmpRetrainEnd, if_pos hp]
  dsimp only
  rw [if_pos (by rw [hclocks, hretraining, Bool.and_self])]

theorem exec_fmpLinkLoss (hp : p < Config.farPorts s.part) (hclocks : clocksRun s = true) (hserving : (farPortOf s p).serving = true)
    (hlink : (farPortOf s p).linkUp = true) :
    exec (.fmpLinkLoss p) s = finish s (setFarPort s p { farPortOf s p with linkUp := false, retraining := true }) := by
  rw [exec, execFmpLinkLoss, if_pos hp]
  dsimp only
  rw [if_pos (by rw [hclocks, hserving, hlink]; rfl)]

end

/-! ### A late read (R347) -/

/-- A port after one more read beyond 50 µs. -/
def FarPort.late (f : FarPort) : FarPort := { f with timeouts := f.timeouts + 1, reject := if 3 ≤ f.timeouts + 1 then 6 else f.reject }

/-- What a late read of a far address leaves: its line is poisoned where a region holds it, and elsewhere the port may leave service. -/
def afterLateRead (p a : Nat) (s : State) : State :=
  match regionAt s a with
  | some n =>
    if n < 64 ∨ 256 ≤ n then poisonReaders n a (poisonLine n a (setFarPort s p (farPortOf s p).late))
    else poisonLine n a (setFarPort s p (farPortOf s p).late)
  | none => leaveService p (setFarPort s p (farPortOf s p).late)

/-- The record of a late read. -/
def lateReadRecord (p a ns : Nat) (s : State) : ErrRec :=
  { cls := 2, action := 0, code := 0x41, unitKind := 5, unit := p, space := 2, addr := a, detail0 := ns, detail1 := (farPortOf s p).timeouts + 1 }

theorem poisonLine_tilesOnly (n a : Nat) (s : State) : TilesOnly n s (poisonLine n a s) := (TilesOnly.fillTile n s _).trans (TilesOnly.setNear n _ _)

theorem poisonReaders_memSrvOnly (n a : Nat) (s : State) : MemSrvOnly s (poisonReaders n a s) := rfl

theorem leaveService_eq (p : Nat) (s : State) :
    leaveService p s = if (farPortOf s p).reject = 6 ∧ farInUse s = false then remap (setFarPort s p { farPortOf s p with serving := false }) else s := rfl

theorem leaveService_memSrvOnly (p : Nat) (s : State) : MemSrvOnly s (leaveService p s) := by
  rw [leaveService_eq]
  split
  · exact (setFarPort_memSrvOnly s p _).trans (remap_mapOnly _).memSrvOnly
  · rfl

theorem leaveService_srv (p : Nat) (s : State) : (leaveService p s).srv = s.srv := by
  rw [leaveService_eq]
  split
  · rw [remap_mapOnly]
    rfl
  · rfl

/-- A port of REJECT 6 leaves service where no region uses far memory (R346). -/
theorem farPortOf_leaveService {p : Nat} {s : State} (hserving : (farPortOf s p).serving = true) :
    farPortOf (leaveService p s) p = { farPortOf s p with serving := !((farPortOf s p).reject == 6 && !farInUse s) } := by
  rw [leaveService_eq]
  split
  next hleaves =>
    rw [(remap_mapOnly _).farPortOf_eq, farPortOf_setFarPort_self]
    simp [hleaves]
  next hstays =>
    have hkept : ((farPortOf s p).reject == 6 && !farInUse s) = false := by simpa using hstays
    rw [hkept, Bool.not_false, ← hserving]

section

variable {s : State} {p : Nat}

theorem exec_fmpReadTimeout (hp : p < Config.farPorts s.part) (hclocks : clocksRun s = true) (hserving : (farPortOf s p).serving = true) {a ns : Nat}
    (hlate : 50000 < ns) :
    exec (.fmpReadTimeout p a ns) s = finish s (detect (lateReadRecord p a ns s) none (afterLateRead p a s)) := by
  rw [exec, execFmpReadTimeout, if_pos ⟨hp, hlate⟩]
  dsimp only
  rw [if_pos (by rw [hclocks, hserving, Bool.and_self])]
  rfl

theorem afterLateRead_memSrvOnly (a : Nat) : MemSrvOnly s (afterLateRead p a s) := by
  refine (setFarPort_memSrvOnly s p (farPortOf s p).late).trans ?_
  unfold afterLateRead
  split
  next n _ =>
    have hline := (poisonLine_tilesOnly n a (setFarPort s p (farPortOf s p).late)).content.memSrvOnly
    split
    · exact hline.trans (poisonReaders_memSrvOnly _ _ _)
    · exact hline
  next => exact leaveService_memSrvOnly p _

/-- A late read counts, whatever the address. -/
theorem farPortOf_afterLateRead (a : Nat) : ∃ serving, farPortOf (afterLateRead p a s) p = { (farPortOf s p).late with serving := serving } := by
  unfold afterLateRead
  split
  next n _ =>
    have hline := (poisonLine_tilesOnly n a (setFarPort s p (farPortOf s p).late)).content.farPortOf_eq p
    rw [farPortOf_setFarPort_self] at hline
    split
    · exact ⟨_, hline⟩
    · exact ⟨_, hline⟩
  next =>
    rw [leaveService_eq]
    split
    · exact ⟨false, by rw [(remap_mapOnly _).farPortOf_eq, farPortOf_setFarPort_self, farPortOf_setFarPort_self]⟩
    · exact ⟨_, farPortOf_setFarPort_self _ _ _⟩

theorem afterLateRead_outside {a : Nat} (h : regionAt s a = none) : afterLateRead p a s = leaveService p (setFarPort s p (farPortOf s p).late) := by
  rw [afterLateRead, h]

end

/-! ### A port that comes up (R345, R346) -/

theorem keepsData_eq (x : Expander) : keepsData x = true ↔ x.poison = true ∧ x.retains = true := by simp [keepsData]

theorem rejectCode_eq (x : Expander) : rejectCode x = Claims.rejectOf x := by
  unfold rejectCode Claims.rejectOf keepsData
  simp only [Bool.not_eq_true', Bool.and_eq_false_iff, decide_eq_false_iff_not, not_le]
  grind

/-- An expander serves where it meets every requirement of R345, and only there. -/
theorem serves_iff_meets (x : Expander) : (rejectCode x == 0 && keepsData x) = true ↔ Claims.meets x := by
  rw [Bool.and_eq_true, beq_iff_eq, keepsData_eq, rejectCode_eq]
  unfold Claims.rejectOf Claims.meets
  grind

section

variable {s : State} {p : Nat}

theorem exec_fmpPortInService (hp : p < Config.farPorts s.part) (hclocks : clocksRun s = true) (hvalid : s.mem.mapValid = true)
    (henabled : (farPortOf s p).enable = true) (hout : (farPortOf s p).serving = false) (hunused : farInUse s = false) (x : Expander) :
    exec (.fmpPortInService p x) s = finish s (buildMap (portFound p x s)) := by
  rw [exec, execFmpPortInService, if_pos hp]
  dsimp only
  rw [if_pos (by simp [hclocks, hvalid, henabled, hout, hunused])]

theorem portFound_eq (henabled : (farPortOf s p).enable = true) (x : Expander) :
    portFound p x s = setFarPort s p { farPortOf s p with
      capacityGib := x.capacityGib, reject := rejectCode x, width := if x.widthX16 then 2 else 1
      rate := if x.rate64 && (farPortOf s p).maxRate == 0 then 2 else 1, serving := rejectCode x == 0 && keepsData x, linkUp := true, serial := x.serial
      retraining := false, timeouts := 0 } :=
  if_neg (by simp [henabled])

end

end Sys2Proof.Machine

namespace Sys2Proof.Proofs

open Sys2Proof Sys2Proof.Machine

/-- Settles O40: the loss of a link and its two ends, a late read by the region that holds its address, and a port that comes up by its expander. -/
theorem farMemoryPorts : Obligations.FarMemoryPorts := by
  intro s p hp hclocks f
  refine ⟨fun hserving hlink => exec_fmpLinkLoss hp hclocks hserving hlink, fun hretraining => exec_fmpRetrainEnd hp hclocks hretraining true,
    fun hretraining hflow hconvs hwb hclean => ?_, fun a ns hserving hlate hflow => ?_, fun x hvalid henabled hout hunused => ?_⟩
  · obtain ⟨hfinish, hevent, hrecorded⟩ :=
      detect_after (r := portLostRecord p s) (withoutPort_memSrvOnly (p := p)) hflow (show 64 ≤ 0xFFFF by decide) rfl
    have hexec := exec_fmpRetrainEnd hp hclocks hretraining false
    rw [if_neg Bool.false_ne_true, losePort_clean hconvs hwb hclean] at hexec
    have hport := (hevent.farPortOf_eq p).trans farPortOf_withoutPort
    have hregion := fun n => (hevent.regionOf_eq n).trans (regionOf_withoutPort n)
    refine ⟨_, hexec.trans hfinish, by rw [hport]; rfl, by rw [hport]; rfl, fun n hn => ?_, fun n hn => ?_,
      hrecorded _ fun _ _ _ _ _ => ⟨rfl, rfl, rfl, rfl, rfl, rfl⟩, hevent.srv_eq.trans withoutPort_srv⟩
    · rw [hregion, if_pos hn]
      exact ⟨rfl, rfl⟩
    · rw [hregion, if_neg hn]
  · obtain ⟨hfinish, hevent, hrecorded⟩ :=
      detect_after (r := lateReadRecord p a ns s) (afterLateRead_memSrvOnly (p := p) a) hflow (show 64 ≤ 0xFFFF by decide) rfl
    obtain ⟨serving, hlater⟩ := farPortOf_afterLateRead (s := s) (p := p) a
    have hport := (hevent.farPortOf_eq p).trans hlater
    refine ⟨_, (exec_fmpReadTimeout hp hclocks hserving hlate).trans hfinish, by rw [hport]; rfl, by rw [hport]; rfl, fun hnone => ⟨?_, ?_⟩,
      hrecorded _ fun _ _ _ _ _ => ⟨rfl, rfl, rfl, rfl, rfl, rfl, rfl⟩⟩
    · have hlate' : (farPortOf (setFarPort s p f.late) p).serving = true := by rw [farPortOf_setFarPort_self]; exact hserving
      rw [hevent.farPortOf_eq, afterLateRead_outside hnone, farPortOf_leaveService hlate', farPortOf_setFarPort_self]
      rfl
    · rw [hevent.srv_eq, afterLateRead_outside hnone, leaveService_srv]
      rfl
  · have hexec := exec_fmpPortInService hp hclocks hvalid henabled hout hunused x
    have hserves := serves_iff_meets x
    have hmap := buildMap_mapOnly (portFound p x s)
    have hport := hmap.farPortOf_eq p
    rw [portFound_eq henabled] at hexec hmap hport
    rw [farPortOf_setFarPort_self] at hport
    refine ⟨_, hexec.trans (finish_of_kept hmap.kept), by rw [hport], by rw [hport], by rw [hport, rejectCode_eq], by rw [hport, hserves], ?_⟩
    refine mem_servingPorts.trans ((and_iff_right hp).trans ?_)
    rw [farPortOf_setFarPort_self, hserves]

end Sys2Proof.Proofs
end

section
/-!
PROOFS. Patrol scrub, corrected-error rates and the drain of the write buffer (R348 to R350, R354, R356, R469).
-/

namespace Sys2Proof.Machine

open Sys2Proof

/-! ### Patrol scrub (R348, R350, R354) -/

theorem exec_patrolScrub_clean {s : State} {n o : Nat} (hn : n < 256) (ho : o % 32 = 0) : exec (.patrolScrub ⟨n, o, .clean⟩) s = .next s := by
  rw [exec, execPatrolScrub, if_pos ⟨hn, ho⟩]
  dsimp only
  rw [ite_self]
  exact finish_self s

/-- The tile with the poison marker at a word. -/
def Tile.marked (x : Tile) (w : Nat) : Tile := { x with poison := if x.poison.contains w then x.poison else x.poison ++ [w] }

theorem mem_poison_marked (x : Tile) (w : Nat) : w ∈ (x.marked w).poison := by
  unfold Tile.marked
  dsimp only
  split
  next hmarked => exact List.contains_iff_mem.1 hmarked
  next => exact List.mem_append_right _ (List.mem_singleton.2 rfl)

/-- The package with the poison marker written at the word of offset o of region n. -/
def markPoison (n o : Nat) (s : State) : State :=
  let r := regionOf s n
  setRegion s n { r with near := sset r.near (o / r.tileBytes) ((sgetD r.near (o / r.tileBytes) {}).marked (o % r.tileBytes / 32)) }

/-- The record of an uncorrectable word, whose stack and near address are free values (log entry 17). -/
def scrubRecord (syndrome : Nat) (s : State) : ErrRec :=
  { cls := 2, action := 0, code := 0x11, unitKind := 4, unit := (Config.freeValue s.freeCtr).toNat % Config.stackCount s.part, space := 1
    addr := (Config.freeValue (s.freeCtr + 1)).toNat, detail0 := syndrome }

/-- The package once the marker is written and the two free values of its record are taken. -/
def poisonFound (n o : Nat) (s : State) : State := { markPoison n o s with freeCtr := s.freeCtr + 2 }

theorem scrubPoison_eq (n o syndrome : Nat) (s : State) :
    scrubPoison n o syndrome s
      = repairTile n (o / (regionOf s n).tileBytes) (scrubRecord syndrome s) (countUe 1 (detect (scrubRecord syndrome s) none (poisonFound n o s))) := rfl

theorem slookup_poisonFound {s : State} {n o : Nat} {x : Tile} (hx : slookup (regionOf s n).near (o / (regionOf s n).tileBytes) = some x) :
    slookup (regionOf (poisonFound n o s) n).near (o / (regionOf s n).tileBytes) = some (x.marked (o % (regionOf s n).tileBytes / 32)) := by
  have hregion : regionOf (poisonFound n o s) n = regionOf (markPoison n o s) n := rfl
  rw [hregion, markPoison, regionOf_setRegion_self, sgetD, hx, slookup_sset_self]
  rfl

@[simp] theorem regionOf_countUe (k n : Nat) (s : State) : regionOf (countUe k s) n = regionOf s n := rfl

/-- A dirty tile of a region that holds no model's near tensors has no source of repair (R350). -/
theorem repairTile_dirty {s : State} {n t : Nat} {x : Tile} (hx : slookup (regionOf s n).near t = some x) (hdirty : x.dirty = true)
    (hmodels : ∀ m ∈ s.obj.models, m.nearRegion ≠ n) (r : ErrRec) : repairTile n t r s = s := by
  have hnone : s.obj.models.find? (fun m => m.nearRegion == n) = none := List.find?_eq_none.2 fun m hm => by simpa using hmodels m hm
  have hreplica : replicaTile s n t = false := by
    rw [replicaTile, hnone]
  rw [repairTile, hx]
  simp [hdirty, hreplica]

/-- What scrub does of a word that it visits. -/
def scrubWord (n o : Nat) (find : ScrubFind) (s : State) : State :=
  match find with
  | .clean => s
  | .correctable => countCeNear 1 s
  | .uncorrectable syndrome => scrubPoison n o syndrome s

section

variable {s : State} {n o : Nat} (hn : n < 256) (ho : o % 32 = 0) (hclocks : clocksRun s = true) (hscrub : fieldOf s.mem.ctl 15 8 ≠ 0)
  (hretain : s.gov.st ≠ .retain) {x : Tile} (hx : slookup (regionOf s n).near (o / (regionOf s n).tileBytes) = some x)

include hn ho hclocks hscrub hretain hx

/-- Scrub visits a word of a tile in the near copy. -/
theorem exec_patrolScrub_visits (find : ScrubFind) :
    exec (.patrolScrub ⟨n, o, find⟩) s = finish s (scrubWord n o find s) := by
  rw [exec, execPatrolScrub, if_pos ⟨hn, ho⟩]
  dsimp only
  rw [if_pos (by simp [hclocks, hscrub, hretain, hx])]
  cases find <;> rfl

theorem exec_patrolScrub_correctable :
    exec (.patrolScrub ⟨n, o, .correctable⟩) s = .next { s with flt := { s.flt with ceNear := min 0xFFFFFF (s.flt.ceNear + 1) } } :=
  exec_patrolScrub_visits hn ho hclocks hscrub hretain hx .correctable

/-- An uncorrectable error of a dirty tile that nothing restores: the marker is written and counted, and the record stands newest. -/
theorem exec_patrolScrub_uncorrectable {syndrome : Nat} (hdirty : x.dirty = true) (hmodels : ∀ m ∈ s.obj.models, m.nearRegion ≠ n)
    (hflow : Claims.eventsFlow s) :
    ∃ d, exec (.patrolScrub ⟨n, o, .uncorrectable syndrome⟩) s = .next (countUe 1 d) ∧ EventOnly (poisonFound n o s) d ∧ NewestIs (scrubRecord syndrome s) s d := by
  obtain ⟨hevent, hnewest⟩ := detect_unattributed (r := scrubRecord syndrome s) (s := poisonFound n o s) hflow (show 64 ≤ 0xFFFF by decide) rfl
  have hexec := exec_patrolScrub_visits hn ho hclocks hscrub hretain hx (.uncorrectable syndrome)
  rw [scrubWord, scrubPoison_eq] at hexec
  generalize detect (scrubRecord syndrome s) none (poisonFound n o s) = d at hevent hnewest hexec
  have hlookup : slookup (regionOf (countUe 1 d) n).near (o / (regionOf s n).tileBytes) = some (x.marked (o % (regionOf s n).tileBytes / 32)) := by
    rw [regionOf_countUe, hevent.regionOf_eq, slookup_poisonFound hx]
  rw [repairTile_dirty hlookup hdirty (by rw [hevent]; exact hmodels)] at hexec
  exact ⟨d, hexec.trans (finish_of_kept hevent.kept), hevent, hnewest⟩

end

/-! ### Corrected-error rates (R469) -/

/-- The package with corrected SRAM words counted. -/
def countCeSram (events : Nat) (s : State) : State := { s with flt := { s.flt with ceSram := saturate 0xFFFF (s.flt.ceSram + events) } }

/-- The record of a unit whose corrected events reached CE_LIMIT. -/
def ceRateRecord (u : UnitRef) (events : Nat) (s : State) : ErrRec :=
  { cls := 1, action := 0, code := 0x10, unitKind := unitKindOf u, unit := unitNumber u, count := fieldOf s.flt.ctl 15 8, detail0 := events }

theorem exec_ceRate {s : State} {u : UnitRef} {events : Nat} (hpresent : unitPresent s u = true) (hlimit : fieldOf s.flt.ctl 15 8 ≤ events)
    (hclocks : clocksRun s = true) (hstage : 4 ≤ s.boot.stage) :
    exec (.ceRate u events) s = finish s (detect (ceRateRecord u events s) (some u) (countCeSram events s)) := by
  rw [exec, execCeRate, if_pos ⟨hpresent, hlimit⟩, if_pos (by simp [hclocks, hstage])]
  rfl

/-- A unit in placement that reaches CE_LIMIT enters WATCH, and the record stands newest. -/
theorem exec_ceRate_first {s : State} {u : UnitRef} {events : Nat} (hpresent : unitPresent s u = true) (hlimit : fieldOf s.flt.ctl 15 8 ≤ events)
    (hclocks : clocksRun s = true) (hstage : 4 ≤ s.boot.stage) (hwatch : inWatch s u = false) (hout : unitOut s u = false) (hflow : Claims.eventsFlow s) :
    ∃ t, exec (.ceRate u events) s = .next t ∧ EventOnly (countCeSram events s) t ∧ NewestIs (firstEvent (ceRateRecord u events s)) s t ∧ inWatch t u = true := by
  have hwatch' : inWatch (countCeSram events s) u = false := by cases u <;> exact hwatch
  have hout' : unitOut (countCeSram events s) u = false := by cases u <;> exact hout
  have hexec := exec_ceRate hpresent hlimit hclocks hstage
  obtain ⟨hevent, hnewest, hin⟩ :=
    detect_firstOf (r := ceRateRecord u events s) (s := countCeSram events s) hflow (show 64 ≤ 0xFFFF by decide) rfl rfl hwatch' hout'
  generalize detect (ceRateRecord u events s) (some u) (countCeSram events s) = t at hexec hevent hnewest hin
  exact ⟨t, hexec.trans (finish_of_kept hevent.kept), hevent, hnewest, hin⟩

/-! ### Draining into a resident tile (R356) -/

/-- The package with the units wb in its write buffer. -/
def withBuffer (wb : List WbUnit) (s : State) : State := { s with mem := { s.mem with wb := wb } }

theorem exec_writeBufferDrain {s : State} {u : WbUnit} {rest : List WbUnit} (hwb : s.mem.wb = u :: rest) (hclocks : clocksRun s = true) :
    exec .writeBufferDrain s = finish s (drainUnit u (withBuffer rest s)) := by
  rw [exec, execWriteBufferDrain, hwb]
  dsimp only
  rw [if_pos hclocks]
  rfl

theorem exec_writeBufferDrain_nil {s : State} (hwb : s.mem.wb = []) : exec .writeBufferDrain s = .next s := by
  rw [exec, execWriteBufferDrain, hwb]
  exact finish_self s

/-- A range that lies within one tile is one span. -/
theorem tileSpans_within {tb o len : Nat} (hpos : 0 < len) (hfit : o % tb + len ≤ tb) : tileSpans tb (len + 1) o len = [(o / tb, o % tb, len)] := by
  have hmin : min len (tb - o % tb) = len := by omega
  obtain ⟨k, rfl⟩ := Nat.exists_eq_succ_of_ne_zero hpos.ne'
  rw [tileSpans, if_neg (Nat.succ_ne_zero k), hmin]
  dsimp only
  rw [Nat.sub_self, tileSpans, if_pos rfl]

/-- A tile that is resident is used now, and nothing else changes. -/
theorem fillTile_resident {s : State} {n t : Nat} {x : Tile} (hx : slookup (regionOf s n).near t = some x) :
    regionOf (fillTile s n t) n = { regionOf s n with near := sset (regionOf s n).near t { x with lastUse := s.mem.useClock + 1 } } := by
  rw [fillTile, hx]
  exact regionOf_setRegion_self _ _ _

/-- Bytes stored within one resident tile: the tile takes them. -/
theorem slookup_storeTiles_resident {s : State} {n o : Nat} {bs : List Byte} {x : Tile} (hne : bs ≠ [])
    (hfit : o % (regionOf s n).tileBytes + bs.length ≤ (regionOf s n).tileBytes) (hx : slookup (regionOf s n).near (o / (regionOf s n).tileBytes) = some x)
    (dirty : Bool) (pois : List Nat) :
    ∃ words, slookup (regionOf (storeTiles dirty s n o bs pois) n).near (o / (regionOf s n).tileBytes)
      = some (tileWrite { x with lastUse := s.mem.useClock + 1 } (o % (regionOf s n).tileBytes) bs words dirty) := by
  unfold storeTiles
  dsimp only
  rw [tileSpans_within (List.length_pos_iff.2 hne) hfit, List.foldl_cons, List.foldl_nil]
  dsimp only
  rw [regionOf_setRegion_self, fillTile_resident hx, slookup_sset_self, sgetD_sset_self, List.drop_zero, List.take_length]
  exact ⟨_, rfl⟩

/-- The bytes written read back. -/
theorem readByte_writeBytes_self (bs : List Byte) {m : Mem} (a : Nat) (h : Memory.wf m = true) {i : Nat} (hi : i < bs.length) :
    readByte (writeBytes m a bs) (a + i) = bs.getD i 0 := by
  induction bs generalizing m a i with
  | nil => cases hi
  | cons b bs ih =>
    have hwf := writeByte_wf m a b h
    cases i with
    | zero => rw [writeBytes, readByte_writeBytes_other bs _ _ _ hwf (.inl (by omega)), Nat.add_zero, readByte_writeByte_self m a b h, List.getD_cons_zero]
    | succ i => rw [writeBytes, List.getD_cons_succ, Nat.add_comm i 1, ← Nat.add_assoc, ih (a + 1) hwf (Nat.lt_of_succ_lt_succ hi)]

theorem drainUnit_notServing {u : WbUnit} {s : State} (h : (regionOf s u.region).serves = false) : drainUnit u s = s := if_neg (by simp [h])

/-- A unit whose bytes are one run drains into a serving WRITE_BACK region as one store. -/
theorem drainUnit_oneRun {u : WbUnit} {s : State} {o : Nat} {bs : List Byte} (hserves : (regionOf s u.region).serves = true)
    (hback : (regionOf s u.region).writeBack = true)
    (hruns : runsOf (sortBy (fun a b : Nat × Byte => decide (a.1 < b.1)) u.bytes) = [(o, bs)]) :
    ∃ pois, drainUnit u s = storeTiles true s u.region (4096 * u.unit + o) bs pois := by
  unfold drainUnit
  dsimp only
  rw [if_pos hserves, hruns, List.foldl_cons, List.foldl_nil, if_pos (by simp [hback]), regionStore]
  exact ⟨_, rfl⟩

/-- A unit of one run that lies within a resident tile: the tile takes its bytes and is dirty, and no other region changes. -/
theorem drainUnit_resident {u : WbUnit} {s : State} {o : Nat} {bs : List Byte} {x : Tile} (hserves : (regionOf s u.region).serves = true)
    (hback : (regionOf s u.region).writeBack = true)
    (hruns : runsOf (sortBy (fun a b : Nat × Byte => decide (a.1 < b.1)) u.bytes) = [(o, bs)]) (hne : bs ≠ [])
    (hfit : (4096 * u.unit + o) % (regionOf s u.region).tileBytes + bs.length ≤ (regionOf s u.region).tileBytes)
    (hx : slookup (regionOf s u.region).near ((4096 * u.unit + o) / (regionOf s u.region).tileBytes) = some x) :
    TilesOnly u.region s (drainUnit u s)
      ∧ ∃ words, slookup (regionOf (drainUnit u s) u.region).near ((4096 * u.unit + o) / (regionOf s u.region).tileBytes)
        = some (tileWrite { x with lastUse := s.mem.useClock + 1 } ((4096 * u.unit + o) % (regionOf s u.region).tileBytes) bs words true) := by
  obtain ⟨pois, hdrain⟩ := drainUnit_oneRun hserves hback hruns
  rw [hdrain]
  exact ⟨TilesOnly.storeTiles true s _ _ _ _, slookup_storeTiles_resident hne hfit hx true pois⟩

end Sys2Proof.Machine

namespace Sys2Proof.Proofs

open Sys2Proof Sys2Proof.Machine

/-- Settles O41: scrub by what it finds, a unit that reaches CE_LIMIT, and the drain of the oldest unit by its region. -/
theorem scrubAndDrain : Obligations.ScrubAndDrain := by
  refine ⟨fun s n o hn ho => exec_patrolScrub_clean hn ho, fun s n o hn ho hclocks hscrub hretain x hx => ⟨?_, fun syn hdirty hmodels hflow => ?_⟩,
    fun s u n hpresent hlimit hclocks hstage hwatch hout hflow => ?_, fun s u rest hwb hclocks => ?_, fun s hwb => exec_writeBufferDrain_nil hwb⟩
  · exact exec_patrolScrub_correctable hn ho hclocks hscrub hretain hx
  · obtain ⟨d, hexec, hevent, hnewest⟩ := exec_patrolScrub_uncorrectable hn ho hclocks hscrub hretain hx (syndrome := syn) hdirty hmodels hflow
    have hlookup := slookup_poisonFound hx
    rw [← hevent.regionOf_eq] at hlookup
    refine ⟨_, hexec, ⟨_, hlookup, mem_poison_marked x _, rfl, hdirty⟩, ?_, hnewest.recorded rfl rfl fun _ _ _ _ _ => ⟨rfl, rfl, rfl, rfl, rfl, rfl⟩,
      hevent.srv_eq⟩
    rw [hevent]
    rfl
  · obtain ⟨t, hexec, hevent, hnewest, hin⟩ := exec_ceRate_first hpresent hlimit hclocks hstage hwatch hout hflow
    refine ⟨t, hexec, hin, ?_, hnewest.recorded rfl rfl fun _ _ _ _ _ => ⟨rfl, rfl, rfl, rfl, rfl, rfl, rfl⟩, hevent.srv_eq⟩
    rw [hevent]
    rfl
  · have hexec := exec_writeBufferDrain hwb hclocks
    refine ⟨fun hserves => ?_, fun o bs x hserves hback hruns => ?_⟩
    · rw [drainUnit_notServing (s := withBuffer rest s) hserves] at hexec
      exact hexec
    · intro at0 hne hfit hx hwf
      obtain ⟨htiles, words, hlookup⟩ := drainUnit_resident (s := withBuffer rest s) hserves hback hruns hne hfit hx
      generalize drainUnit u (withBuffer rest s) = t at hexec htiles hlookup
      refine ⟨t, _, hexec.trans (finish_of_kept htiles.content.kept), ?_, hlookup, Bool.or_true _, fun i hi => ?_, fun i hi => ?_, htiles.others⟩
      · rw [htiles.content]
        rfl
      · exact readByte_writeBytes_self bs _ hwf hi
      · exact readByte_writeBytes_other bs _ _ _ hwf hi

end Sys2Proof.Proofs
end

section
/-!
PROOFS. The machine at reset (O3), and the writes to RING_ALLOC (R383, O23): a 64-bit write leaves the count it names, and takes effect where the
three conditions hold.
-/

namespace Sys2Proof.Machine

open Sys2Proof

/-! ### Reset -/

theorem allocOf_reset (f : Nat) : allocOf State.reset f = if f = 0 then 1024 else 0 := by
  by_cases hf : f = 0 <;> simp [allocOf, sgetD, State.reset, slookup, hf]

/-- The offsets of the reset map are fixed, so each register's view of the reset state is a closed term. -/
theorem windowView_reset : ∀ x ∈ Claims.resetMap, windowView State.reset 0 x.1 = x.2 := by
  decide +kernel

theorem resetRegisters : Claims.ResetRegisters :=
  ⟨fun _ => rfl, fun _ => rfl, allocOf_reset, rfl, rfl, fun _ => rfl, rfl, fun _ => rfl, fun _ => rfl, fun _ => rfl, rfl, rfl, rfl, rfl, rfl, rfl, rfl,
    rfl, rfl, rfl, rfl, rfl, rfl, rfl, rfl, fun _ => rfl, fun _ => ⟨rfl, rfl⟩, windowView_reset, rfl⟩

theorem resetCalendarLegal : Claims.ResetCalendarLegal := by
  unfold Claims.ResetCalendarLegal CalLegal HoldingLegal
  decide

/-! ### RING_ALLOC (R383) -/

/-- A 64-bit write of a count that fits its field. -/
theorem newAlloc_full {n : Nat} (hn : n < 2048) (s : State) (f : Nat) :
    newAlloc f ⟨0, .full, BitVec.ofNat 64 n⟩ s = sset s.port.alloc f n := by
  have hcount : fieldOf (BitVec.ofNat 64 n) 10 0 = n := by
    simp only [fieldOf, BitVec.toNat_ofNat, Nat.shiftRight_zero]
    omega
  rw [newAlloc, merged_full _ rfl, hcount]

theorem exec_ringAllocWrite {s : State} {f : Nat} (hf : f < 64) (w : RegAccess) :
    exec (.ringAllocWrite f w) s
      = .next (if (pfWrite w s && covers w 10 0 && allocAllowed f w s) = true then { s with port := { s.port with alloc := newAlloc f w s } } else s) := by
  show execRingAllocWrite f w s = _
  rw [execRingAllocWrite, if_pos hf]
  split <;> rfl

theorem allocAllowed_iff (f : Nat) (w : RegAccess) (s : State) :
    allocAllowed f w s = true
      ↔ s.port.vfEnable = false ∧ (∀ x ∈ ringsOf s 0, x.2.st = .disabled) ∧ ((newAlloc f w s).map Prod.snd).sum ≤ 1024 := by
  simp [allocAllowed, and_assoc]

theorem exec_ringAllocWrite_refused {s : State} {f : Nat} (hf : f < 64) {w : RegAccess} (h : ¬allocAllowed f w s = true) :
    exec (.ringAllocWrite f w) s = .next s := by
  rw [exec_ringAllocWrite hf, Bool.eq_false_iff.2 h, Bool.and_false, if_neg Bool.false_ne_true]

end Sys2Proof.Machine

namespace Sys2Proof.Proofs

open Sys2Proof Sys2Proof.Machine

/-- Settles O3: every field of the reset state is its table's value. -/
theorem resetValues : Obligations.ResetValues := ⟨resetRegisters, resetCalendarLegal⟩

/-- Settles O23: by whether the write meets the three conditions of R383. -/
theorem ringAllocation : Obligations.RingAllocation := by
  refine ⟨fun s f n hf hn hup hvf hrings => ⟨fun hsum => ?_, fun hsum => ?_⟩, fun s f w hf hshut => ?_, fun s f => rfl⟩
  · have hallowed := (allocAllowed_iff f ⟨0, .full, BitVec.ofNat 64 n⟩ s).2 ⟨hvf, hrings, by rwa [newAlloc_full hn]⟩
    rw [exec_ringAllocWrite hf, hallowed, newAlloc_full hn, if_pos (by simp [pfWrite, hup, covers])]
  · refine exec_ringAllocWrite_refused hf fun hallowed => ?_
    rw [allocAllowed_iff, newAlloc_full hn] at hallowed
    exact absurd hallowed.2.2 (Nat.not_le.2 hsum)
  · refine exec_ringAllocWrite_refused hf fun hallowed => ?_
    obtain ⟨hvf, hrings, -⟩ := (allocAllowed_iff f w s).1 hallowed
    rcases hshut with hon | ⟨x, hx, hst⟩
    · exact absurd (hvf.symm.trans hon) Bool.false_ne_true
    · exact hst (hrings x hx)

end Sys2Proof.Proofs
end

section
/-!
PROOFS. Ring commands (R384, O22): each command that reaches its pair is decided by what it finds, and changes that pair alone.
-/

namespace Sys2Proof.Machine

open Sys2Proof

theorem ringCmdOk_of_reach {s : State} {q : RingRef} (h : Claims.ringReach s q) : ringCmdOk q s = true := by
  obtain ⟨hfn, -, hup, hready, hexists, hpresent⟩ := h
  simp [ringCmdOk, ringExists, hup, hready, hfn, hexists, hpresent]

section
variable {s : State} {q : RingRef} (h : Claims.ringReach s q)
include h

theorem exec_ringEnable :
    exec (.ringEnable q) s = .next (if enableResult q s = 0 then setRing s q (enabledPair (ringOf s q)) else setResult q (enableResult q s) s) := by
  show execRingEnable q s = _
  rw [execRingEnable, if_pos ⟨h.1, h.2.1⟩, if_pos (ringCmdOk_of_reach h)]
  split <;> rfl

theorem exec_ringDisable :
    exec (.ringDisable q) s
      = .next (if disableResult q s = 0 then setRing s q { ringOf s q with st := .stopping, result := 0 } else setResult q (disableResult q s) s) := by
  show execRingDisable q s = _
  rw [execRingDisable, if_pos ⟨h.1, h.2.1⟩, if_pos (ringCmdOk_of_reach h)]
  split <;> rfl

theorem exec_ringResume :
    exec (.ringResume q) s
      = .next (if (ringOf s q).st = .frozen then setRing s q { ringOf s q with st := .active, result := 0, reread := true } else setResult q 1 s) := by
  show execRingResume q s = _
  rw [execRingResume, if_pos ⟨h.1, h.2.1⟩, if_pos (ringCmdOk_of_reach h)]
  split <;> rfl

theorem exec_ringReset :
    exec (.ringReset q) s
      = .next (if (ringOf s q).st = .active ∨ (ringOf s q).st = .frozen then
            setRing s q { ringOf s q with st := .active, result := 0, reread := true, sqHead := (ringOf s q).producer }
          else setResult q 1 s) := by
  show execRingReset q s = _
  rw [execRingReset, if_pos ⟨h.1, h.2.1⟩, if_pos (ringCmdOk_of_reach h)]
  dsimp only
  split <;> rfl

end

/-! ### What ENABLE finds -/

/-- The sizes and CQ_SEL of the pair are in their ranges. -/
def cfgInRange (s : State) (q : RingRef) : Prop :=
  let cfg := (ringOf s q).cfg
  (4 ≤ fieldOf cfg 31 27 ∧ fieldOf cfg 31 27 ≤ 16) ∧ (4 ≤ fieldOf cfg 26 22 ∧ fieldOf cfg 26 22 ≤ 16) ∧ fieldOf cfg 41 32 < allocOf s q.fn

theorem cfgInRange_iff (s : State) (q : RingRef) :
    (within 4 16 (ringOf s q).cqLog2 && within 4 16 (ringOf s q).sqLog2 && decide ((ringOf s q).cqSel < allocOf s q.fn)) = true ↔ cfgInRange s q := by
  simp only [within, Bool.and_eq_true, decide_eq_true_eq]
  exact and_assoc

section
variable {s : State} {q : RingRef}

theorem enableResult_wrongState (hst : (ringOf s q).st ≠ .disabled) : enableResult q s = 1 := if_pos hst

variable (hst : (ringOf s q).st = .disabled)
include hst

theorem enableResult_outOfRange (hcfg : ¬cfgInRange s q) : enableResult q s = 2 := by
  rw [← cfgInRange_iff, Bool.not_eq_true] at hcfg
  rw [enableResult, if_neg (not_not_intro hst), hcfg]
  rfl

theorem enableResult_inRange (hcfg : cfgInRange s q) :
    enableResult q s
      = if fieldOf (ringOf s q).cfg 41 32 ≠ q.ring ∧ (ringOf s ⟨q.fn, fieldOf (ringOf s q).cfg 41 32⟩).st ≠ .active then 3 else 0 := by
  rw [← cfgInRange_iff] at hcfg
  rw [enableResult, if_neg (not_not_intro hst), hcfg]
  rfl

end

/-! ### What DISABLE finds -/

section
variable {s : State} {q : RingRef}

theorem disableResult_wrongState (hactive : (ringOf s q).st ≠ .active) (hfrozen : (ringOf s q).st ≠ .frozen) : disableResult q s = 1 :=
  if_pos ⟨hactive, hfrozen⟩

variable (hst : (ringOf s q).st = .active ∨ (ringOf s q).st = .frozen)
include hst

theorem disableResult_of_running :
    disableResult q s
      = if (ringsOf s q.fn).any (fun x => x.1 != q.ring && x.2.st == .active && x.2.cqSel == q.ring) = true then 4 else 0 :=
  if_neg fun h => hst.elim h.1 h.2

theorem disableResult_inUse (huse : ∃ x ∈ ringsOf s q.fn, x.1 ≠ q.ring ∧ x.2.st = .active ∧ fieldOf x.2.cfg 41 32 = q.ring) : disableResult q s = 4 := by
  obtain ⟨x, hx, hne, hactive, hsel⟩ := huse
  have huses : (x.1 != q.ring && x.2.st == .active && x.2.cqSel == q.ring) = true := by
    simp [RingPair.cqSel, hne, hactive, hsel]
  rw [disableResult_of_running hst, if_pos (List.any_eq_true.2 ⟨x, hx, huses⟩)]

theorem disableResult_free (hfree : ∀ x ∈ ringsOf s q.fn, x.1 = q.ring ∨ x.2.st ≠ .active ∨ fieldOf x.2.cfg 41 32 ≠ q.ring) : disableResult q s = 0 := by
  rw [disableResult_of_running hst, if_neg]
  intro hany
  obtain ⟨x, hx, huses⟩ := List.any_eq_true.1 hany
  simp only [Bool.and_eq_true, bne_iff_ne, beq_iff_eq] at huses
  obtain ⟨⟨hne, hactive⟩, hsel⟩ := huses
  rcases hfree x hx with h | h | h
  exacts [hne h, h hactive, h hsel]

end

/-! ### The commands -/

theorem ringCommandsAct : Claims.RingCommandsAct := by
  intro s q h
  refine ⟨fun hst hcq hcq' hsq hsq' hsel hready => ?_, fun hst hfree => ?_, fun hst => ?_, fun hst => ?_⟩
  · have hzero : enableResult q s = 0 := by
      rw [enableResult_inRange hst ⟨⟨hcq, hcq'⟩, ⟨hsq, hsq'⟩, hsel⟩, if_neg]
      exact fun hbad => hready.elim hbad.1 hbad.2
    exact ⟨enabledPair (ringOf s q), by rw [exec_ringEnable h, if_pos hzero], rfl, rfl, rfl, rfl, rfl, rfl, rfl, rfl⟩
  · rw [exec_ringDisable h, if_pos (disableResult_free hst hfree)]
  · rw [exec_ringResume h, if_pos hst]
  · rw [exec_ringReset h, if_pos hst]

theorem ringCommandsFail : Claims.RingCommandsFail := by
  intro s q h
  refine ⟨fun hst => ?_, fun hst hout => ?_, fun hst hcq hcq' hsq hsq' hsel hother hidle => ?_, fun hactive hfrozen => ⟨?_, ?_⟩, fun hst huse => ?_,
    fun hst => ?_⟩
  · rw [exec_ringEnable h, enableResult_wrongState hst]
    rfl
  · have hcfg : ¬cfgInRange s q := by
      rintro ⟨⟨hcq, hcq'⟩, ⟨hsq, hsq'⟩, -⟩
      omega
    rw [exec_ringEnable h, enableResult_outOfRange hst hcfg]
    rfl
  · have hthree : enableResult q s = 3 := by
      rw [enableResult_inRange hst ⟨⟨hcq, hcq'⟩, ⟨hsq, hsq'⟩, hsel⟩, if_pos ⟨hother, hidle⟩]
    rw [exec_ringEnable h, hthree]
    rfl
  · rw [exec_ringDisable h, disableResult_wrongState hactive hfrozen]
    rfl
  · rw [exec_ringReset h, if_neg (not_or.2 ⟨hactive, hfrozen⟩)]
    rfl
  · rw [exec_ringDisable h, disableResult_inUse hst huse]
    rfl
  · rw [exec_ringResume h, if_neg hst]
    rfl

theorem inFlight_eq_zero {s : State} {q : RingRef} (h : ∀ x ∈ s.srv.slots, x.2.fn = q.fn → x.2.ring = q.ring → x.2.silent = true) : inFlight s q = 0 := by
  refine List.countP_eq_zero.2 fun x hx hflight => ?_
  simp only [Bool.and_eq_true, beq_iff_eq, Bool.not_eq_true'] at hflight
  obtain ⟨⟨hfn, hring⟩, hsilent⟩ := hflight
  exact absurd (hsilent.symm.trans (h x hx hfn hring)) Bool.false_ne_true

theorem ringStops : Claims.RingStops := by
  intro s q hfn hring hst hdone
  show execRingStopped q s = _
  rw [execRingStopped, if_pos ⟨hfn, hring⟩]
  exact if_pos (by simp [hst, inFlight_eq_zero hdone])

end Sys2Proof.Machine

namespace Sys2Proof.Proofs

open Sys2Proof Sys2Proof.Machine

/-- Settles O22: each ring command by what it finds in its pair and in the pairs that post to it. -/
theorem ringCommands : Obligations.RingCommands := ⟨ringCommandsAct, ringCommandsFail, ringStops⟩

end Sys2Proof.Proofs
end

section
/-!
PROOFS. Completion entries and interrupts (R381, R387, R390, R402; O24, O25): where the bytes of an entry stand, what posting does to each ring
pair, and what a raised vector leaves.
-/

namespace Sys2Proof.Machine

open Sys2Proof

/-! ### Ring pairs after a write -/

theorem ringOf_setRing (s : State) (q m : RingRef) (p : RingPair) : ringOf (setRing s q p) m = if ringKey m = ringKey q then p else ringOf s m := by
  split
  next h => simp [ringOf, h]
  next h => simp [ringOf, sgetD_sset_other _ _ _ _ _ h]

/-- Two names of one pair read the same. -/
theorem ringOf_of_key {s : State} {q m : RingRef} (h : ringKey m = ringKey q) : ringOf s m = ringOf s q := by
  rw [ringOf, ringOf, h]

@[simp] theorem ringOf_hostWrite (s : State) (a : Nat) (bs : List Byte) (m : RingRef) : ringOf (hostWrite s a bs) m = ringOf s m := rfl

@[simp] theorem ringOf_traceCommand (tag opcode status : Nat) (s : State) (m : RingRef) : ringOf (traceCommand tag opcode status s) m = ringOf s m := by
  rw [traceCommand_rest]
  rfl

/-! ### A raised vector (R381) -/

theorem raiseMsix_masked {f v : Nat} {s : State} (h : (msixOf s f v).masked = true) :
    raiseMsix f v s = setMsix s f v { msixOf s f v with pending := true } := if_pos h

theorem raiseMsix_unmasked {f v : Nat} {s : State} (h : (msixOf s f v).masked = false) :
    raiseMsix f v s = hostWrite s (msixOf s f v).addr (leBytes 4 (msixOf s f v).data) := if_neg (by simp [h])

/-- A vector touches the MSI-X table of the host port alone. -/
theorem raiseMsix_port (f v : Nat) (s : State) : (raiseMsix f v s).port = { s.port with msix := (raiseMsix f v s).port.msix } := by
  unfold raiseMsix
  dsimp only
  split <;> rfl

@[simp] theorem ringOf_raiseMsix (f v : Nat) (s : State) (m : RingRef) : ringOf (raiseMsix f v s) m = ringOf s m := by
  rw [ringOf, raiseMsix_port]
  rfl

/-- What a raised vector leaves: its pending bit while it is masked, else its message in host memory. -/
theorem raiseMsix_effect (f v : Nat) (s : State) :
    let m := msixOf s f v
    (m.masked = true → msixOf (raiseMsix f v s) f v = { m with pending := true } ∧ (raiseMsix f v s).mem = s.mem)
      ∧ (m.masked = false → Memory.wf s.mem.host = true → readBytes (raiseMsix f v s).mem.host m.addr 4 = leBytes 4 m.data) := by
  refine ⟨fun hmasked => ?_, fun hmasked hwf => ?_⟩
  · rw [raiseMsix_masked hmasked]
    exact ⟨sgetD_sset_self _ _ _ _, rfl⟩
  · rw [raiseMsix_unmasked hmasked]
    exact readBytes_writeBytes_self (leBytes 4 (msixOf s f v).data) _ _ hwf

/-! ### Posting (R390, R402) -/

/-- A pair with another count toward its interrupt. -/
def RingPair.counting (p : RingPair) (n : Nat) (since : Option Nat) : RingPair := { p with modCountNow := n, modSince := since }

/-- Moderation touches the counts of pairs alone. -/
theorem ringOf_moderate (cq : RingRef) (urgent : Bool) (s : State) (m : RingRef) :
    ∃ n since, ringOf (moderate cq urgent s) m = (ringOf s m).counting n since := by
  have counted (n : Nat) (since : Option Nat) :
      ∃ n' since', ringOf (setRing s cq ((ringOf s cq).counting n since)) m = (ringOf s m).counting n' since' := by
    rw [ringOf_setRing]
    split
    next h => exact ⟨_, _, by rw [ringOf_of_key h]⟩
    next h => exact ⟨_, _, rfl⟩
  unfold moderate
  dsimp only
  split
  · exact ⟨_, _, rfl⟩
  · split
    · rw [ringOf_raiseMsix]
      exact counted _ _
    · exact counted _ _

/-- The completion ring has one entry more and keeps everything else; every other pair is as it was, but for counts toward an interrupt. -/
theorem ringOf_postCompletion (q : RingRef) (c : Cpl) (k : Nat) (s : State) (m : RingRef) :
    ∃ n since, ringOf (postCompletion q c k s) m
      = (if ringKey m = ringKey (cqOf s q) then (ringOf s (cqOf s q)).afterEntry k else ringOf s m).counting n since := by
  unfold postCompletion
  dsimp only
  rw [ringOf_traceCommand]
  obtain ⟨n, since, h⟩ := ringOf_moderate (cqOf s q) (c.froze || c.aged) (setRing
    (hostWrite s ((ringOf s (cqOf s q)).cqBase.toNat + 32 * (ringOf s (cqOf s q)).cqTail) (cplBytes c (ringOf s q).sqHead q.ring (ringOf s (cqOf s q)).phase))
    (cqOf s q) ((ringOf s (cqOf s q)).afterEntry k)) m
  rw [ringOf_setRing, ringOf_hostWrite] at h
  exact ⟨n, since, h⟩

theorem cqTail_postCompletion (q : RingRef) (c : Cpl) (k : Nat) (s : State) :
    (ringOf (postCompletion q c k s) (cqOf s q)).cqTail = ((ringOf s (cqOf s q)).cqTail + 1) % (ringOf s (cqOf s q)).cqSize := by
  obtain ⟨n, since, h⟩ := ringOf_postCompletion q c k s (cqOf s q)
  rw [h, if_pos rfl]
  rfl

/-- A field that neither an entry nor a count touches. -/
theorem ringOf_postCompletion_field {α : Type} (field : RingPair → α) (hentry : ∀ p k, field (p.afterEntry k) = field p)
    (hcount : ∀ p n since, field (p.counting n since) = field p) (q : RingRef) (c : Cpl) (k : Nat) (s : State) (m : RingRef) :
    field (ringOf (postCompletion q c k s) m) = field (ringOf s m) := by
  obtain ⟨n, since, h⟩ := ringOf_postCompletion q c k s m
  rw [h, hcount]
  split
  next hkey => rw [hentry, ringOf_of_key hkey]
  next => rfl

section
variable (q : RingRef) (c : Cpl) (k : Nat) (s : State)

theorem postCompletion_gov : (postCompletion q c k s).gov = s.gov := by rw [postCompletion_rest]

theorem postCompletion_srv : (postCompletion q c k s).srv = s.srv := by rw [postCompletion_rest]

theorem postCompletion_obj : (postCompletion q c k s).obj = s.obj := by rw [postCompletion_rest]

theorem postCompletion_cores : (postCompletion q c k s).cores = s.cores := by rw [postCompletion_rest]

end

/-! ### The commands of interrupts and held completions -/

theorem exec_moderationTimeout_ring {s : State} {q : RingRef} (hfn : q.fn < 64) (hring : q.ring < 1024) {since : Nat}
    (hirq : bitOf (ringOf s q).cfg 19 = true) (htime : fieldOf (ringOf s q).cfg 49 42 ≠ 0) (hsince : (ringOf s q).modSince = some since)
    (hdue : since + 1000 * fieldOf (ringOf s q).cfg 49 42 ≤ s.clk.ts) :
    exec (.interruptModerationTimeout q none) s
      = finish s (raiseMsix q.fn (fieldOf (ringOf s q).cfg 18 14) (setRing s q ((ringOf s q).counting 0 none))) := by
  show execInterruptModerationTimeout q none s = _
  rw [execInterruptModerationTimeout, if_pos ⟨hfn, hring⟩]
  exact if_pos (by simp [RingPair.irqEn, RingPair.modTime, now, hirq, htime, hsince, hdue])

/-- The port once the stream vector of key k has been raised. -/
def streamRaised (k : Nat) (s : State) : State :=
  { s with port := { s.port with streamDue := s.port.streamDue.filter (· != k), streamAt := sset s.port.streamAt k s.clk.ts } }

theorem exec_moderationTimeout_stream {s : State} {q : RingRef} (hfn : q.fn < 64) (hring : q.ring < 1024) {v : Nat}
    (hheld : 32 * q.fn + v ∈ s.port.streamDue)
    (hdue : ∀ last, slookup s.port.streamAt (32 * q.fn + v) = some last → last + 1000 * fieldOf (ringOf s q).cfg 49 42 ≤ s.clk.ts) :
    exec (.interruptModerationTimeout q (some v)) s = finish s (raiseMsix q.fn v (streamRaised (32 * q.fn + v) s)) := by
  have hall : (slookup s.port.streamAt (32 * q.fn + v)).all (fun t => decide (t + 1000 * (ringOf s q).modTime ≤ now s)) = true := by
    rw [Option.all_eq_true]
    exact fun last hlast => decide_eq_true (hdue last hlast)
  show execInterruptModerationTimeout q (some v) s = _
  rw [execInterruptModerationTimeout, if_pos ⟨hfn, hring⟩]
  exact if_pos (by rw [hall, List.contains_iff_mem.2 hheld]; rfl)

/-- A pair with one doorbell error completion fewer held. -/
def RingPair.oneHeldLess (p : RingPair) : RingPair := { p with heldErrors := p.heldErrors - 1 }

theorem exec_doorbellErrorCompletion {s : State} {q : RingRef} (hfn : q.fn < 64) (hring : q.ring < 1024) (hheld : (ringOf s q).heldErrors ≠ 0)
    (hroom : cqFree (ringOf s (cqOf s q)) ≠ 0) :
    exec (.doorbellErrorCompletion q) s
      = finish s (postCompletion q { tag := 0xFFFFFFFF, opcode := 0, status := 0x14, froze := true } 0 (setRing s q (ringOf s q).oneHeldLess)) := by
  show execDoorbellErrorCompletion q s = _
  rw [execDoorbellErrorCompletion, if_pos ⟨hfn, hring⟩]
  exact if_pos (by simp [hheld, hroom])

end Sys2Proof.Machine

namespace Sys2Proof.Proofs

open Sys2Proof Sys2Proof.Machine

/-- Settles O24: where no interrupt is raised, posting is one write to host memory and one to the completion ring. -/
theorem completionEntry : Obligations.CompletionEntry := by
  intro s q c k cq p a t hirq hwf
  have ht : t = traceCommand c.tag c.opcode c.status
      (setRing (hostWrite s a (cplBytes c (ringOf s q).sqHead q.ring p.phase)) cq (p.afterEntry k)) := postCompletion_of_irqOff hirq c k
  have hcq : ringOf t cq = p.afterEntry k := by rw [ht, ringOf_traceCommand, ringOf_setRing_self]
  have hhost : t.mem.host = writeBytes s.mem.host a (cplBytes c (ringOf s q).sqHead q.ring p.phase) := by
    rw [ht, traceCommand_rest]
    rfl
  have hlength := length_cplBytes c (ringOf s q).sqHead q.ring p.phase
  refine ⟨?_, fun b hb => ?_, by rw [hcq]; rfl, by rw [hcq]; rfl, by rw [hcq]; rfl, fun m _ hm => ?_,
    postCompletion_srv q c k s, postCompletion_obj q c k s, postCompletion_gov q c k s, postCompletion_cores q c k s⟩
  · rw [hhost, ← hlength]
    exact readBytes_writeBytes_self _ _ _ hwf
  · rw [hhost]
    exact readByte_writeBytes_other _ _ _ _ hwf (by rwa [hlength])
  · rw [ht, ringOf_traceCommand, ringOf_setRing, if_neg hm, ringOf_hostWrite]

/-- Settles O25: a moderation timeout raises its vector, and a held completion is posted as any other. -/
theorem moderationAndHeldErrors : Obligations.ModerationAndHeldErrors := by
  refine ⟨fun s q hfn hring since hirq htime hsince hdue => ?_, fun s q v hfn hring hheld hdue => ?_, fun s q hfn hring hheld hroom => ?_⟩
  · refine ⟨_, exec_moderationTimeout_ring hfn hring hirq htime hsince hdue, ?_⟩
    have hcount : ringOf (raiseMsix q.fn (fieldOf (ringOf s q).cfg 18 14) (setRing s q ((ringOf s q).counting 0 none))) q
        = (ringOf s q).counting 0 none := by
      rw [ringOf_raiseMsix, ringOf_setRing_self]
    exact ⟨congrArg RingPair.modCountNow hcount, congrArg RingPair.modSince hcount,
      raiseMsix_effect q.fn (fieldOf (ringOf s q).cfg 18 14) (setRing s q ((ringOf s q).counting 0 none))⟩
  · refine ⟨_, exec_moderationTimeout_stream hfn hring hheld hdue, ?_, ?_, fun hmasked => ?_⟩
    · show _ ∉ (raiseMsix q.fn v (streamRaised (32 * q.fn + v) s)).port.streamDue
      rw [raiseMsix_port]
      simp [streamRaised]
    · show slookup (raiseMsix q.fn v (streamRaised (32 * q.fn + v) s)).port.streamAt _ = _
      rw [raiseMsix_port]
      exact slookup_sset_self _ _ _
    · exact congrArg MsixEntry.pending ((raiseMsix_effect q.fn v (streamRaised (32 * q.fn + v) s)).1 hmasked).1
  · refine ⟨_, exec_doorbellErrorCompletion hfn hring hheld hroom, ?_, ?_⟩
    · refine (ringOf_postCompletion_field RingPair.heldErrors (fun _ _ => rfl) (fun _ _ _ => rfl) _ _ _ _ _).trans ?_
      rw [ringOf_setRing_self]
      rfl
    · have hcq : cqOf (setRing s q (ringOf s q).oneHeldLess) q = cqOf s q := by
        rw [cqOf, ringOf_setRing_self]
        rfl
      have htail := cqTail_postCompletion q { tag := 0xFFFFFFFF, opcode := 0, status := 0x14, froze := true } 0 (setRing s q (ringOf s q).oneHeldLess)
      rw [hcq, ringOf_setRing] at htail
      refine htail.trans ?_
      split
      next hkey =>
        rw [ringOf_of_key hkey]
        rfl
      next => rfl

end Sys2Proof.Proofs
end

section
/-!
PROOFS. The sweep of a function (R386, R387; O26): where one pair is flagged, the sweep swaps the summary with 0 and handles that pair, whose
submission record is taken or is a doorbell error.
-/

namespace Sys2Proof.Machine

open Sys2Proof

/-- Bytes apart from those written read as before. -/
theorem readBytes_writeBytes_other (bs : List Byte) {m : Mem} {a c n : Nat} (h : Memory.wf m = true) (hc : c + n ≤ a ∨ a + bs.length ≤ c) :
    readBytes (writeBytes m a bs) c n = readBytes m c n := by
  induction n generalizing c with
  | zero => rfl
  | succ n ih => rw [readBytes, readBytes, readByte_writeBytes_other bs m a c h (by omega), ih (by omega)]

/-! ### Doorbell errors (R387) -/

theorem ringOf_freezeRing (q : RingRef) (tag index opcode seq : Nat) (x : CmdErr) (s : State) :
    ringOf (freezeRing q tag index opcode seq x s) q = { ringOf s q with
      st := if (ringOf s q).st = .active then .frozen else (ringOf s q).st
      errTag := tag, errIndex := index, errOpcode := opcode, errStatus := x.status, errCount := (ringOf s q).errCount + 1
      page := ⟨tag, index, opcode, x.status, now s, x.check, x.off, x.block, seq⟩ } := ringOf_setRing_self _ _ _

/-- A doorbell error's completion, posted or held, leaves what the freeze wrote. -/
theorem ringOf_doorbellError_field {α : Type} (field : RingPair → α) (hentry : ∀ p k, field (p.afterEntry k) = field p)
    (hcount : ∀ p n since, field (p.counting n since) = field p) (hheld : ∀ p n, field { p with heldErrors := n } = field p)
    (q : RingRef) (seq : Nat) (s : State) :
    field (ringOf (doorbellError q seq s) q)
      = field (ringOf (freezeRing q 0xFFFFFFFF (ringOf s q).sqHead 0 seq { status := 0x14 } s) q) := by
  unfold doorbellError
  dsimp only
  split
  · rw [ringOf_setRing_self, hheld]
  · exact ringOf_postCompletion_field field hentry hcount _ _ _ _ _

/-! ### The records of a pair -/

/-- A pair whose submission record has been read. -/
def RingPair.sqRead (p : RingPair) (idx seq : Nat) : RingPair := { p with sqRec := some (idx, seq) }

section
variable {q : RingRef} {idx seq : Nat} {s : State} (hnew : (ringOf s q).sqRec ≠ some (idx, seq))
include hnew

theorem readSqRecord_taken (hidx : idx < (ringOf s q).sqSize) :
    readSqRecord q idx seq s
      = setRing (setRing s q ((ringOf s q).sqRead idx seq)) q { (ringOf s q).sqRead idx seq with producer := idx } := by
  rw [readSqRecord, if_neg hnew, if_neg (Nat.not_le.2 hidx), ringOf_setRing_self]
  rfl

theorem readSqRecord_error (hidx : (ringOf s q).sqSize ≤ idx) :
    readSqRecord q idx seq s = doorbellError q seq (setRing s q ((ringOf s q).sqRead idx seq)) := by
  rw [readSqRecord, if_neg hnew, if_pos hidx]
  rfl

end

/-- A pair that has just been handled. -/
def RingPair.handled (p : RingPair) (time : Nat) : RingPair := { p with handledAt := some time, reread := false }

/-- Where the completion record is as it was, handling a pair is taking its submission record. -/
theorem handlePair_of_cqRec {q : RingRef} {s : State} {bs : List Byte}
    (hbs : readBytes s.mem.host ((fnRegs s q.fn).doorbell.toNat + 16 * q.ring) 16 = bs) (hcq : (ringOf s q).cqRec = some (leAt bs 8 2, leAt bs 12 4)) :
    handlePair q s = readSqRecord q (leAt bs 0 2) (leAt bs 4 4) (setRing s q ((ringOf s q).handled s.clk.ts)) := by
  have hread : readCqRecord q (leAt bs 8 2) (leAt bs 12 4) (setRing s q ((ringOf s q).handled s.clk.ts))
      = setRing s q ((ringOf s q).handled s.clk.ts) := by
    rw [readCqRecord]
    exact if_pos (by rw [ringOf_setRing_self]; exact hcq)
  unfold handlePair
  dsimp only
  rw [hbs]
  exact congrArg _ hread

section
variable {q : RingRef} {s : State} {bs : List Byte} (hbs : readBytes s.mem.host ((fnRegs s q.fn).doorbell.toNat + 16 * q.ring) 16 = bs)
  (hcq : (ringOf s q).cqRec = some (leAt bs 8 2, leAt bs 12 4)) (hsq : (ringOf s q).sqRec ≠ some (leAt bs 0 2, leAt bs 4 4))
include hbs hcq hsq

/-- A submission record within the ring is the producer index last read. -/
theorem handlePair_takes (hidx : leAt bs 0 2 < (ringOf s q).sqSize) :
    (handlePair q s).mem = s.mem ∧ (ringOf (handlePair q s) q).producer = leAt bs 0 2 ∧ (ringOf (handlePair q s) q).st = (ringOf s q).st := by
  have hself := ringOf_setRing_self s q ((ringOf s q).handled s.clk.ts)
  rw [handlePair_of_cqRec hbs hcq, readSqRecord_taken (by rw [hself]; exact hsq) (by rw [hself]; exact hidx), ringOf_setRing_self, ringOf_setRing_self]
  exact ⟨rfl, rfl, rfl⟩

/-- A submission record beyond the ring freezes the pair with a doorbell error. -/
theorem handlePair_doorbellError (hst : (ringOf s q).st = .active) (hidx : (ringOf s q).sqSize ≤ leAt bs 0 2) :
    let r := ringOf (handlePair q s) q
    r.st = .frozen ∧ r.errTag = 0xFFFFFFFF ∧ r.errStatus = 0x14 ∧ r.producer = (ringOf s q).producer := by
  have hself := ringOf_setRing_self s q ((ringOf s q).handled s.clk.ts)
  rw [handlePair_of_cqRec hbs hcq, readSqRecord_error (by rw [hself]; exact hsq) (by rw [hself]; exact hidx), hself]
  have kept {α : Type} (field : RingPair → α) (hentry : ∀ p k, field (p.afterEntry k) = field p)
      (hcount : ∀ p n since, field (p.counting n since) = field p) (hheld : ∀ p n, field { p with heldErrors := n } = field p) (u : State) :=
    (ringOf_doorbellError_field field hentry hcount hheld q (leAt bs 4 4) u).trans (congrArg field (ringOf_freezeRing _ _ _ _ _ _ _))
  refine ⟨(kept RingPair.st (fun _ _ => rfl) (fun _ _ _ => rfl) (fun _ _ => rfl) _).trans ?_,
    kept RingPair.errTag (fun _ _ => rfl) (fun _ _ _ => rfl) (fun _ _ => rfl) _,
    kept RingPair.errStatus (fun _ _ => rfl) (fun _ _ _ => rfl) (fun _ _ => rfl) _,
    (kept RingPair.producer (fun _ _ => rfl) (fun _ _ _ => rfl) (fun _ _ => rfl) _).trans ?_⟩
  · rw [ringOf_setRing_self]
    exact if_pos hst
  · rw [ringOf_setRing_self]
    rfl

end

/-! ### The sweep -/

/-- The package once the summary of function f has been swapped with 0. -/
def summaryTaken (f : Nat) (s : State) : State := hostWrite s (fnRegs s f).summary.toNat (List.replicate 128 0)

@[simp] theorem summaryTaken_port (f : Nat) (s : State) : (summaryTaken f s).port = s.port := hostWrite_port _ _ _

@[simp] theorem summaryTaken_gov (f : Nat) (s : State) : (summaryTaken f s).gov = s.gov := hostWrite_gov _ _ _

theorem summaryTaken_host (f : Nat) (s : State) :
    (summaryTaken f s).mem.host = writeBytes s.mem.host (fnRegs s f).summary.toNat (List.replicate 128 0) := hostWrite_mem_host _ _ _

section
variable {s : State} {q : RingRef} (hst : (ringOf s q).st = .active) (hexists : ringExists s q = true) (hpower : s.gov.st = .active)
  (hdue : (ringOf s q).handledAt = none)
include hst hexists hpower hdue

theorem sweepPair_handles : sweepPair q.fn [q.ring] s q.ring = handlePair q s := by
  have hpair : pairDue q s = true := by rw [pairDue, hdue]
  simp [sweepPair, hexists, hst, hpair, hpower]

/-- A sweep that finds one pair flagged, which is due, handles it. -/
theorem sweepFn_lone (hasked : ∀ x ∈ ringsOf s q.fn, x.2.reread = false)
    (hflags : summaryBits (readBytes s.mem.host (fnRegs s q.fn).summary.toNat 128) = [q.ring]) :
    sweepFn q.fn s = handlePair q (summaryTaken q.fn s) := by
  have hnone : (ringsOf s q.fn).filter (fun x => x.2.reread) = [] := by
    simpa only [List.filter_eq_nil_iff, Bool.not_eq_true] using hasked
  have handles : sweepPair q.fn [q.ring] (summaryTaken q.fn s) q.ring = handlePair q (summaryTaken q.fn s) := by
    apply sweepPair_handles <;> simp only [ringOf, ringExists, allocOf, summaryTaken_port, summaryTaken_gov]
    exacts [hst, hexists, hpower, hdue]
  simp only [sweepFn, hflags, hnone, List.map_nil, List.filter_nil, List.append_nil, sortBy, List.foldl_cons, List.foldl_nil, insertBy]
  exact handles

end

/-- An event that finds room changes nothing outside the boot state. -/
theorem latch_boot (e : Event) (s : State) (h : s.boot.evq.length < 4096) : ∃ boot, latch e s = { s with boot := boot } := by
  obtain ⟨_, _, hlatch, -⟩ := latch_room e s h
  exact ⟨_, hlatch⟩

theorem exec_sweep {s : State} {f : Nat} (hf : f < 64) (hup : hostUp s = true) (hactive : (ringsOf s f).any (fun x => x.2.st == .active) = true)
    (hread : firstCovered (s.mem.hostFail ++ s.mem.hostBad) (fnRegs s f).summary.toNat ((fnRegs s f).summary.toNat + 128) = none) :
    exec (.sweep f) s = finish s (sweepFn f (latch (.sweep f) s)) := by
  show execSweep f s = _
  rw [execSweep, if_pos hf]
  exact if_pos (by rw [hup, hactive, hread]; rfl)

end Sys2Proof.Machine

namespace Sys2Proof.Proofs

open Sys2Proof Sys2Proof.Machine

/-- Settles O26: the sweep handles the flagged pair, by whether its INDEX is below the ring's size. -/
theorem sweepTakesDoorbells : Obligations.SweepTakesDoorbells := by
  intro s q hfn _ hup hst hexists hpower hwf hroom a db rec_ hactive hasked hflags hread hapart hdue hcq hsq
  obtain ⟨boot, hlatch⟩ := latch_boot (.sweep q.fn) s hroom
  have hexec := exec_sweep hfn hup hactive hread
  rw [hlatch, sweepFn_lone (s := { s with boot := boot }) hst hexists hpower hdue hasked hflags] at hexec
  have hmem := summaryTaken_host q.fn { s with boot := boot }
  have hport := summaryTaken_port q.fn { s with boot := boot }
  generalize summaryTaken q.fn { s with boot := boot } = u at hexec hmem hport
  have hpair : ringOf u q = ringOf s q := by rw [ringOf, hport]; rfl
  have hrec : readBytes u.mem.host ((fnRegs u q.fn).doorbell.toNat + 16 * q.ring) 16 = rec_ := by
    rw [fnRegs, hport, hmem]
    exact readBytes_writeBytes_other _ hwf (by rw [List.length_replicate]; exact hapart.symm)
  rw [← hpair] at hst hcq hsq
  refine ⟨_, hexec, fun hidx => ?_, fun hidx => ?_⟩
  · obtain ⟨hkept, hproducer, hstate⟩ := handlePair_takes hrec hcq hsq (hpair ▸ hidx)
    refine ⟨?_, hproducer, hstate.trans hst⟩
    show readBytes (handlePair q u).mem.host a 128 = _
    rw [hkept, hmem]
    exact readBytes_writeBytes_self (List.replicate 128 0) _ _ hwf
  · rw [← hpair]
    exact handlePair_doorbellError hrec hcq hsq hst (hpair ▸ hidx)

end Sys2Proof.Proofs
end

section
/-!
PROOFS. FENCE and ABORT (R393, R401; O29): each takes no slot, and waits in its place until what it waits for has ended, or completes at once.
-/

namespace Sys2Proof.Machine

open Sys2Proof

/-! ### One command that waits -/

section
variable {s : State} {h : Hold} (hholds : s.srv.holds = [h]) (hdrain : s.gov.draining = false)
include hholds hdrain

theorem settle_of_waiting (hwait : holdDone s h = false) : settle s = s := by
  have hall : settleAll s = s := by simp [settleAll, hholds, settleHolds, hwait]
  simp [settle, hall, drainCheck, hdrain]

theorem settle_of_done (hplace : h.fetchSeq < s.srv.fetchSeq) (hdone : holdDone s h = true) : settle s = releaseHold h s := by
  have hall : settleAll s = releaseHold h s := by simp [settleAll, hholds, settleHolds, hplace, hdone]
  have hdrain' : (releaseHold h s).gov.draining = false := by
    rw [releaseHold, postCompletion_rest]
    exact hdrain
  simp [settle, hall, drainCheck, hdrain']

end

/-- The package with one command that waits. -/
def withHold (u : State) (h : Hold) : State := { u with srv := { u.srv with holds := [h] } }

/-- A command that waits and may complete completes SUCCESS. -/
theorem releaseHold_lone {s : State} (hholds : s.srv.holds = []) (h : Hold) (hopcode : h.opcode ≠ 0x08) :
    releaseHold h (withHold s h)
      = postCompletion ⟨h.fn, h.ring⟩ { tag := h.tag, opcode := h.opcode, status := 0 } 1 s := by
  have hs : { s with srv := { s.srv with holds := [] } } = s := by rw [← hholds]
  have hnone : [h].filter (fun g => g.fetchSeq != h.fetchSeq) = [] := by simp
  simp only [releaseHold, withHold, if_neg hopcode, hnone, hs]

/-! ### When it waits -/

theorem holdDone_fence {s : State} {h : Hold} (hopcode : h.opcode = 0x3F) (hholds : s.srv.holds = [h]) :
    holdDone s h = true ↔ ∀ x ∈ s.srv.slots, x.2.fn = h.fn → x.2.ring = h.ring → x.2.fetchSeq < h.fetchSeq → x.2.silent = true := by
  simp [holdDone, hopcode, hholds]

theorem holdDone_abort {s : State} {h : Hold} (hopcode : h.opcode = 0x08) {x : Nat × Request} (hx : x ∈ s.srv.slots) (htarget : x.2.fetchSeq = h.target) :
    holdDone s h = false := by
  have hany : s.srv.slots.any (fun y => y.2.fetchSeq == h.target) = true := List.any_eq_true.2 ⟨x, hx, by simp [htarget]⟩
  simp [holdDone, hopcode, hany]

/-! ### The two rows -/

theorem fence_mem_entryRows : ((.fence, fenceBody) : (RingRef → Entry → Instr) × (RingRef → Entry → State → Except CmdErr Taken)) ∈ Claims.entryRows := by
  simp [Claims.entryRows]

theorem abort_mem_entryRows : ((.abort, abortBody) : (RingRef → Entry → Instr) × (RingRef → Entry → State → Except CmdErr Taken)) ∈ Claims.entryRows := by
  simp [Claims.entryRows]

theorem entOp_of_isRow {q : RingRef} {op : Nat} {e : Entry} (h : isRow q op e = true) : entOp e = op := by
  simp only [isRow, Bool.and_eq_true, beq_iff_eq] at h
  exact h.2

theorem isRow_of_runs_fence {s : State} {q : RingRef} {e : Entry} (h : runs s (.fence q e) = true) : isRow q 0x3F e = true := (Bool.and_eq_true_iff.1 h).1

theorem isRow_of_runs_abort {s : State} {q : RingRef} {e : Entry} (h : runs s (.abort q e) = true) : isRow q 0x08 e = true := (Bool.and_eq_true_iff.1 h).1

/-- The entry of a FENCE or an ABORT as it waits: it answers reply once the request fetched at target has ended. -/
def waitsAs (s : State) (q : RingRef) (e : Entry) (reply target : Nat) : Hold := ⟨q.fn, q.ring, entTag e, entOp e, s.srv.fetchSeq, reply, target⟩

theorem settleTaken_hold {s u : State} (hholds : u.srv.holds = []) (q : RingRef) (e : Entry) (index : Nat) (reply target : Nat) (v : State) :
    settleTaken q e index s.srv.fetchSeq (.ok (.hold reply target u)) v = withHold u (waitsAs s q e reply target) := by
  simp only [settleTaken, hholds, List.nil_append]
  rfl

section
variable {s : State} {q : RingRef} {e : Entry} (hruns : runs s (.abort q e) = true) (htakes : Claims.takes s q e) (hzero : entryZero e [(8, 6)] = .ok ())
  (hsel : entryAt e 12 2 < allocOf s q.fn) (hholds : s.srv.holds = []) (hdrain : s.gov.draining = false)

include hzero hsel in
theorem abortBody_fetched :
    abortBody q e (Claims.fetched q s) = match taggedSlot s q.fn (entryAt e 12 2) (entryAt e 8 4) with
      | none => .ok (.done 0 (leBytes 1 2) (Claims.fetched q s))
      | some (n, r) =>
        if [0x09, 0x0C, 0x0D, 0x0F].contains r.opcode || r.st == .ending || r.aborted then .ok (.hold 1 r.fetchSeq (Claims.fetched q s))
        else .ok (.hold 0 r.fetchSeq
          (setSlot (Claims.fetched q s) n { r with aborted := true, st := if r.st = .running then .running else .ending })) := by
  have hin : must (decide (entryAt e 12 2 < allocOf (Claims.fetched q s) q.fn)) (badField 0 12) = .ok () := if_pos (decide_eq_true hsel)
  rw [abortBody, hzero, hin]
  rfl

include hruns htakes hholds hdrain in
/-- An ABORT whose target is still in a slot waits for it. -/
theorem exec_abort_waits {u : State} {reply target : Nat} (hbody : abortBody q e (Claims.fetched q s) = .ok (.hold reply target u))
    (hu : u = { Claims.fetched q s with srv := { s.srv with fetchSeq := s.srv.fetchSeq + 1, slots := u.srv.slots } })
    {x : Nat × Request} (hx : x ∈ u.srv.slots) (htarget : x.2.fetchSeq = target) :
    exec (.abort q e) s = .next (withHold u (waitsAs s q e reply target)) := by
  have hnone : u.srv.holds = [] := by
    rw [hu]
    exact hholds
  have hsettle : settle (withHold u (waitsAs s q e reply target)) = withHold u (waitsAs s q e reply target) := by
    refine settle_of_waiting rfl ?_ (holdDone_abort (entOp_of_isRow (isRow_of_runs_abort hruns)) hx htarget)
    show u.gov.draining = false
    rw [hu]
    exact hdrain
  rw [exec_of_takes abort_mem_entryRows hruns htakes hbody, settleTaken_hold hnone, hsettle, hu]
  rfl

end

end Sys2Proof.Machine

namespace Sys2Proof.Proofs

open Sys2Proof Sys2Proof.Machine

/-- Settles O29: by whether the command's hold is done as soon as it is fetched. -/
theorem fenceAndAbort : Obligations.FenceAndAbort := by
  refine ⟨fun s q e hruns htakes hzero hholds hdrain hplaces => ?_, fun s q e hruns htakes hzero hsel hholds hdrain => ⟨fun hnone => ?_,
    fun n r htag hop hst haborted hslot => ?_, fun n r htag hno => ?_⟩⟩
  · have hop := entOp_of_isRow (isRow_of_runs_fence hruns)
    have hbody : fenceBody q e (Claims.fetched q s) = .ok (.hold 0 0 (Claims.fetched q s)) := by
      rw [fenceBody, hzero]
      rfl
    have hexec := exec_of_takes fence_mem_entryRows hruns htakes hbody
    rw [settleTaken_hold (s := s) (u := Claims.fetched q s) hholds] at hexec
    have hdone := holdDone_fence (s := withHold (Claims.fetched q s) (waitsAs s q e 0 0)) hop rfl
    refine ⟨fun ⟨x, hx, hfn, hring, hsilent⟩ => ?_, fun hended => ?_⟩
    · have hwait : holdDone (withHold (Claims.fetched q s) (waitsAs s q e 0 0)) (waitsAs s q e 0 0) = false := by
        rw [← Bool.not_eq_true, hdone]
        exact fun hall => absurd (hsilent.symm.trans (hall x hx hfn hring (hplaces x hx))) Bool.false_ne_true
      rw [settle_of_waiting (s := withHold (Claims.fetched q s) (waitsAs s q e 0 0)) rfl hdrain hwait] at hexec
      exact hexec
    · have hready := hdone.2 fun x hx hfn hring _ => (hended x hx).elim (absurd hfn) fun h => h.elim (absurd hring) id
      rw [settle_of_done (s := withHold (Claims.fetched q s) (waitsAs s q e 0 0)) rfl hdrain (Nat.lt_succ_self _) hready] at hexec
      have hop' : (waitsAs s q e 0 0).opcode ≠ 0x08 := by
        show entOp e ≠ 0x08
        omega
      rw [releaseHold_lone (s := Claims.fetched q s) hholds _ hop'] at hexec
      rw [← hop]
      exact hexec
  · have hop := entOp_of_isRow (isRow_of_runs_abort hruns)
    have hbody := abortBody_fetched (q := q) hzero hsel
    rw [hnone] at hbody
    rw [← hop]
    exact entriesComplete s q e _ abort_mem_entryRows hruns htakes 0 (leBytes 1 2) _ hbody hholds hdrain
  · have hbody := abortBody_fetched (q := q) hzero hsel
    have hcatches : ([0x09, 0x0C, 0x0D, 0x0F].contains r.opcode || r.st == .ending || r.aborted) = false := by
      simp [haborted, hst, hop]
    rw [htag] at hbody
    dsimp only at hbody
    rw [hcatches] at hbody
    exact exec_abort_waits hruns htakes hholds hdrain hbody rfl (mem_of_slookup _ _ _ (slookup_sset_self _ _ _)) rfl
  · have hbody := abortBody_fetched (q := q) hzero hsel
    have hmisses : ([0x09, 0x0C, 0x0D, 0x0F].contains r.opcode || r.st == .ending || r.aborted) = true := by
      rcases hno with h | h | h
      · rw [List.contains_iff_mem.2 h, Bool.true_or, Bool.true_or]
      · simp [h]
      · simp [h]
    rw [htag] at hbody
    dsimp only at hbody
    rw [hmisses] at hbody
    exact exec_abort_waits hruns htakes hholds hdrain hbody rfl (List.mem_of_find?_eq_some htag) rfl

end Sys2Proof.Proofs
end

section
/-!
PROOFS. ENTER_POWER_STATE of STANDBY and RETAIN (R394, R398, R403; O30): what its fetch leaves to the ring pairs, how a power command ends, and
when the drain it begins is done at once.
-/

namespace Sys2Proof.Machine

open Sys2Proof

/-! ### The fetch of an entry (R388) -/

/-- A pair whose next entry has been fetched. -/
def RingPair.headMoved (p : RingPair) : RingPair := { p with sqHead := (p.sqHead + 1) % p.sqSize }

/-- A completion ring with one slot more reserved. -/
def RingPair.oneReserved (p : RingPair) : RingPair := { p with reserved := p.reserved + 1 }

/-- A fetch moves SQ_HEAD of its ring on and reserves a slot of the completion ring. -/
theorem ringOf_fetched (q : RingRef) (s : State) (m : RingRef) :
    ringOf (Claims.fetched q s) m
      = if ringKey m = ringKey (cqOf s q) then (ringOf (setRing s q (ringOf s q).headMoved) m).oneReserved
        else ringOf (setRing s q (ringOf s q).headMoved) m := by
  have hcq : cqOf (setRing s q (ringOf s q).headMoved) q = cqOf s q := by
    rw [cqOf, ringOf_setRing_self]
    rfl
  show ringOf (setRing (setRing s q (ringOf s q).headMoved) (cqOf (setRing s q (ringOf s q).headMoved) q)
    (ringOf (setRing s q (ringOf s q).headMoved) (cqOf (setRing s q (ringOf s q).headMoved) q)).oneReserved) m = _
  rw [hcq, ringOf_setRing]
  split
  next h => rw [ringOf_of_key h]
  next => rfl

/-- A field of a pair that no fetch touches. -/
theorem ringOf_fetched_field {α : Type} (field : RingPair → α) (hmoved : ∀ p : RingPair, field p.headMoved = field p)
    (hreserved : ∀ p : RingPair, field p.oneReserved = field p) (q : RingRef) (s : State) (m : RingRef) :
    field (ringOf (Claims.fetched q s) m) = field (ringOf s m) := by
  have hkept : field (ringOf (setRing s q (ringOf s q).headMoved) m) = field (ringOf s m) := by
    rw [ringOf_setRing]
    split
    next h => rw [hmoved, ringOf_of_key h]
    next => rfl
  rw [ringOf_fetched]
  split
  · rw [hreserved, hkept]
  · exact hkept

theorem sqHead_fetched (q : RingRef) (s : State) : (ringOf (Claims.fetched q s) q).sqHead = ((ringOf s q).sqHead + 1) % (ringOf s q).sqSize := by
  rw [ringOf_fetched, ringOf_setRing_self]
  split <;> rfl

section
variable {q : RingRef} {s v : State} (hport : v.port = (Claims.fetched q s).port)
include hport

theorem ringOf_afterFetch (m : RingRef) : ringOf v m = ringOf (Claims.fetched q s) m := by
  rw [ringOf, hport]
  rfl

/-- Where a completion of ring q goes is as it was before the fetch. -/
theorem completionRing_afterFetch :
    cqOf v q = cqOf s q ∧ (ringOf v (cqOf s q)).cqBase = (ringOf s (cqOf s q)).cqBase ∧ (ringOf v (cqOf s q)).cqTail = (ringOf s (cqOf s q)).cqTail
      ∧ (ringOf v (cqOf s q)).cfg = (ringOf s (cqOf s q)).cfg := by
  have kept {α : Type} (field : RingPair → α) (hmoved : ∀ p : RingPair, field p.headMoved = field p)
      (hreserved : ∀ p : RingPair, field p.oneReserved = field p) (m : RingRef) : field (ringOf v m) = field (ringOf s m) := by
    rw [ringOf_afterFetch hport, ringOf_fetched_field field hmoved hreserved]
  have hsel := kept RingPair.cqSel (fun _ => rfl) (fun _ => rfl) q
  exact ⟨by rw [cqOf, hsel]; rfl, kept RingPair.cqBase (fun _ => rfl) (fun _ => rfl) _, kept RingPair.cqTail (fun _ => rfl) (fun _ => rfl) _,
    kept RingPair.cfg (fun _ => rfl) (fun _ => rfl) _⟩

theorem posts_afterFetch (t : State) (tag opcode status : Nat) : Claims.posts v t q tag opcode status ↔ Claims.posts s t q tag opcode status := by
  obtain ⟨hcq, hbase, htail, hcfg⟩ := completionRing_afterFetch hport
  simp only [Claims.posts, hcq, hbase, htail, RingPair.cqSize, RingPair.cqLog2, hcfg]

theorem canPost_afterFetch (h : bitOf (ringOf s (cqOf s q)).cfg 19 = false) (hwf : Memory.wf v.mem.host = true) : Claims.canPost v q := by
  obtain ⟨hcq, -, -, hcfg⟩ := completionRing_afterFetch hport
  exact ⟨by rw [hcq, hcfg]; exact h, hwf⟩

end

/-- What the fetch of an entry that the package takes makes of it. -/
theorem fetchEntry_of_takes {s : State} {q : RingRef} {e : Entry} (h : Claims.takes s q e) (body : RingRef → Entry → State → Except CmdErr Taken) :
    fetchEntry true body q e s
      = .next (Claims.after s (settle (settleTaken q e (ringOf s q).sqHead s.srv.fetchSeq (body q e (Claims.fetched q s)) (Claims.fetched q s)))) := by
  rw [fetchEntry, if_pos rfl, if_pos h.1, takeEntry_of_takes h]
  rfl

/-! ### The end of a power command -/

/-- The package once the power command in slot n has given up its slot. -/
def powerSlotFreed (n : Nat) (s : State) : State := collect (freeSlot { s with gov := { s.gov with draining := false } } n)

/-- A power command leaves no conversation and no report: it gives up its slot, and posts its completion. -/
theorem endRequest_power {s : State} {n : Nat} {r : Request} {k : Nat} (hslot : slotOf s n = some r) (hsilent : r.silent = false)
    (hwork : r.work = .power k) (status : Nat) :
    endRequest n status [] s
      = postCompletion ⟨r.fn, r.ring⟩ { tag := r.tag, opcode := r.opcode, status := status, aged := r.aged } 1 (powerSlotFreed n s) := by
  simp only [endRequest, hslot, hsilent, Bool.false_eq_true, if_false, releaseRequest, hwork, abandonWork, settleConv, arithOf, resultOf]
  rfl

/-! ### The drain (R403) -/

theorem drainCheck_of_busy {s : State} (h : s.gov.draining = false ∨ s.srv.slots.length ≠ 1 ∨ s.srv.strokeSince ≠ none) : drainCheck s = s := by
  refine if_neg fun hall => ?_
  simp only [Bool.and_eq_true, beq_iff_eq, Option.isNone_iff_eq_none] at hall
  obtain ⟨⟨hdrain, hlength⟩, hstroke⟩ := hall
  rcases h with h | h | h
  exacts [Bool.false_ne_true (h.symm.trans hdrain), h hlength, h hstroke]

/-- The package as a power command that has ended leaves it: ENTERING the state of number k. -/
def enteringState (k : Nat) (s : State) : State := { s with gov := { s.gov with draining := false, st := .entering, target := powerTarget k } }

/-- A drain that finds the power command alone ends it, and the entry begins. -/
theorem drainCheck_alone {s : State} {n : Nat} {r : Request} {k : Nat} (hdrain : s.gov.draining = true) (hslots : s.srv.slots = [(n, r)])
    (hwork : r.work = .power k) (hstroke : s.srv.strokeSince = none) : drainCheck s = enteringState k (endRequest n 0 [] s) := by
  simp [drainCheck, hdrain, hslots, hstroke, powerSlots, hwork, enteringState]

/-- A drain goes on behind a new request where another slot is taken or a stroke is open. -/
theorem drainCheck_setSlot_busy {u : State} {k : Nat} {r : Request} (hfree : slotOf u k = none)
    (hbusy : u.srv.slots ≠ [] ∨ u.srv.strokeSince ≠ none) : drainCheck (setSlot u k r) = setSlot u k r := by
  refine drainCheck_of_busy (.inr (hbusy.imp (fun hslots hone => ?_) id))
  obtain ⟨x, xs, hcons⟩ := List.exists_cons_of_ne_nil hslots
  have hx : slookup u.srv.slots x.1 = some x.2 := by rw [hcons]; exact if_pos rfl
  have hne : x.1 ≠ k := by
    rintro rfl
    exact Option.some_ne_none _ (hx.symm.trans hfree)
  have hold := mem_of_slookup _ _ _ ((slookup_sset_other u.srv.slots k x.1 r hne).trans hx)
  have hnew := mem_of_slookup _ _ _ (slookup_sset_self u.srv.slots k r)
  obtain ⟨y, hy⟩ := List.length_eq_one_iff.1 hone
  rw [setSlot_srv_slots] at hy
  rw [hy, List.mem_singleton] at hold hnew
  exact hne (congrArg Prod.fst (hold.trans hnew.symm))

theorem ringActive_of_canFetch {q : RingRef} {op : Nat} {s : State} (h : canFetch q op s = true) : (ringOf s q).st = .active := by
  simp only [canFetch, Bool.and_eq_true, beq_iff_eq] at h
  tauto

@[simp] theorem slotOf_after (s t : State) (k : Nat) : slotOf (Claims.after s t) k = slotOf t k := rfl

theorem settle_of_noHolds {s : State} (h : s.srv.holds = []) : settle s = drainCheck s := by
  rw [settle, settleAll_of_noHolds h]

/-! ### The rows of STANDBY and RETAIN -/

/-- The rows of ENTER_POWER_STATE that leave ACTIVE, with the number and the name of their state. -/
def powerRows : List ((RingRef → Entry → Instr) × Nat × PwrState) := [(.enterPowerStateStandby, 1, .standby), (.enterPowerStateRetain, 2, .retain)]

/-- What a row's entry is, and what its command does. -/
structure PowerRow (s : State) (q : RingRef) (e : Entry) (row : (RingRef → Entry → Instr) × Nat × PwrState) : Prop where
  opcode : entOp e = 0x09
  state : entryAt e 8 1 = row.2.1
  notActive : row.2.1 ≠ 0
  target : powerTarget row.2.1 = row.2.2
  exec : exec (row.1 q e) s = if s.gov.st = .active then fetchEntry true powerBody q e s else .next s

theorem powerRow_of_runs (s : State) (q : RingRef) (e : Entry) : ∀ row ∈ powerRows, runs s (row.1 q e) = true → PowerRow s q e row := by
  have taken (k : Nat) (h : (isRow q 0x09 e && entryAt e 8 1 == k) = true) :
      entOp e = 0x09 ∧ entryAt e 8 1 = k ∧ powerRow k q e s = if s.gov.st = .active then fetchEntry true powerBody q e s else .next s := by
    obtain ⟨hrow, hk⟩ := Bool.and_eq_true_iff.1 h
    exact ⟨entOp_of_isRow hrow, beq_iff_eq.1 hk, if_pos h⟩
  simp only [powerRows, List.forall_mem_cons, List.not_mem_nil, false_implies, implies_true, and_true]
  constructor
  · intro hruns
    obtain ⟨hop, hstate, hexec⟩ := taken 1 (Bool.and_eq_true_iff.1 hruns).1
    exact ⟨hop, hstate, Nat.one_ne_zero, rfl, hexec⟩
  · intro hruns
    obtain ⟨hop, hstate, hexec⟩ := taken 2 (Bool.and_eq_true_iff.1 hruns).1
    exact ⟨hop, hstate, by decide, rfl, hexec⟩

section
variable {u : State} {q : RingRef} {e : Entry} (hfields : powerFields e = .ok ()) (hstate : entryAt e 8 1 ≠ 0)
include hfields hstate

theorem powerBody_taken (hnone : powerSlots u = []) (hsolo : u.net.shell = .solo) :
    powerBody q e u = .ok (.slot (.power (entryAt e 8 1)) (if u.boot.act = .idle then beginDrain e u else u)) := by
  simp only [powerBody, hfields, hnone, hsolo, must, List.isEmpty_nil, if_true, if_neg hstate, beq_self_eq_true]
  rfl

theorem powerBody_refused (h : u.net.shell ≠ .solo ∨ powerSlots u ≠ []) : powerBody q e u = .error { status := 0x17 } := by
  by_cases hnone : powerSlots u = []
  · have hshell : (u.net.shell == .solo) = false := by simpa [hnone] using h
    simp only [powerBody, hfields, hnone, must, List.isEmpty_nil, if_true, if_neg hstate, hshell]
    rfl
  · have hother : (powerSlots u).isEmpty = false := by simpa using hnone
    simp only [powerBody, hfields, must, hother]
    rfl

end

/-- What a power command leaves that is a command error: 0x17 (R398, R403). -/
def refusedPower (s : State) (q : RingRef) (e : Entry) : State :=
  postCompletion q { tag := entTag e, opcode := entOp e, status := 0x17, froze := true } 1
    (freezeRing q (entTag e) (ringOf s q).sqHead (entOp e) 0 { status := 0x17 } (Claims.fetched q s))

theorem refusedPower_rest (s : State) (q : RingRef) (e : Entry) :
    (refusedPower s q e).gov = s.gov ∧ (refusedPower s q e).srv = { s.srv with fetchSeq := s.srv.fetchSeq + 1 } :=
  ⟨postCompletion_gov _ _ _ _, postCompletion_srv _ _ _ _⟩

/-- The request that a power command becomes. -/
def powerRequest (s : State) (q : RingRef) (e : Entry) : Request :=
  { fn := q.fn, ring := q.ring, tag := entTag e, opcode := entOp e, prio := entPrio e, entry := e, fetchSeq := s.srv.fetchSeq, tFetch := s.clk.ts
    st := .queued, work := .power (entryAt e 8 1), sqIndex := (ringOf s q).sqHead }

section
variable {s : State} {q : RingRef} {e : Entry} {row : (RingRef → Entry → Instr) × Nat × PwrState} (hrow : PowerRow s q e row)
  (htaken : Claims.powerEntryTaken s q e)
include hrow htaken

/-- A power command that takes a slot, on the package in which its drain has begun or waits. -/
theorem exec_powerEntry_slot (hsolo : s.net.shell = .solo) (hnone : powerSlots s = []) :
    exec (row.1 q e) s = .next (Claims.after s (drainCheck (setSlot
      (if s.boot.act = .idle then beginDrain e (Claims.fetched q s) else Claims.fetched q s) (leastFree s.srv.slots 0) (powerRequest s q e)))) := by
  obtain ⟨htakes, hfields, hactive, hholds⟩ := htaken
  have hbody := powerBody_taken (u := Claims.fetched q s) (q := q) hfields (hrow.state ▸ hrow.notActive) hnone hsolo
  rw [hrow.exec, if_pos hactive, fetchEntry_of_takes htakes, hbody]
  have hact : (Claims.fetched q s).boot.act = s.boot.act := rfl
  rw [hact]
  split
  · exact congrArg (fun t => Host.Outcome.next (Claims.after s t)) (settle_of_noHolds hholds)
  · exact congrArg (fun t => Host.Outcome.next (Claims.after s t)) (settle_of_noHolds hholds)

/-- A power command that is a command error. -/
theorem exec_powerEntry_refused (hquiet : s.gov.draining = false ∨ s.srv.strokeSince ≠ none) (h : s.net.shell ≠ .solo ∨ powerSlots s ≠ []) :
    exec (row.1 q e) s
      = .next (Claims.after s (refusedPower s q e)) := by
  obtain ⟨htakes, hfields, hactive, hholds⟩ := htaken
  have hbody := powerBody_refused (u := Claims.fetched q s) (q := q) hfields (hrow.state ▸ hrow.notActive) h
  have hsettled : settle (refusedPower s q e) = refusedPower s q e := by
    obtain ⟨hgov, hsrv⟩ := refusedPower_rest s q e
    rw [settle_of_noHolds (by rw [hsrv]; exact hholds), drainCheck_of_busy]
    rw [hgov, hsrv]
    exact hquiet.imp id .inr
  rw [hrow.exec, if_pos hactive, fetchEntry_of_takes htakes, hbody]
  exact congrArg (fun t => Host.Outcome.next (Claims.after s t)) hsettled

theorem powerEntersAtOnce : Claims.PowerEntersAtOnce s q e row := by
  intro hsolo hidle hempty hstroke
  have hnone : powerSlots s = [] := by rw [powerSlots, hempty]; rfl
  have hexec := exec_powerEntry_slot hrow htaken hsolo hnone
  have hslots : (setSlot (beginDrain e (Claims.fetched q s)) 0 (powerRequest s q e)).srv.slots = [(0, powerRequest s q e)] := congrArg (sset · 0 _) hempty
  rw [hempty, leastFree, if_pos hidle, drainCheck_alone rfl hslots rfl hstroke, endRequest_power (slotOf_of_slots hslots) rfl rfl] at hexec
  have hfreed : (powerSlotFreed 0 (setSlot (beginDrain e (Claims.fetched q s)) 0 (powerRequest s q e))).srv.slots = [] := congrArg (serase · 0) hslots
  have hport : (powerSlotFreed 0 (setSlot (beginDrain e (Claims.fetched q s)) 0 (powerRequest s q e))).port = (Claims.fetched q s).port := rfl
  have hgov : (powerSlotFreed 0 (setSlot (beginDrain e (Claims.fetched q s)) 0 (powerRequest s q e))).gov
      = { (beginDrain e (Claims.fetched q s)).gov with draining := false } := rfl
  have hhost : (powerSlotFreed 0 (setSlot (beginDrain e (Claims.fetched q s)) 0 (powerRequest s q e))).mem.host = s.mem.host := rfl
  generalize powerSlotFreed 0 (setSlot (beginDrain e (Claims.fetched q s)) 0 (powerRequest s q e)) = v at hexec hfreed hport hgov hhost
  have hgov' := (postCompletion_gov q { tag := entTag e, opcode := entOp e, status := 0 } 1 v).trans hgov
  refine ⟨_, hexec, rfl, hrow.state ▸ hrow.target, rfl, (congrArg Serving.slots (postCompletion_srv _ _ _ _)).trans hfreed,
    congrArg Gov.wakeOnDoorbell hgov', congrArg Gov.force hgov', ?_, ?_, fun hirq hwf => ?_⟩
  · refine (ringOf_postCompletion_field RingPair.sqHead (fun _ _ => rfl) (fun _ _ _ => rfl) _ _ _ v q).trans ?_
    rw [ringOf_afterFetch hport, sqHead_fetched]
  · obtain ⟨hcq, -, htail, hcfg⟩ := completionRing_afterFetch hport
    have hposted := cqTail_postCompletion q { tag := entTag e, opcode := entOp e, status := 0 } 1 v
    rw [hcq, htail, RingPair.cqSize, RingPair.cqLog2, hcfg] at hposted
    exact hposted
  · have posted := postCompletion_posted (canPost_afterFetch hport hirq (hhost ▸ hwf)) { tag := entTag e, opcode := entOp e, status := 0 } 1
    obtain ⟨htag, hring, hstatus, hopcode, -⟩ := (posts_afterFetch hport _ _ _ _).1 posted.entry
    have hsmall : entOp e % 256 = 0x09 := by rw [hrow.opcode]
    exact ⟨htag, hring, hstatus, hopcode.trans hsmall⟩

theorem powerDrains : Claims.PowerDrains s q e row := by
  intro hsolo hidle hnone hbusy hrising
  obtain ⟨-, hfree, -⟩ := leastFree_spec s.srv.slots 0 hrising (fun _ _ => Nat.zero_le _)
  have hexec := exec_powerEntry_slot hrow htaken hsolo hnone
  rw [if_pos hidle, drainCheck_setSlot_busy (u := beginDrain e (Claims.fetched q s)) hfree hbusy] at hexec
  refine ⟨_, hexec, htaken.2.2.1, rfl, rfl, rfl, rfl, ⟨powerRequest s q e, ?_, congrArg Work.power hrow.state, rfl, rfl⟩, fun k hk => ?_⟩
  · rw [slotOf_after, slotOf_setSlot_self]
  · rw [slotOf_after, slotOf_setSlot_other _ _ _ _ hk]
    rfl

theorem powerWaitsOrFails : Claims.PowerWaitsOrFails s q e row := by
  intro hquiet
  refine ⟨fun hsolo hact hnone hrising => ?_, fun hrefused => ?_⟩
  · have hexec := exec_powerEntry_slot hrow htaken hsolo hnone
    rw [if_neg hact, drainCheck_of_busy (s := setSlot (Claims.fetched q s) _ _) (hquiet.imp id .inr)] at hexec
    exact ⟨_, hexec, rfl, powerRequest s q e, by rw [slotOf_after, slotOf_setSlot_self], congrArg Work.power hrow.state, rfl, rfl⟩
  · have hexec := exec_powerEntry_refused hrow htaken hquiet hrefused
    obtain ⟨hgov, hsrv⟩ := refusedPower_rest s q e
    have hslots : (refusedPower s q e).srv.slots = s.srv.slots := by rw [hsrv]
    have frozen {α : Type} (field : RingPair → α) (hentry : ∀ p k, field (p.afterEntry k) = field p)
        (hcount : ∀ p n since, field (p.counting n since) = field p) :=
      (ringOf_postCompletion_field field hentry hcount q { tag := entTag e, opcode := entOp e, status := 0x17, froze := true } 1
        (freezeRing q (entTag e) (ringOf s q).sqHead (entOp e) 0 { status := 0x17 } (Claims.fetched q s)) q).trans
        (congrArg field (ringOf_freezeRing _ _ _ _ _ _ _))
    have hactive : (ringOf (Claims.fetched q s) q).st = .active := by
      rw [ringOf_fetched_field RingPair.st (fun _ => rfl) (fun _ => rfl)]
      exact ringActive_of_canFetch htaken.1.1
    exact ⟨_, hexec, hgov, hslots, (frozen RingPair.st (fun _ _ => rfl) (fun _ _ _ => rfl)).trans (if_pos hactive),
      frozen RingPair.errStatus (fun _ _ => rfl) (fun _ _ _ => rfl), frozen RingPair.errTag (fun _ _ => rfl) (fun _ _ _ => rfl)⟩

end

end Sys2Proof.Machine

namespace Sys2Proof.Proofs

open Sys2Proof Sys2Proof.Machine

/-- Settles O30: both rows by what the entry finds in the package. -/
theorem powerStateEntry : Obligations.PowerStateEntry := by
  intro s q e row hmem hruns
  have hrow := powerRow_of_runs s q e row hmem hruns
  refine ⟨fun htaken => ⟨powerEntersAtOnce hrow htaken, powerDrains hrow htaken, powerWaitsOrFails hrow htaken⟩, fun hst => ?_⟩
  rw [hrow.exec, if_neg hst]

end Sys2Proof.Proofs
end

section
/-!
PROOFS. The function-level reset (R404, R410; O45): the function's registers, rings, channel and waiting commands are gone at once, its requests are
silenced, and its conversations go as soon as none of those requests is left.
-/

namespace Sys2Proof.Machine

open Sys2Proof

/-! ### Conversations that end together -/

theorem mem_convs_foldl_endConv (how : ConvEnd) (cs : List Conv) (s : State) {c : Conv} (h : c ∈ (cs.foldl (endConv how) s).srv.convs) :
    c ∈ s.srv.convs ∧ ∀ d ∈ cs, ¬(c.fn = d.fn ∧ c.id = d.id) := by
  induction cs generalizing s with
  | nil => exact ⟨h, nofun⟩
  | cons d cs ih =>
    obtain ⟨hin, hothers⟩ := ih _ h
    obtain ⟨hmem, hd⟩ := List.mem_filter.1 hin
    refine ⟨hmem, List.forall_mem_cons.2 ⟨?_, hothers⟩⟩
    simpa [← not_and_or] using hd

theorem host_foldl_endConv (how : ConvEnd) (cs : List Conv) (s : State) : (cs.foldl (endConv how) s).mem.host = s.mem.host := by
  induction cs generalizing s with
  | nil => rfl
  | cons c cs ih => exact (ih _).trans rfl

/-- After the release of a function's conversations it has none that is free. -/
theorem releaseConvs_free (f : Nat) (s : State) : ∀ c ∈ (releaseConvs f s).srv.convs, c.fn = f → c.st ≠ .open ∧ c.st ≠ .paused := by
  intro c hc hfn
  obtain ⟨hmem, hothers⟩ := mem_convs_foldl_endConv _ _ _ hc
  have hnot : ¬(c.st = .open ∨ c.st = .paused) := fun hfree =>
    hothers c (List.mem_filter.2 ⟨hmem, by simpa [hfn] using hfree⟩) ⟨rfl, rfl⟩
  exact not_or.1 hnot

/-! ### When the conversations go (R325) -/

theorem settleReset_waits {f : Nat} {s : State} (h : ∃ x ∈ s.srv.slots, x.2.fn = f ∧ x.2.silent = true) : settleReset f s = s := by
  obtain ⟨x, hx, hfn, hsilent⟩ := h
  have hany : s.srv.slots.any (fun x => x.2.fn == f && x.2.silent) = true := List.any_eq_true.2 ⟨x, hx, by simp [hfn, hsilent]⟩
  simp [settleReset, hany]

theorem settleReset_releases {f : Nat} {s : State} (hlisted : f ∈ s.srv.releasing) (h : ∀ x ∈ s.srv.slots, x.2.fn ≠ f) :
    settleReset f s = releaseConvs f { s with srv := { s.srv with releasing := s.srv.releasing.filter (· != f) } } := by
  have hnone : s.srv.slots.any (fun x => x.2.fn == f && x.2.silent) = false := by
    refine List.any_eq_false.2 fun x hx => ?_
    simp [h x hx]
  rw [settleReset, List.contains_iff_mem.2 hlisted, hnone]
  rfl

theorem settleReset_host (f : Nat) (s : State) : (settleReset f s).mem.host = s.mem.host := by
  unfold settleReset
  split
  · exact host_foldl_endConv _ _ _
  · rfl

/-! ### The reset of a function -/

/-- A request that a reset of its function ends. -/
def Request.silenced (f : Nat) (r : Request) : Request := if r.fn = f then { r with silent := true, aborted := true } else r

@[simp] theorem Request.silenced_fn (f : Nat) (r : Request) : (r.silenced f).fn = r.fn := by
  unfold Request.silenced
  split <;> rfl

/-- The reset of function f, before its conversations: the queue has taken the edge of its SENDER_RESET, and the boot state is otherwise its own. -/
def resetBegun (f : Nat) (boot : Boot) (s : State) : State :=
  { resetFnRegs f s with
    boot := boot
    srv := { (resetFnRegs f s).srv with
      slots := s.srv.slots.map (fun x => (x.1, x.2.silenced f)), releasing := s.srv.releasing.filter (· != f) ++ [f] } }

theorem resetFunction_eq (f : Nat) {s : State} (hroom : s.boot.evq.length < 4096) : ∃ boot, resetFunction f s = settleReset f (resetBegun f boot s) := by
  obtain ⟨boot, hlatch⟩ := latch_boot (.doorbell f 31) (silenceFn f (resetFnRegs f s)) hroom
  exact ⟨boot, by rw [resetFunction, hlatch]; rfl⟩

/-- FUNCTION_LEVEL_RESET resets its function; the physical function's returns the housekeeping DMA to IDLE too (R417). -/
theorem exec_functionLevelReset {s : State} {f : Nat} (hf : f < 64) :
    exec (.functionLevelReset f) s = finish s { resetFunction f s with dma := if f = 0 then [] else (resetFunction f s).dma } := by
  show execFunctionLevelReset f s = _
  rw [execFunctionLevelReset, if_pos hf]
  dsimp only
  split <;> rfl

section
variable {f : Nat} {boot : Boot} {s : State}

theorem slots_resetBegun : ∀ x ∈ (resetBegun f boot s).srv.slots, x.2.fn = f → x.2.silent = true ∧ x.2.aborted = true := by
  intro x hx hfn
  obtain ⟨y, -, rfl⟩ := List.mem_map.1 hx
  have hy : y.2.fn = f := (Request.silenced_fn f y.2).symm.trans hfn
  simp [Request.silenced, hy]

theorem slotOf_resetBegun_other {k : Nat} {r : Request} (hslot : slotOf s k = some r) (hfn : r.fn ≠ f) : slotOf (resetBegun f boot s) k = some r := by
  show slookup (s.srv.slots.map fun x => (x.1, x.2.silenced f)) k = some r
  rw [slookup_mapValues, show slookup s.srv.slots k = some r from hslot]
  simp [Request.silenced, hfn]

theorem settleReset_resetBegun_free (h : ∀ x ∈ s.srv.slots, x.2.fn ≠ f) :
    ∀ c ∈ (settleReset f (resetBegun f boot s)).srv.convs, c.fn = f → c.st ≠ .open ∧ c.st ≠ .paused := by
  have hslots : ∀ x ∈ (resetBegun f boot s).srv.slots, x.2.fn ≠ f := by
    intro x hx
    obtain ⟨y, hy, rfl⟩ := List.mem_map.1 hx
    rw [Request.silenced_fn]
    exact h y hy
  rw [settleReset_releases (List.mem_append_right _ (List.mem_singleton_self f)) hslots]
  exact releaseConvs_free f _

theorem settleReset_resetBegun_waits (h : ∃ x ∈ s.srv.slots, x.2.fn = f) : settleReset f (resetBegun f boot s) = resetBegun f boot s := by
  obtain ⟨x, hx, hfn⟩ := h
  have hmem : (x.1, x.2.silenced f) ∈ (resetBegun f boot s).srv.slots := List.mem_map_of_mem (f := fun y => (y.1, y.2.silenced f)) hx
  have hfn' : (x.2.silenced f).fn = f := (Request.silenced_fn f x.2).trans hfn
  exact settleReset_waits ⟨_, hmem, hfn', (slots_resetBegun _ hmem hfn').1⟩

end

end Sys2Proof.Machine

namespace Sys2Proof.Proofs

open Sys2Proof Sys2Proof.Machine

/-- Settles O45: the reset of one function, with what its silenced requests hold back. -/
theorem functionReset : Obligations.FunctionReset := by
  intro s f hf hroom hrings hfns
  have hresets := resetFunction_resets f s hroom
  obtain ⟨hport, hmbox, -, -⟩ := resetFunction_room f s hroom
  obtain ⟨boot, heq⟩ := resetFunction_eq f hroom
  have hrest := convsOnly_settleReset f (resetBegun f boot s)
  have hhost := settleReset_host f (resetBegun f boot s)
  have hother (g : Nat) (hg : g ≠ f) : g ∉ [f] := by simpa using hg
  refine ⟨_, exec_functionLevelReset hf, fun n hn => ?_, ?_, ?_, ?_, ?_, ?_, ?_, fun hzero => if_pos hzero, fun g n hg hn => ?_, fun g hg => ⟨?_, ?_⟩,
    fun k r hslot hfn => ?_, ?_, ?_, ?_⟩
  · exact (hresets.rings hrings ⟨f, n⟩ hn).trans (if_pos List.mem_cons_self)
  · show (slookup (resetFunction f s).port.fns f).getD {} = {}
    rw [hport]
    exact congrArg (Option.getD · {}) (slookup_serase_self _ _ hfns)
  · show sgetD (resetFunction f s).mbox f {} = flushedChannel
    rw [hmbox, sgetD_sset_self]
  · show ∀ h ∈ (resetFunction f s).srv.holds, h.fn ≠ f
    rw [heq, hrest]
    exact fun h hh => by simpa using (List.mem_filter.1 hh).2
  · show ∀ x ∈ (resetFunction f s).srv.slots, _
    rw [heq, hrest]
    exact slots_resetBegun (boot := boot)
  · show _ → ∀ c ∈ (resetFunction f s).srv.convs, _
    rw [heq]
    exact settleReset_resetBegun_free
  · show _ → (resetFunction f s).srv.convs = _ ∧ f ∈ (resetFunction f s).srv.releasing
    intro hslots
    rw [heq, settleReset_resetBegun_waits hslots]
    exact ⟨rfl, List.mem_append_right _ (List.mem_singleton_self f)⟩
  · exact (hresets.rings hrings ⟨g, n⟩ hn).trans (if_neg (hother g hg))
  · exact hresets.fns hfns g (hother g hg)
  · exact hresets.channels g (hother g hg)
  · show slotOf (resetFunction f s) k = some r
    rw [heq, hrest]
    exact slotOf_resetBegun_other (boot := boot) hslot hfn
  · show (resetFunction f s).mem.host = _
    rw [heq, hhost]
    rfl
  · show (resetFunction f s).flt = _
    rw [heq, hrest]
    rfl
  · show (resetFunction f s).cores = _
    rw [heq, hrest]
    rfl

end Sys2Proof.Proofs
end

section
/-!
PROOFS. The power states (R403, R455 to R458, R498; O51): how a drain that runs out ends, what the entry to RETAIN leaves of the package, and what
the exit from it does to the timestamp.
-/

namespace Sys2Proof.Machine

open Sys2Proof

/-! ### The drain runs out (R403) -/

theorem slookup_of_mem {α : Type} (m : Sparse α) {a : Nat} {v : α} (h : risingKeys m = true) (hv : (a, v) ∈ m) : slookup m a = some v := by
  induction m with
  | nil => cases hv
  | cons x m ih =>
    obtain ⟨k, w⟩ := x
    obtain ⟨habove, hm⟩ := (risingKeys_cons k w m).1 h
    rcases List.mem_cons.1 hv with hv | hv
    · cases hv
      exact if_pos rfl
    · have hlt : k < a := habove _ hv
      rw [slookup, if_neg hlt.ne', if_neg hlt.not_gt, ih hm hv]

/-- The request in a slot of powerSlots is a power command. -/
theorem work_of_mem_powerSlots {s : State} {n k : Nat} {r : Request} (hrising : risingKeys s.srv.slots = true) (hmem : (n, k) ∈ powerSlots s)
    (hslot : slotOf s n = some r) : r.work = .power k := by
  obtain ⟨⟨m, r'⟩, hin, hpower⟩ := List.mem_filterMap.1 hmem
  dsimp only at hpower
  split at hpower
  next hwork =>
    cases hpower
    have hr : r' = r := Option.some_injective _ ((slookup_of_mem _ hrising hin).symm.trans hslot)
    exact hr ▸ hwork
  next => cases hpower

/-- A package that does not drain. -/
def notDraining (s : State) : State := { s with gov := { s.gov with draining := false } }

theorem settle_notDraining {s : State} (h : s.srv.holds = []) : settle (notDraining s) = notDraining s :=
  (settle_of_noHolds (s := notDraining s) h).trans (drainCheck_of_busy (s := notDraining s) (.inl rfl))

/-- Without FORCE the power command ends with 0x4A and the package stays in its state. -/
theorem powerDrainTimeout_ends {s : State} {n : Nat} {r : Request} {k : Nat} (hclocks : clocksRun s = true) (hdrain : s.gov.draining = true)
    (hforce : s.gov.force = false) (hpower : powerSlots s = [(n, k)]) (hslot : slotOf s n = some r) (hsilent : r.silent = false)
    (hholds : s.srv.holds = []) (hpost : Claims.canPost s ⟨r.fn, r.ring⟩) (hrising : risingKeys s.srv.slots = true) :
    ∃ t, exec .powerDrainTimeout s = .next t ∧ slotOf t n = none ∧ t.gov.draining = false ∧ t.gov.st = s.gov.st
      ∧ Claims.posts s t ⟨r.fn, r.ring⟩ r.tag r.opcode 0x4A := by
  have hwork := work_of_mem_powerSlots hrising (hpower ▸ List.mem_singleton_self _) hslot
  have hexec : exec .powerDrainTimeout s = finish s (settle (notDraining (endRequest n 0x4A [] s))) := by
    show execPowerDrainTimeout s = _
    rw [execPowerDrainTimeout, if_pos (by rw [hclocks, hdrain]; rfl), hforce, hpower]
    rfl
  rw [endRequest_power hslot hsilent hwork] at hexec
  have hslots : (powerSlotFreed n s).srv.slots = serase s.srv.slots n := rfl
  have hwaiting : (powerSlotFreed n s).srv.holds = [] := hholds
  have hst : (powerSlotFreed n s).gov.st = s.gov.st := rfl
  have hrings : (powerSlotFreed n s).port.rings = s.port.rings := rfl
  have hcan : Claims.canPost (powerSlotFreed n s) ⟨r.fn, r.ring⟩ := hpost
  generalize powerSlotFreed n s = v at hexec hslots hwaiting hst hrings hcan
  have posted := (postCompletion_posted hcan { tag := r.tag, opcode := r.opcode, status := 0x4A, aged := r.aged } 1).entry
  rw [posts_congr hrings] at posted
  have hsrv := postCompletion_srv ⟨r.fn, r.ring⟩ { tag := r.tag, opcode := r.opcode, status := 0x4A, aged := r.aged } 1 v
  have hgov := postCompletion_gov ⟨r.fn, r.ring⟩ { tag := r.tag, opcode := r.opcode, status := 0x4A, aged := r.aged } 1 v
  generalize postCompletion ⟨r.fn, r.ring⟩ { tag := r.tag, opcode := r.opcode, status := 0x4A, aged := r.aged } 1 v = u at hexec posted hsrv hgov
  rw [settle_notDraining (by rw [hsrv]; exact hwaiting)] at hexec
  refine ⟨_, hexec, ?_, rfl, (congrArg Gov.st hgov).trans hst, posted⟩
  show slookup u.srv.slots n = none
  rw [hsrv, hslots, slookup_serase_self _ _ hrising]

/-- A request as FORCE leaves it: marked aborted, unless it is the power command. -/
def Request.forced (r : Request) : Request := match r.work with | .power _ => r | _ => { r with aborted := true }

theorem slotOf_forceDrain (s : State) (n : Nat) : slotOf (forceDrain s) n = (slotOf s n).map Request.forced :=
  slookup_mapValues Request.forced s.srv.slots n

theorem forced_of_power {r : Request} {k : Nat} (h : r.work = .power k) : r.forced = r := by rw [Request.forced, h]

theorem forced_of_notPower {r : Request} (h : ∀ k, r.work ≠ .power k) : r.forced = { r with aborted := true } := by
  unfold Request.forced
  split
  next k hk => exact absurd hk (h k)
  next => rfl

theorem drainCheck_forceDrain {s : State} (h : s.srv.strokeSince ≠ none ∨ s.srv.slots.length ≠ 1) : drainCheck (forceDrain s) = forceDrain s := by
  refine drainCheck_of_busy (.inr (h.symm.imp (fun hlength => ?_) id))
  exact (List.length_map _).trans_ne hlength

/-- With FORCE every other request is marked aborted while the drain goes on. -/
theorem powerDrainTimeout_forces {s : State} (hclocks : clocksRun s = true) (hdrain : s.gov.draining = true) (hforce : s.gov.force = true)
    (hbusy : s.srv.strokeSince ≠ none ∨ s.srv.slots.length ≠ 1) : exec .powerDrainTimeout s = .next (forceDrain s) := by
  show execPowerDrainTimeout s = _
  rw [execPowerDrainTimeout, if_pos (by rw [hclocks, hdrain]; rfl), if_pos hforce, drainCheck_forceDrain hbusy]
  rfl

/-! ### DMA channels before RETAIN (R417) -/

/-- t is s but for the memories, the host port and the DMA channels; the control register of memory is that of s. -/
def MovesOnly (s t : State) : Prop := t = { s with mem := { t.mem with ctl := s.mem.ctl }, port := t.port, dma := t.dma }

namespace MovesOnly

theorem refl (s : State) : MovesOnly s s := rfl

theorem trans {s t u : State} (a : MovesOnly s t) (b : MovesOnly t u) : MovesOnly s u := by
  unfold MovesOnly at *
  rw [b, a]

theorem foldl {α : Type} {f : State → α → State} (h : ∀ t x, MovesOnly t (f t x)) (l : List α) (s : State) : MovesOnly s (l.foldl f s) :=
  List.foldlRecOn (motive := MovesOnly s) l f (refl s) fun t ht x _ => ht.trans (h t x)

theorem ofContent {s t : State} (h : ContentOnly s t) : MovesOnly s t := by
  rw [h]
  rfl

theorem drainAll (s : State) : MovesOnly s (drainAll s) :=
  trans (t := { s with mem := { s.mem with wb := [] } }) rfl (ofContent (drainAll_content s))

theorem hostWrite (s : State) (a : Nat) (bs : List Byte) : MovesOnly s (hostWrite s a bs) := rfl

theorem setDma (s : State) (ch : Nat) (d : Dma) : MovesOnly s (setDma s ch d) := rfl

theorem raiseMsix (f v : Nat) (s : State) : MovesOnly s (raiseMsix f v s) := by
  rw [raiseMsix_host]
  rfl

theorem dmaStop (ch : Nat) (d : Dma) (ending : Nat) (st : DmaState) (s : State) : MovesOnly s (dmaStop ch d ending st s) := by
  unfold Machine.dmaStop
  dsimp only
  split
  · exact ((hostWrite s _ _).trans (setDma _ _ _)).trans (raiseMsix _ _ _)
  · exact (hostWrite s _ _).trans (setDma _ _ _)

theorem touchRange (s : State) (n o len : Nat) : MovesOnly s (touchRange s n o len) :=
  foldl (fun t (p : Nat × Nat × Nat) => ofContent (TilesOnly.fillTile n t p.1).content) _ s

theorem touchSeg (s : State) (g : DmaSeg) (n : Nat) : MovesOnly s (touchSeg s g n) := by
  unfold Machine.touchSeg
  split
  · split
    · exact refl s
    · exact touchRange s _ _ _
  · exact refl s

theorem gatherBytes (d : Dma) (f o n : Nat) (s : State) : MovesOnly s (gatherBytes d f o n s).2.2 := by
  induction f generalizing o n s with
  | zero => exact refl s
  | succ f ih =>
    rw [Machine.gatherBytes]
    split
    · exact refl s
    · split
      · exact refl s
      · dsimp only
        split
        · exact touchSeg s _ _
        · exact (touchSeg s _ _).trans (ih _ _ _)

theorem landBytes (g : DmaSeg) (bs : List (Byte × Bool × Bool)) (s : State) : MovesOnly s (landBytes g bs s) := by
  unfold Machine.landBytes
  dsimp only
  split
  · rfl
  · split <;> rfl

theorem moveUnit (ch : Nat) (s : State) : MovesOnly s (moveUnit ch s) := by
  unfold Machine.moveUnit
  dsimp only
  split
  · exact dmaStop ch _ _ _ s
  split
  next => exact dmaStop ch _ _ _ s
  next g _ =>
    split
    · exact refl s
    have hlanded := (gatherBytes (dmaOf s ch) (min g.len (4096 - g.addr % 4096)) (dmaOf s ch).bytesDone (min g.len (4096 - g.addr % 4096)) s).trans
      (landBytes g (Machine.gatherBytes (dmaOf s ch) (min g.len (4096 - g.addr % 4096)) (dmaOf s ch).bytesDone (min g.len (4096 - g.addr % 4096)) s).1 _)
    split
    · exact hlanded.trans (dmaStop ch _ _ _ _)
    split
    · exact hlanded.trans (dmaStop ch _ _ _ _)
    split
    · exact hlanded.trans (dmaStop ch _ _ _ _)
    split
    · exact hlanded.trans (dmaStop ch _ _ _ _)
    · exact hlanded.trans (setDma _ ch _)

theorem pauseForRetain (s : State) (ch : Nat) : MovesOnly s (pauseForRetain s ch) := by
  have hpause : MovesOnly s (dmaPause ch s) := by
    unfold dmaPause
    dsimp only
    split
    · exact setDma s ch _
    · exact refl s
  unfold Machine.pauseForRetain
  dsimp only
  split
  · exact hpause.trans (moveUnit ch _)
  · exact hpause

end MovesOnly

/-! ### The entry to RETAIN (R457) -/

/-- The package with its channels paused and its write buffer drained. -/
def quiesced (s : State) : State := drainAll ((List.range 16).foldl pauseForRetain (drainAll s))

theorem quiesced_movesOnly (s : State) : MovesOnly s (quiesced s) :=
  ((MovesOnly.drainAll s).trans (.foldl MovesOnly.pauseForRetain _ _)).trans (.drainAll _)

theorem wb_quiesced (s : State) : (quiesced s).mem.wb = [] := by
  rw [quiesced, drainAll_content]

/-- A crew that RETAIN does not keep: its SRAM and its sync objects are lost. -/
def Crew.emptied (c : Crew) : Crew := { c with sram := [], sramPoison := [], syncs := [] }

/-- The crews of a package after the entry to RETAIN. -/
def retainedCrews (s : State) : Sparse Crew := if bitOf s.mem.ctl 1 then s.crews else s.crews.map (fun x => (x.1, x.2.emptied))

theorem sgetD_retainedCrews (s : State) (c : Nat) :
    sgetD (retainedCrews s) c {} = if bitOf s.mem.ctl 1 = true then crewOf s c else (crewOf s c).emptied := by
  unfold retainedCrews
  split
  · rfl
  · rw [sgetD, slookup_mapValues, crewOf, sgetD]
    cases slookup s.crews c <;> rfl

/-- The package with the power of its crews cut. -/
def cutOff (s : State) : State :=
  { s with cores := [], crews := retainedCrews s, clk := { s.clk with rootLock := false, retainFrac := 0, retainFrom := s.clk.ts } }

theorem enterRetain_eq (s : State) : enterRetain s = cutOff (traceWrite (powerMark (quiesced s) false 0) (quiesced s)) := rfl

/-- What the entry to RETAIN leaves of a package. -/
structure Retained (s t : State) : Prop where
  gov : t.gov = s.gov
  srv : t.srv = s.srv
  cores : t.cores = []
  crews : t.crews = retainedCrews s
  clk : t.clk = { s.clk with rootLock := false, retainFrac := 0, retainFrom := s.clk.ts }
  wb : t.mem.wb = []

theorem enterRetain_retained (s : State) : Retained s (enterRetain s) := by
  have hmoves := quiesced_movesOnly s
  have hwb := wb_quiesced s
  rw [enterRetain_eq, traceWrite_rest]
  generalize (traceWrite (powerMark (quiesced s) false 0) (quiesced s)).trace = tr
  generalize quiesced s = u at hmoves hwb ⊢
  refine ⟨?_, ?_, rfl, ?_, ?_, hwb⟩
  all_goals
    rw [hmoves]
    rfl

theorem exec_powerStateEntered {s : State} (hclocks : clocksRun s = true) (hst : s.gov.st = .entering) :
    exec .powerStateEntered s = finish s
      (let s1 := if s.gov.target == .retain then enterRetain s else s
       { s1 with gov := if s.gov.wakePending then
          { s1.gov with st := .exiting, wakePending := false, exitFrom := if s.gov.target == .retain then 2 else 1, exitSince := now s1 }
         else { s1.gov with st := s.gov.target, wakePending := false } }) := by
  show execPowerStateEntered s = _
  rw [execPowerStateEntered, if_pos (by rw [hclocks, hst]; rfl)]

theorem powerStateEntered_standby {s : State} (hclocks : clocksRun s = true) (hst : s.gov.st = .entering) (htarget : s.gov.target = .standby) :
    exec .powerStateEntered s = .next { s with gov :=
      if s.gov.wakePending = true then { s.gov with st := .exiting, wakePending := false, exitFrom := 1, exitSince := s.clk.ts }
      else { s.gov with st := .standby, wakePending := false } } := by
  rw [exec_powerStateEntered hclocks hst, htarget]
  rfl

theorem powerStateEntered_retain {s : State} (hclocks : clocksRun s = true) (hst : s.gov.st = .entering) (htarget : s.gov.target = .retain) :
    ∃ t, exec .powerStateEntered s = .next t ∧ t.gov.st = (if s.gov.wakePending = true then .exiting else .retain) ∧ t.cores = []
      ∧ (∀ c, crewOf t c = if bitOf s.mem.ctl 1 = true then crewOf s c else (crewOf s c).emptied)
      ∧ t.clk.rootLock = false ∧ t.clk.retainFrom = s.clk.ts ∧ t.clk.ts = s.clk.ts ∧ t.mem.wb = [] ∧ t.srv = s.srv := by
  have hexec := exec_powerStateEntered hclocks hst
  rw [htarget, if_pos (show (PwrState.retain == PwrState.retain) = true from rfl)] at hexec
  obtain ⟨hgov, hsrv, hcores, hcrews, hclk, hwb⟩ := enterRetain_retained s
  generalize enterRetain s = u at hexec hgov hsrv hcores hcrews hclk hwb
  refine ⟨_, hexec, ?_, hcores, fun c => ?_, congrArg Clocks.rootLock hclk, congrArg Clocks.retainFrom hclk, (congrArg Clocks.ts hclk :), hwb, hsrv⟩
  · exact apply_ite Gov.st _ _ _
  · exact (congrArg (sgetD · c {}) hcrews).trans (sgetD_retainedCrews s c)

/-! ### The exit from RETAIN (R456, R458, R459, R498) -/

theorem retrainDie_gov (s : State) (d : Nat) :
    retrainDie s d = { s with gov := { s.gov with temps := (retrainDie s d).gov.temps, retrains := (retrainDie s d).gov.retrains } } := by
  unfold retrainDie
  dsimp only
  split <;> rfl

/-- t is s but for the governor, whose deferred restart is that of s. -/
def GovOnly (s t : State) : Prop := t = { s with gov := { t.gov with deferredRestart := s.gov.deferredRestart } }

theorem GovOnly.foldl_retrainDie (ds : List Nat) (s : State) : GovOnly s (ds.foldl retrainDie s) := by
  refine List.foldlRecOn (motive := GovOnly s) ds retrainDie rfl fun t ht d _ => ?_
  rw [retrainDie_gov]
  unfold GovOnly at *
  rw [ht]

/-- Applying the expiries that fell due leaves the clocks and the governor. -/
theorem applyDue_keeps {s : State} (h : s.boot.evq.length < 4096) : (applyDue s).clk = s.clk ∧ (applyDue s).gov = s.gov := by
  unfold applyDue
  split
  next => exact ⟨rfl, rfl⟩
  next c _ _ =>
    obtain ⟨boot, hlatch⟩ := latch_boot (.boathouse c.fn c.id) s h
    rw [hlatch, applyExpiry, convsOnly_foldl_endConv]
    exact ⟨rfl, rfl⟩

/-- The correction of the timestamp at the exit from RETAIN: the reference count less the time that passed by TIMESTAMP. -/
def retainCorrection (ref : Nat) (s : State) : Int := (ref : Int) - ((s.clk.ts : Int) - s.clk.retainFrom)

/-- The clocks re-locked. -/
def relockedClk (ref : Nat) (s : State) : Clocks :=
  { s.clk with
    rootLock := true, retainFrac := 0
    ts := if 0 ≤ retainCorrection ref s then (s.clk.ts + (retainCorrection ref s).toNat) % 2 ^ 64 else s.clk.ts
    halfDebt := if retainCorrection ref s < 0 then s.clk.halfDebt + (retainCorrection ref s).natAbs else s.clk.halfDebt }

theorem relock_rest (ref : Nat) (s : State) : relock ref s = { s with clk := relockedClk ref s, trace := (relock ref s).trace } :=
  traceWrite_rest (powerMark { s with clk := relockedClk ref s } true (retainCorrection ref s)) { s with clk := relockedClk ref s }

/-- The package with its correction factors at their start (R447). -/
def withStartCorr (s : State) : State := { s with gov := { s.gov with corr := startCorr s } }

theorem leaveRetain_eq (ref : Nat) (s : State) :
    leaveRetain ref s = applyDue ((sensedDies (withStartCorr (relock ref s))).foldl retrainDie (withStartCorr (relock ref s))) := rfl

theorem leaveRetain_keeps (ref : Nat) {s : State} (hroom : s.boot.evq.length < 4096) :
    (leaveRetain ref s).clk = relockedClk ref s ∧ (leaveRetain ref s).gov.deferredRestart = s.gov.deferredRestart := by
  have hgov := GovOnly.foldl_retrainDie (sensedDies (withStartCorr (relock ref s))) (withStartCorr (relock ref s))
  have hstart : withStartCorr (relock ref s) = { s with
      clk := relockedClk ref s, trace := (relock ref s).trace, gov := { s.gov with corr := startCorr (relock ref s) } } := by
    rw [withStartCorr, relock_rest]
  rw [leaveRetain_eq]
  generalize (sensedDies (withStartCorr (relock ref s))).foldl retrainDie (withStartCorr (relock ref s)) = u at hgov ⊢
  rw [hstart] at hgov
  obtain ⟨hclk, hkept⟩ := applyDue_keeps (s := u) (by rw [hgov]; exact hroom)
  rw [hclk, hkept, hgov]
  exact ⟨rfl, rfl⟩

/-- A positive correction steps the timestamp to where the reference stands. -/
theorem relockedClk_steps {ref : Nat} {s : State} (h : s.clk.ts ≤ s.clk.retainFrom + ref) :
    (relockedClk ref s).ts = (s.clk.retainFrom + ref) % 2 ^ 64 ∧ (relockedClk ref s).halfDebt = s.clk.halfDebt := by
  have hc : 0 ≤ retainCorrection ref s := by unfold retainCorrection; omega
  have hsum : s.clk.ts + (retainCorrection ref s).toNat = s.clk.retainFrom + ref := by unfold retainCorrection; omega
  exact ⟨by rw [← hsum]; exact if_pos hc, if_neg (not_lt.2 hc)⟩

/-- A negative correction leaves the timestamp, and is owed at half rate. -/
theorem relockedClk_owes {ref : Nat} {s : State} (h : s.clk.retainFrom + ref < s.clk.ts) :
    (relockedClk ref s).ts = s.clk.ts ∧ (relockedClk ref s).halfDebt = s.clk.halfDebt + (s.clk.ts - (s.clk.retainFrom + ref)) := by
  have hc : retainCorrection ref s < 0 := by unfold retainCorrection; omega
  have hdebt : (retainCorrection ref s).natAbs = s.clk.ts - (s.clk.retainFrom + ref) := by unfold retainCorrection; omega
  exact ⟨if_neg (not_le.2 hc), by rw [← hdebt]; exact if_pos hc⟩

/-- The package as the exit leaves it ACTIVE. -/
def activeAgain (since : Nat) (s : State) : State :=
  { s with gov := { s.gov with
      st := .active, bankUj := 0, lastExitUs := min (ceilDiv (now s - since) 1000) 0xFFFFFFFF, wakeOnDoorbell := false } }

theorem deferredActs_none {s : State} (h : s.gov.deferredRestart = 0) : deferredActs s = s := by
  unfold deferredActs
  rw [h, actOn, if_pos rfl, ← h]

theorem exec_powerStateExited {s : State} (hclocks : clocksRun s = true) (hst : s.gov.st = .exiting) (ref : Nat) :
    exec (.powerStateExited ref) s
      = finish s (deferredActs (activeAgain s.gov.exitSince (if s.gov.exitFrom = 2 then leaveRetain ref s else s))) := by
  show execPowerStateExited ref s = _
  rw [execPowerStateExited, if_pos (by rw [hclocks, hst]; rfl)]
  rfl

theorem powerStateExited_standby {s : State} (hclocks : clocksRun s = true) (hst : s.gov.st = .exiting) (hdeferred : s.gov.deferredRestart = 0)
    (ref : Nat) (hfrom : s.gov.exitFrom = 1) : exec (.powerStateExited ref) s = .next (activeAgain s.gov.exitSince s) := by
  rw [exec_powerStateExited hclocks hst, if_neg (by rw [hfrom]; decide), deferredActs_none (s := activeAgain _ s) hdeferred]
  rfl

theorem powerStateExited_retain {s : State} (hclocks : clocksRun s = true) (hst : s.gov.st = .exiting) (hdeferred : s.gov.deferredRestart = 0)
    (ref : Nat) (hfrom : s.gov.exitFrom = 2) (hroom : s.boot.evq.length < 4096) :
    ∃ t, exec (.powerStateExited ref) s = .next t ∧ t.clk = relockedClk ref s ∧ t.gov.st = .active ∧ t.gov.bankUj = 0 ∧ t.gov.wakeOnDoorbell = false
      ∧ t.gov.lastExitUs = min (ceilDiv (t.clk.ts - s.gov.exitSince) 1000) 0xFFFFFFFF := by
  obtain ⟨hclk, hkept⟩ := leaveRetain_keeps ref hroom
  have hexec := exec_powerStateExited hclocks hst ref
  rw [if_pos hfrom] at hexec
  generalize leaveRetain ref s = u at hexec hclk hkept
  rw [deferredActs_none (s := activeAgain _ u) (hkept.trans hdeferred)] at hexec
  exact ⟨_, hexec, hclk, rfl, rfl, rfl, rfl⟩

/-! ### Events that do not apply -/

theorem powerDrainTimeout_idle {s : State} (h : s.gov.draining = false) : exec .powerDrainTimeout s = .next s := by
  show execPowerDrainTimeout s = _
  rw [execPowerDrainTimeout, if_neg (by simp [h])]
  exact finish_self s

theorem powerStateEntered_idle {s : State} (h : s.gov.st ≠ .entering) : exec .powerStateEntered s = .next s := by
  show execPowerStateEntered s = _
  rw [execPowerStateEntered, if_neg (by simp [h])]
  exact finish_self s

theorem powerStateExited_idle {s : State} (h : s.gov.st ≠ .exiting) (ref : Nat) : exec (.powerStateExited ref) s = .next s := by
  show execPowerStateExited ref s = _
  rw [execPowerStateExited, if_neg (by simp [h])]
  exact finish_self s

end Sys2Proof.Machine

namespace Sys2Proof.Proofs

open Sys2Proof Sys2Proof.Machine

/-- Settles O51: each event by the state it finds. -/
theorem powerTransitions : Obligations.PowerTransitions := by
  intro s hclocks
  refine ⟨fun n r k hdrain hforce hpower hslot hsilent hholds hpost hrising =>
      powerDrainTimeout_ends hclocks hdrain hforce hpower hslot hsilent hholds hpost hrising,
    fun hdrain hforce hbusy => ⟨_, powerDrainTimeout_forces hclocks hdrain hforce hbusy, fun n r hslot hwork => ?_, fun n r k hslot hwork => ?_, rfl⟩,
    powerStateEntered_standby hclocks, fun hst htarget _ => powerStateEntered_retain hclocks hst htarget,
    fun hst hdeferred ref => ⟨powerStateExited_standby hclocks hst hdeferred ref, fun hfrom _ hroom => ?_⟩,
    powerDrainTimeout_idle, powerStateEntered_idle, powerStateExited_idle⟩
  · rw [slotOf_forceDrain, hslot, Option.map_some, forced_of_notPower hwork]
  · rw [slotOf_forceDrain, hslot, Option.map_some, forced_of_power hwork]
  · obtain ⟨t, hexec, hclk, hactive, hbank, hwake, hlast⟩ := powerStateExited_retain hclocks hst hdeferred ref hfrom hroom
    exact ⟨t, hexec, hactive, hbank, by rw [hclk]; rfl, hwake, hlast, fun h => by rw [hclk]; exact relockedClk_steps h,
      fun h => by rw [hclk]; exact relockedClk_owes h⟩

end Sys2Proof.Proofs
end

section
/-!
PROOFS. The host's side of a mailbox channel (R407, R409, R514; O31): a write of an index or of the doorbell touches its own channel, and beyond
that the event queue alone.
-/

namespace Sys2Proof.Machine

open Sys2Proof

/-! ### Channels by number -/

@[simp] theorem channelOf_setChannel_self (s : State) (n : Nat) (c : Channel) : channelOf (setChannel s n c) n = c := by simp [channelOf]

theorem channelOf_setChannel_other (s : State) {n m : Nat} (c : Channel) (h : m ≠ n) : channelOf (setChannel s n c) m = channelOf s m := by
  simp [channelOf, sgetD_sset_other _ _ _ _ _ h]

/-- t is s but for channel f and the event queue with its high-water mark. -/
structure ChannelWrite (f : Nat) (s t : State) : Prop where
  others : ∀ n, n ≠ f → channelOf t n = channelOf s n
  rest : t = { s with mbox := t.mbox, boot := { s.boot with highWater := t.boot.highWater, evq := t.boot.evq } }

theorem ChannelWrite.refl (f : Nat) (s : State) : ChannelWrite f s s := ⟨fun _ _ => rfl, rfl⟩

theorem ChannelWrite.trans {f : Nat} {s t u : State} (a : ChannelWrite f s t) (b : ChannelWrite f t u) : ChannelWrite f s u :=
  ⟨fun n hn => (b.others n hn).trans (a.others n hn), by rw [b.rest, a.rest]⟩

theorem setChannel_channelWrite (f : Nat) (c : Channel) (s : State) : ChannelWrite f s (setChannel s f c) :=
  ⟨fun _ hn => channelOf_setChannel_other s c hn, rfl⟩

theorem ChannelWrite.finish_eq {f : Nat} {s t : State} (h : ChannelWrite f s t) : finish s t = .next t := by
  rw [finish, h.rest]

/-! ### Doorbell bits of the firmware side (R409) -/

/-- Events that all find room touch the queue and its high-water mark alone (R514). -/
theorem foldl_latch_room {α : Type} (event : α → Event) (l : List α) (s : State) (h : s.boot.evq.length + l.length ≤ 4096) :
    ∃ q n, l.foldl (fun t x => latch (event x) t) s = { s with boot := { s.boot with highWater := n, evq := q } } := by
  induction l generalizing s with
  | nil => exact ⟨_, _, rfl⟩
  | cons x l ih =>
    rw [List.length_cons] at h
    obtain ⟨q, n, hlatch, hq⟩ := latch_room (event x) s (by omega)
    obtain ⟨q', n', hrest⟩ := ih { s with boot := { s.boot with highWater := n, evq := q } } (by dsimp only; omega)
    exact ⟨q', n', by rw [List.foldl_cons, hlatch, hrest]⟩

section
variable {f bits : Nat} {s : State} (h : s.boot.evq.length + (List.range 32).countP (hasBit bits) ≤ 4096)
include h

/-- No more events enter the queue than bits are asked for. -/
theorem setFwBits_room : ∃ q n, setFwBits f bits s
    = { setChannel s f { channelOf s f with fwBits := (channelOf s f).fwBits ||| bits } with boot := { s.boot with highWater := n, evq := q } } := by
  refine foldl_latch_room (.doorbell f) _ (setChannel s f _) (Nat.le_trans (Nat.add_le_add_left ?_ _) h)
  rw [← List.countP_eq_length_filter]
  exact List.countP_mono_left fun b _ hb => (Bool.and_eq_true_iff.1 hb).1

theorem channelOf_setFwBits : channelOf (setFwBits f bits s) f = { channelOf s f with fwBits := (channelOf s f).fwBits ||| bits } := by
  obtain ⟨_, _, heq⟩ := setFwBits_room (f := f) h
  rw [heq]
  exact channelOf_setChannel_self s f _

theorem setFwBits_channelWrite : ChannelWrite f s (setFwBits f bits s) := by
  obtain ⟨_, _, heq⟩ := setFwBits_room (f := f) h
  rw [heq]
  exact ⟨(setChannel_channelWrite f _ s).others, rfl⟩

end

/-! ### Indexes (R407, R409) -/

section
variable {f v : Nat} {s : State}

theorem writeH2dProd_overrun (h : 16 < (v + 32 - (channelOf s f).h2dCons) % 32) :
    writeH2dProd f v s = setChannel s f { channelOf s f with overrun := true } := if_pos h

theorem writeH2dProd_same (h : (v + 32 - (channelOf s f).h2dCons) % 32 ≤ 16) (hv : v = (channelOf s f).h2dProd) : writeH2dProd f v s = s :=
  (if_neg (Nat.not_lt.2 h)).trans (if_pos hv)

theorem writeH2dProd_posts (h : (v + 32 - (channelOf s f).h2dCons) % 32 ≤ 16) (hv : v ≠ (channelOf s f).h2dProd) :
    writeH2dProd f v s = setFwBits f 1 (setChannel s f { channelOf s f with h2dProd := v }) :=
  (if_neg (Nat.not_lt.2 h)).trans (if_neg hv)

/-- A posted index rings bit 0 (MESSAGE) alone, for which one place in the event queue is enough. -/
theorem messageBit_room {s : State} (h : s.boot.evq.length < 4096) : s.boot.evq.length + (List.range 32).countP (hasBit 1) ≤ 4096 := by
  rw [show (List.range 32).countP (hasBit 1) = 1 by decide]
  exact h

theorem writeH2dProd_channelWrite (v : Nat) (h : s.boot.evq.length < 4096) : ChannelWrite f s (writeH2dProd f v s) := by
  by_cases hover : 16 < (v + 32 - (channelOf s f).h2dCons) % 32
  · rw [writeH2dProd_overrun hover]
    exact setChannel_channelWrite f _ s
  by_cases hv : v = (channelOf s f).h2dProd
  · rw [writeH2dProd_same (Nat.not_lt.1 hover) hv]
    exact .refl f s
  · rw [writeH2dProd_posts (Nat.not_lt.1 hover) hv]
    exact (setChannel_channelWrite f _ s).trans (setFwBits_channelWrite (messageBit_room h))

theorem channelOf_writeH2dProd_posts (h : (v + 32 - (channelOf s f).h2dCons) % 32 ≤ 16) (hv : v ≠ (channelOf s f).h2dProd)
    (hroom : s.boot.evq.length < 4096) :
    channelOf (writeH2dProd f v s) f = { channelOf s f with h2dProd := v, fwBits := (channelOf s f).fwBits ||| 1 } := by
  rw [writeH2dProd_posts h hv, channelOf_setFwBits (s := setChannel s f _) (messageBit_room hroom), channelOf_setChannel_self]

theorem writeD2hCons_eq : writeD2hCons f v s
    = if (v + 32 - (channelOf s f).d2hCons) % 32 ≤ ((channelOf s f).d2hProd + 32 - (channelOf s f).d2hCons) % 32
      then setChannel s f { channelOf s f with d2hCons := v } else s := by
  rw [writeD2hCons]
  simp only [← Nat.not_lt, ite_not]

theorem channelOf_writeD2hCons : channelOf (writeD2hCons f v s) f
    = if (v + 32 - (channelOf s f).d2hCons) % 32 ≤ ((channelOf s f).d2hProd + 32 - (channelOf s f).d2hCons) % 32
      then { channelOf s f with d2hCons := v } else channelOf s f := by
  rw [writeD2hCons_eq, apply_ite (channelOf · f), channelOf_setChannel_self]

/-- The consumer index it held already is no change. -/
theorem channelOf_writeD2hCons_same (hv : v = (channelOf s f).d2hCons) : channelOf (writeD2hCons f v s) f = channelOf s f := by
  subst hv
  rw [channelOf_writeD2hCons]
  exact ite_self _

theorem writeD2hCons_mbox : writeD2hCons f v s = { s with mbox := (writeD2hCons f v s).mbox } := by
  rw [writeD2hCons_eq]
  split <;> rfl

theorem writeD2hCons_channelWrite (f v : Nat) (s : State) : ChannelWrite f s (writeD2hCons f v s) := by
  rw [writeD2hCons_eq]
  split
  · exact setChannel_channelWrite f _ s
  · exact .refl f s

end

/-! ### The writes of the host -/

/-- An access that includes the one index of MB_IDX includes the other: both stand in the low half. -/
theorem covers_d2hCons (w : RegAccess) : covers w 28 24 = covers w 4 0 := by
  cases hw : w.half <;> simp [covers, hw]

theorem writeMbIdx_eq {s : State} {w : RegAccess} (hcov : covers w 4 0 = true) :
    writeMbIdx w s = writeD2hCons w.fn (fieldOf (written w) 28 24) (writeH2dProd w.fn (fieldOf (written w) 4 0) s) := by
  rw [writeMbIdx, covers_d2hCons, hcov]
  rfl

section
variable {s : State} {w : RegAccess} (hw : fnWrite w s = true)
include hw

theorem exec_mbH2dPost (hcov : covers w 4 0 = true) : exec (.mbH2dPost w) s = finish s (writeMbIdx w s) := by
  show execMbH2dPost w s = _
  rw [execMbH2dPost, if_pos hcov, if_pos hw]

theorem exec_mbD2hConsume (hcov : covers w 28 24 = true) : exec (.mbD2hConsume w) s = finish s (writeMbIdx w s) := by
  show execMbD2hConsume w s = _
  rw [execMbD2hConsume, if_pos hcov, if_pos hw]

theorem exec_mbDbRing (hcov : covers w 30 0 = true) : exec (.mbDbRing w) s = finish s (writeMbDb w s) := by
  show execMbDbRing w s = _
  rw [execMbDbRing, if_pos hcov, if_pos hw]

end

/-! ### Bits of the doorbell -/

/-- The bits that RING asks for: its bits 1 to 30 at their own places. -/
theorem hasBit_ring (r : Reg) (b : Nat) : hasBit (2 * fieldOf r 30 1) b = (decide (1 ≤ b) && decide (b ≤ 30) && bitOf r b) := by
  rw [hasBit, ← pow_one 2, Nat.testBit_two_pow_mul, testBit_fieldOf, bitOf]
  by_cases hb : 1 ≤ b
  · rw [Nat.add_sub_cancel' hb, ← Bool.and_assoc]
    congr 2
    exact decide_eq_decide.2 (by omega)
  · simp [hb]

/-- The bits of PENDING that are not written 1 stay. -/
theorem hasBit_pending (m : Nat) (r : Reg) {b : Nat} (hb : b < 32) :
    hasBit (m &&& (0xFFFFFFFF - fieldOf r 63 32)) b = (hasBit m b && !bitOf r (32 + b)) := by
  have hfield : fieldOf r 63 32 < 2 ^ 32 := Nat.mod_lt _ (Nat.two_pow_pos _)
  rw [hasBit, hasBit, Nat.testBit_and, show 0xFFFFFFFF - fieldOf r 63 32 = 2 ^ 32 - (fieldOf r 63 32 + 1) by omega,
    Nat.testBit_two_pow_sub_succ hfield, testBit_fieldOf, bitOf]
  simp [hb]

/-- RING asks for at most 30 bits. -/
theorem ringBits_room (r : Reg) {s : State} (h : s.boot.evq.length + 30 ≤ 4096) :
    s.boot.evq.length + (List.range 32).countP (hasBit (2 * fieldOf r 30 1)) ≤ 4096 := by
  have hcount : (List.range 32).countP (hasBit (2 * fieldOf r 30 1)) ≤ (List.range 32).countP (fun b => decide (1 ≤ b) && decide (b ≤ 30)) :=
    List.countP_mono_left fun b _ hb => (Bool.and_eq_true_iff.1 (hasBit_ring r b ▸ hb)).1
  rw [show (List.range 32).countP (fun b => decide (1 ≤ b) && decide (b ≤ 30)) = 30 by decide] at hcount
  omega

theorem channelOf_writeMbDb {s : State} {w : RegAccess} (h : s.boot.evq.length + 30 ≤ 4096) :
    channelOf (writeMbDb w s) w.fn = { channelOf s w.fn with
      hostBits := (channelOf s w.fn).hostBits &&& (0xFFFFFFFF - fieldOf (written w) 63 32)
      fwBits := (channelOf s w.fn).fwBits ||| 2 * fieldOf (written w) 30 1 } := by
  rw [writeMbDb, channelOf_setFwBits (s := setChannel s w.fn _) (ringBits_room _ h), channelOf_setChannel_self]

theorem writeMbDb_channelWrite {s : State} {w : RegAccess} (h : s.boot.evq.length + 30 ≤ 4096) : ChannelWrite w.fn s (writeMbDb w s) :=
  (setChannel_channelWrite w.fn _ s).trans (setFwBits_channelWrite (ringBits_room _ h))

end Sys2Proof.Machine

namespace Sys2Proof.Proofs

open Sys2Proof Sys2Proof.Machine

theorem mailboxIndexes : Claims.MailboxIndexes := by
  intro s w hw hroom c prod cons
  refine ⟨fun hcov hcons => ?_, fun hcov hprod hfits => ?_⟩
  · have hposted := writeH2dProd_channelWrite (f := w.fn) prod hroom
    have hwrite := hposted.trans (writeD2hCons_channelWrite w.fn cons _)
    have hexec : exec (.mbH2dPost w) s = .next (writeD2hCons w.fn cons (writeH2dProd w.fn prod s)) := by
      rw [exec_mbH2dPost hw hcov, writeMbIdx_eq hcov]
      exact hwrite.finish_eq
    refine ⟨_, hexec, fun hover => ?_, fun hfits hnew => ?_, hwrite.others, hwrite.rest⟩
    · have hchan : channelOf (writeH2dProd w.fn prod s) w.fn = { c with overrun := true } := by
        rw [writeH2dProd_overrun hover, channelOf_setChannel_self]
      rw [channelOf_writeD2hCons_same (by rw [hchan]; exact hcons), hchan]
    · have hchan := channelOf_writeH2dProd_posts hfits hnew hroom
      have hsame : channelOf (writeD2hCons w.fn cons (writeH2dProd w.fn prod s)) w.fn = channelOf (writeH2dProd w.fn prod s) w.fn :=
        channelOf_writeD2hCons_same (by rw [hchan]; exact hcons)
      rw [hsame, hchan]
      exact ⟨rfl, by simp [hasBit]⟩
  · have hwrite := writeD2hCons_channelWrite w.fn cons s
    refine ⟨writeD2hCons w.fn cons s, ?_, channelOf_writeD2hCons, hwrite.others, writeD2hCons_mbox⟩
    rw [exec_mbD2hConsume hw hcov, writeMbIdx_eq (covers_d2hCons w ▸ hcov), writeH2dProd_same hfits hprod]
    exact hwrite.finish_eq

theorem mailboxDoorbell : Claims.MailboxDoorbell := by
  intro s w hw hcov hroom c
  have hwrite := writeMbDb_channelWrite (w := w) hroom
  refine ⟨_, (exec_mbDbRing hw hcov).trans hwrite.finish_eq, fun b _ => ?_, fun b hb => ?_, hwrite.others, hwrite.rest⟩
  · rw [channelOf_writeMbDb hroom, ← hasBit_ring]
    exact Nat.testBit_or _ _ _
  · rw [channelOf_writeMbDb hroom]
    exact hasBit_pending _ _ hb

/-- Settles O31: an index by what it leaves between the two sides, and the doorbell bit by bit. -/
theorem mailboxHostSide : Obligations.MailboxHostSide := ⟨mailboxIndexes, mailboxDoorbell⟩

end Sys2Proof.Proofs
end

section
/-!
PROOFS. The firmware's side of a mailbox channel (R407, R408; O32): the bytes of a message, the slot it goes into, and the answer to each type.
-/

namespace Sys2Proof.Machine

open Sys2Proof

/-! ### Parts of a block of bytes -/

theorem slice_of_append {out : List Byte} {o n : Nat} (before part after : List Byte) (h : out = before ++ (part ++ after)) (ho : before.length = o)
    (hn : part.length = n) : slice out o n = part := by
  rw [h, slice, ← ho, List.drop_left, List.take_left' hn, hn, Nat.sub_self, List.replicate_zero, List.append_nil]

theorem leAt_of_append {out : List Byte} {o n v : Nat} (before after : List Byte) (h : out = before ++ (leBytes n v ++ after))
    (ho : before.length = o) : leAt out o n = v % 256 ^ n := by
  rw [leAt, slice_of_append before _ after h ho (leBytes_length n v), leNat_leBytes]

theorem slice_whole {bs : List Byte} {n : Nat} (h : bs.length = n) : slice bs 0 n = bs :=
  slice_of_append [] bs [] (by simp) rfl h

theorem getElem?_slice (bs : List Byte) (o : Nat) {n i : Nat} (hi : i < n) : (slice bs o n)[i]? = some (bs.getD (o + i) 0) := by
  rw [slice]
  by_cases hin : o + i < bs.length
  · rw [List.getElem?_append_left (by simp; omega), List.getElem?_take_of_lt hi, List.getElem?_drop, List.getD_eq_getElem?_getD,
      List.getElem?_eq_getElem hin, Option.getD_some]
  · rw [List.getElem?_append_right (by simp; omega), List.getElem?_replicate_of_lt (by simp; omega), List.getD_eq_default _ _ (Nat.not_lt.1 hin)]

theorem leBytes_leNat (bs : List Byte) : leBytes bs.length (leNat bs) = bs := by
  induction bs with
  | nil => rfl
  | cons b bs ih =>
    have hlow : BitVec.ofNat 8 (leNat (b :: bs)) = b := by
      rw [leNat]
      bv_omega
    have hhigh : leNat (b :: bs) / 256 = leNat bs := by
      rw [leNat]
      have := b.isLt
      omega
    rw [List.length_cons, leBytes, hlow, hhigh, ih]

theorem leBytes_leAt (bs : List Byte) (o n : Nat) : leBytes n (leAt bs o n) = slice bs o n := by
  have h := leBytes_leNat (slice bs o n)
  rwa [slice_length] at h

theorem leAt_mod (bs : List Byte) (o n : Nat) : leAt bs o n % 256 ^ n = leAt bs o n := by
  rw [← leNat_leBytes, leBytes_leAt, leAt]

theorem length_readBytes (m : Mem) (a n : Nat) : (readBytes m a n).length = n := by
  induction n generalizing a with
  | zero => rfl
  | succ n ih => rw [readBytes, List.length_cons, ih]

/-! ### Messages (R406, R408) -/

theorem length_mailMessage (type response len cookie : Nat) (payload : List Byte) : (mailMessage type response len cookie payload).length = 64 := by
  simp [mailMessage, leBytes_length, slice_length]

section
variable (type response len cookie : Nat) (payload : List Byte)

theorem leAt_mailMessage_type : leAt (mailMessage type response len cookie payload) 0 2 = type % 2 ^ 16 :=
  leAt_of_append [] (leBytes 1 response ++ leBytes 1 len ++ leBytes 4 cookie ++ slice (payload.take len) 0 56) (by simp [mailMessage]) rfl

theorem leAt_mailMessage_response : leAt (mailMessage type response len cookie payload) 2 1 = response % 256 :=
  leAt_of_append (leBytes 2 type) (leBytes 1 len ++ leBytes 4 cookie ++ slice (payload.take len) 0 56) (by simp [mailMessage]) rfl

theorem leAt_mailMessage_len : leAt (mailMessage type response len cookie payload) 3 1 = len % 256 :=
  leAt_of_append (leBytes 2 type ++ leBytes 1 response) (leBytes 4 cookie ++ slice (payload.take len) 0 56) (by simp [mailMessage]) rfl

theorem slice_mailMessage_cookie : slice (mailMessage type response len cookie payload) 4 4 = leBytes 4 cookie :=
  slice_of_append (leBytes 2 type ++ leBytes 1 response ++ leBytes 1 len) _ (slice (payload.take len) 0 56) (by simp [mailMessage]) rfl rfl

theorem getElem?_mailMessage_payload {i : Nat} (hlen : i < len) (hi : i < 56) :
    (mailMessage type response len cookie payload)[8 + i]? = some (payload.getD i 0) := by
  have hheader : (leBytes 2 type ++ leBytes 1 response ++ leBytes 1 len ++ leBytes 4 cookie).length = 8 := rfl
  rw [mailMessage, List.getElem?_append_right (by omega), hheader, Nat.add_sub_cancel_left, getElem?_slice _ _ hi, Nat.zero_add,
    List.getD_eq_getElem?_getD, List.getD_eq_getElem?_getD, List.getElem?_take_of_lt hlen]

/-- The two words of a payload of 16 bytes. -/
theorem leAt_mailMessage_words (a b : Nat) :
    leAt (mailMessage type response 16 cookie (leBytes 8 a ++ leBytes 8 b)) 8 8 = a % 2 ^ 64
      ∧ leAt (mailMessage type response 16 cookie (leBytes 8 a ++ leBytes 8 b)) 16 8 = b % 2 ^ 64 := by
  have hout : mailMessage type response 16 cookie (leBytes 8 a ++ leBytes 8 b)
      = (leBytes 2 type ++ leBytes 1 response ++ leBytes 1 16 ++ leBytes 4 cookie) ++ (leBytes 8 a ++ (leBytes 8 b ++ List.replicate 40 0)) := rfl
  exact ⟨leAt_of_append _ _ hout rfl,
    leAt_of_append (leBytes 2 type ++ leBytes 1 response ++ leBytes 1 16 ++ leBytes 4 cookie ++ leBytes 8 a) _
      (by rw [hout, ← List.append_assoc]) rfl⟩

end

/-! ### Answers by type (R408) -/

/-- The answer's header: RESPONSE 1, and the COOKIE of the message. -/
theorem mailAnswer_header (s : State) (msg : List Byte) :
    (mailAnswer s msg).length = 64 ∧ leAt (mailAnswer s msg) 2 1 = 1 ∧ slice (mailAnswer s msg) 4 4 = slice msg 4 4 := by
  obtain ⟨type, len, payload, hanswer⟩ : ∃ type len payload, mailAnswer s msg = mailMessage type 1 len (leAt msg 4 4) payload := by
    rw [mailAnswer]
    split <;> exact ⟨_, _, _, rfl⟩
  rw [hanswer, length_mailMessage, leAt_mailMessage_response, slice_mailMessage_cookie]
  exact ⟨rfl, rfl, leBytes_leAt msg 4 4⟩

section
variable (s : State) {msg : List Byte}

theorem mailAnswer_echo (hlength : msg.length = 64) (htype : leAt msg 0 2 = 1) :
    leAt (mailAnswer s msg) 0 2 = 1 ∧ leAt (mailAnswer s msg) 3 1 = leAt msg 3 1
      ∧ ∀ i, i < leAt msg 3 1 → i < 56 → (mailAnswer s msg)[8 + i]? = msg[8 + i]? := by
  have hanswer : mailAnswer s msg = mailMessage 1 1 (leAt msg 3 1) (leAt msg 4 4) (slice msg 8 56) := by
    unfold mailAnswer
    simp only [htype]
  rw [hanswer, leAt_mailMessage_type, leAt_mailMessage_len]
  refine ⟨rfl, leAt_mod msg 3 1, fun i hlen hi => ?_⟩
  rw [getElem?_mailMessage_payload _ _ _ _ _ hlen hi, List.getD_eq_getElem?_getD, getElem?_slice _ _ hi, Option.getD_some,
    getElem?_eq_some_getD (by omega) 0]

theorem mailAnswer_status (htype : leAt msg 0 2 = 2) :
    leAt (mailAnswer s msg) 0 2 = 2 ∧ leAt (mailAnswer s msg) 3 1 = 16 ∧ leAt (mailAnswer s msg) 8 8 = healthReg s % 2 ^ 64
      ∧ leAt (mailAnswer s msg) 16 8 = bootReg s % 2 ^ 64 := by
  have hanswer : mailAnswer s msg = mailMessage 2 1 16 (leAt msg 4 4) (leBytes 8 (healthReg s) ++ leBytes 8 (bootReg s)) := by
    unfold mailAnswer
    simp only [htype]
  rw [hanswer, leAt_mailMessage_type, leAt_mailMessage_len]
  exact ⟨rfl, rfl, leAt_mailMessage_words _ _ _ _ _⟩

theorem mailAnswer_reserved (hecho : leAt msg 0 2 ≠ 1) (hstatus : leAt msg 0 2 ≠ 2) :
    leAt (mailAnswer s msg) 0 2 = 0 ∧ leAt (mailAnswer s msg) 3 1 = 0 := by
  have hanswer : mailAnswer s msg = mailMessage 0 1 0 (leAt msg 4 4) [] := by
    rw [mailAnswer]
    split
    · exact absurd ‹_› hecho
    · exact absurd ‹_› hstatus
    · rfl
  rw [hanswer, leAt_mailMessage_type, leAt_mailMessage_len]
  exact ⟨rfl, rfl⟩

end

/-! ### Posting into the next slot (R407, R409) -/

@[simp] theorem channelOf_raiseMsix (f v : Nat) (s : State) (n : Nat) : channelOf (raiseMsix f v s) n = channelOf s n := by
  rw [raiseMsix_rest]
  rfl

theorem channelOf_setHostBits (f bits : Nat) (s : State) (n : Nat) : channelOf (setHostBits f bits s) n
    = channelOf (setChannel s f { channelOf s f with hostBits := (channelOf s f).hostBits ||| bits }) n := by
  rw [setHostBits]
  dsimp only
  split
  · exact channelOf_raiseMsix _ _ _ n
  · rfl

theorem setHostBits_rest (f bits : Nat) (s : State) : setHostBits f bits s
    = { s with mbox := (setHostBits f bits s).mbox, port := (setHostBits f bits s).port, mem := (setHostBits f bits s).mem } := by
  rw [setHostBits]
  split
  · rw [raiseMsix_rest]
    rfl
  · rfl

/-- The doorbell bits that a posted message sets: MESSAGE, and with a LOG_NOTIFY also ERROR_RECORD. -/
def messageBits (msg : List Byte) : Nat := if leAt msg 0 2 = 3 then 3 else 1

theorem hasBit_messageBits (m : Nat) (msg : List Byte) : hasBit (m ||| messageBits msg) 0 = true := by
  rw [hasBit, Nat.testBit_or, messageBits]
  split <;> simp

theorem channelOf_d2hPut_other {f n : Nat} (msg : List Byte) (s : State) (h : n ≠ f) : channelOf (d2hPut f msg s) n = channelOf s n := by
  rw [d2hPut, channelOf_setHostBits, channelOf_setChannel_other _ _ h, channelOf_setChannel_other _ _ h]

theorem finish_d2hPut (f n : Nat) (msg : List Byte) (c : Channel) (s : State) :
    finish s (d2hPut f msg (setChannel s n c)) = .next (d2hPut f msg (setChannel s n c)) := by
  rw [finish, d2hPut, setHostBits_rest]
  rfl

section
variable {f : Nat} {s : State} {c : Channel} (hc : channelOf s f = c) (msg : List Byte)
include hc

theorem channelOf_d2hPut_self : channelOf (d2hPut f msg s) f = { c with
    d2h := writeBytes c.d2h (64 * (c.d2hProd % 16)) (slice msg 0 64), d2hProd := (c.d2hProd + 1) % 32, hostBits := c.hostBits ||| messageBits msg } := by
  rw [d2hPut, channelOf_setHostBits, channelOf_setChannel_self, channelOf_setChannel_self, hc]
  rfl

/-- The message reads back from the slot that was next. -/
theorem readBytes_d2hPut (hwf : Memory.wf c.d2h = true) :
    readBytes (channelOf (d2hPut f msg s) f).d2h (64 * (c.d2hProd % 16)) 64 = slice msg 0 64 := by
  have hread := readBytes_writeBytes_self (slice msg 0 64) _ (64 * (c.d2hProd % 16)) hwf
  rw [slice_length] at hread
  rw [channelOf_d2hPut_self hc]
  exact hread

end

theorem d2hPost_room {f : Nat} {msg : List Byte} {s : State} (hrun : fwRunning s = true) (hroom : d2hRoom (channelOf s f) = true)
    (hheld : (channelOf s f).held = []) : d2hPost f msg s = d2hPut f msg s := if_pos (by simp [hrun, hroom, hheld])

/-! ### The two commands of the firmware -/

/-- The channel once its oldest host-to-device message is taken. -/
def Channel.oneTaken (c : Channel) : Channel :=
  { c with h2dCons := (c.h2dCons + 1) % 32, fwBits := if (c.h2dCons + 1) % 32 = c.h2dProd then clearBit c.fwBits 0 else c.fwBits }

theorem exec_mailboxResponse {s : State} {ch : Nat} (hch : ch < 64) (hrun : fwRunning s = true) (hmsg : (channelOf s ch).h2dCons ≠ (channelOf s ch).h2dProd)
    (hroom : d2hRoom (channelOf s ch) = true) (hheld : (channelOf s ch).held = []) :
    exec (.mailboxResponse ch) s
      = .next (d2hPut ch (mailAnswer s (readBytes (channelOf s ch).h2d (64 * ((channelOf s ch).h2dCons % 16)) 64))
          (setChannel s ch (channelOf s ch).oneTaken)) := by
  have hchan := channelOf_setChannel_self s ch (channelOf s ch).oneTaken
  rw [← finish_d2hPut, ← d2hPost_room (s := setChannel s ch _) hrun (by rw [hchan]; exact hroom) (by rw [hchan]; exact hheld)]
  show execMailboxResponse ch s = _
  rw [execMailboxResponse, if_pos hch]
  exact if_pos (by simp [hrun, hmsg])

theorem exec_mbD2hPost {s : State} {ch : Nat} {msg : List Byte} {rest : List (List Byte)} (hch : ch < 64) (hrun : fwRunning s = true)
    (hheld : (channelOf s ch).held = msg :: rest) (hroom : d2hRoom (channelOf s ch) = true) :
    exec (.mbD2hPost ch) s = .next (d2hPut ch msg (setChannel s ch { channelOf s ch with held := rest })) := by
  rw [← finish_d2hPut]
  show execMbD2hPost ch s = _
  rw [execMbD2hPost, if_pos hch]
  dsimp only
  rw [hheld]
  exact if_pos (by rw [hroom, hrun]; rfl)

theorem exec_mbD2hPost_nothingHeld {s : State} {ch : Nat} (hch : ch < 64) (hheld : (channelOf s ch).held = []) :
    exec (.mbD2hPost ch) s = .next s := by
  show execMbD2hPost ch s = _
  rw [execMbD2hPost, if_pos hch]
  dsimp only
  rw [hheld]
  exact finish_self s

end Sys2Proof.Machine

namespace Sys2Proof.Proofs

open Sys2Proof Sys2Proof.Machine

/-- Settles O32: the answer to the oldest message by its type, and the oldest of the held messages. -/
theorem mailboxMessages : Obligations.MailboxMessages := by
  refine ⟨?_, ?_, fun s ch hch hheld => exec_mbD2hPost_nothingHeld hch hheld⟩
  · intro s ch hch hrun c hmsg hroom hheld hwf msg
    have htaken : channelOf (setChannel s ch c.oneTaken) ch = c.oneTaken := channelOf_setChannel_self s ch _
    obtain ⟨hlength, hresponse, hcookie⟩ := mailAnswer_header s msg
    have hexec : exec (.mailboxResponse ch) s = .next (d2hPut ch (mailAnswer s msg) (setChannel s ch c.oneTaken)) :=
      exec_mailboxResponse hch hrun hmsg hroom hheld
    have hchan := channelOf_d2hPut_self htaken (mailAnswer s msg)
    have hout : readBytes _ (64 * (c.d2hProd % 16)) 64 = mailAnswer s msg :=
      (readBytes_d2hPut htaken (mailAnswer s msg) hwf).trans (slice_whole hlength)
    have hothers : ∀ n, n ≠ ch → channelOf (d2hPut ch (mailAnswer s msg) (setChannel s ch c.oneTaken)) n = channelOf s n :=
      fun n hn => (channelOf_d2hPut_other _ _ hn).trans (channelOf_setChannel_other s _ hn)
    generalize d2hPut ch (mailAnswer s msg) (setChannel s ch c.oneTaken) = t at hexec hchan hout hothers
    refine ⟨t, hexec, ?_, hothers⟩
    dsimp only
    rw [hout, hchan]
    exact ⟨rfl, rfl, hasBit_messageBits _ _, hcookie, hresponse, mailAnswer_echo s (length_readBytes _ _ _), mailAnswer_status s,
      mailAnswer_reserved s⟩
  · intro s ch msg rest hch hrun hheld hroom hwf
    have hrest := channelOf_setChannel_self s ch { channelOf s ch with held := rest }
    have hchan := channelOf_d2hPut_self hrest msg
    exact ⟨_, exec_mbD2hPost hch hrun hheld hroom, (congrArg Channel.held hchan :), (congrArg Channel.d2hProd hchan :), readBytes_d2hPut hrest msg hwf⟩

end Sys2Proof.Proofs
end

section
/-!
PROOFS. The actions of a DMA channel (R413, R415, R416; O33): what a write to DMA_CTL leaves to the channel, and where a stop leaves its record.
-/

namespace Sys2Proof.Machine

open Sys2Proof

theorem MovesOnly.finish_eq {s t : State} (h : MovesOnly s t) : finish s t = .next t := by
  rw [finish, h]

/-! ### Channels by number -/

@[simp] theorem dmaOf_setDma_self (s : State) (n : Nat) (d : Dma) : dmaOf (setDma s n d) n = d := by simp [dmaOf]

theorem dmaOf_setDma_other (s : State) {n m : Nat} (d : Dma) (h : m ≠ n) : dmaOf (setDma s n d) m = dmaOf s m := by
  simp [dmaOf, sgetD_sset_other _ _ _ _ _ h]

@[simp] theorem dmaOf_raiseMsix (f v : Nat) (s : State) (n : Nat) : dmaOf (raiseMsix f v s) n = dmaOf s n := by
  rw [raiseMsix_rest]
  rfl

/-! ### A channel that stops (R413, R415) -/

/-- The channel once it has stopped. -/
def Dma.stopped (d : Dma) (st : DmaState) : Dma := { d with st := st, aborting := false }

section
variable (ch : Nat) (d : Dma) (ending : Nat) (st : DmaState) (s : State)

/-- Whether the vector is raised or not, the channels are those that the stop leaves. -/
theorem dmaOf_dmaStop (n : Nat) : dmaOf (dmaStop ch d ending st s) n = dmaOf (setDma s ch (d.stopped st)) n := by
  rw [dmaStop]
  split
  · exact dmaOf_raiseMsix _ _ _ n
  · rfl

@[simp] theorem dmaOf_dmaStop_self : dmaOf (dmaStop ch d ending st s) ch = d.stopped st := by
  rw [dmaOf_dmaStop, dmaOf_setDma_self]

theorem dmaOf_dmaStop_other {n : Nat} (h : n ≠ ch) : dmaOf (dmaStop ch d ending st s) n = dmaOf s n := by
  rw [dmaOf_dmaStop, dmaOf_setDma_other _ _ h]

theorem length_dmaRecord : (dmaRecord d ending).length = 32 := by simp [dmaRecord, leBytes_length]

end

/-- The record stands in host memory, and where no vector is raised nothing else of host memory changes. -/
theorem dmaStop_record (ch : Nat) {d : Dma} (ending : Nat) (st : DmaState) {s : State} (hsilent : bitOf d.ctl 8 = false)
    (hwf : Memory.wf s.mem.host = true) :
    readBytes (dmaStop ch d ending st s).mem.host d.cpl.toNat 32 = dmaRecord d ending
      ∧ ∀ a, a < d.cpl.toNat ∨ d.cpl.toNat + 32 ≤ a → readByte (dmaStop ch d ending st s).mem.host a = readByte s.mem.host a := by
  have hmem : (dmaStop ch d ending st s).mem.host = writeBytes s.mem.host d.cpl.toNat (dmaRecord d ending) := by
    rw [dmaStop, hsilent]
    rfl
  rw [hmem]
  refine ⟨?_, fun a ha => readByte_writeBytes_other _ _ _ a hwf (by rwa [length_dmaRecord])⟩
  have hread := readBytes_writeBytes_self (dmaRecord d ending) _ d.cpl.toNat hwf
  rwa [length_dmaRecord] at hread

/-! ### Writes to DMA_CTL -/

/-- The writable fields of DMA_CTL. -/
def dmaCtlFields : List (Nat × Nat) := [(63, 56), (55, 48), (43, 43), (42, 42), (41, 41), (40, 40), (36, 32), (8, 8)]

/-- The channel with those fields as a write leaves them. -/
def Dma.written (d : Dma) (w : RegAccess) : Dma :=
  { d with ctl := dmaCtlFields.foldl (fun r f => rwField d.ctl w f.1 f.2 anyVal r) d.ctl }

theorem fieldOf_ctl_written (d : Dma) {w : RegAccess} (hfull : w.half = .full) :
    ∀ f ∈ dmaCtlFields, fieldOf (d.written w).ctl f.1 f.2 = fieldOf w.data f.1 f.2 := by
  intro f hf
  rw [← merged_full d.ctl hfull]
  simp only [dmaCtlFields, List.mem_cons, List.not_mem_nil, or_false] at hf
  rcases hf with rfl | rfl | rfl | rfl | rfl | rfl | rfl | rfl <;>
    simp [Dma.written, dmaCtlFields, anyVal, fieldOf_rwField_self, fieldOf_rwField_other]

/-- The effect of action bit k. -/
def dmaAct : Nat → Nat → State → State
  | 0 => dmaStart
  | 1 => dmaPause
  | 2 => dmaResume
  | _ => dmaAbort

section
variable {s : State} {ch : Nat} {w : RegAccess} {k : Nat} (h : Claims.dmaAction s ch w k)
include h

/-- A write with one action bit takes the writable fields where they accept writes, and acts once. -/
theorem writeDmaCtl_one (hk : k < 4) :
    writeDmaCtl ch w s = dmaAct k ch (if dmaIdle (dmaOf s ch) then setDma s ch ((dmaOf s ch).written w) else s) := by
  obtain ⟨-, -, hbits⟩ := h
  rw [writeDmaCtl, hbits 0 (by decide), hbits 1 (by decide), hbits 2 (by decide), hbits 3 (by decide)]
  interval_cases k <;> rfl

theorem writeDmaCtl_busy (hk : k < 4) (hbusy : dmaIdle (dmaOf s ch) = false) : writeDmaCtl ch w s = dmaAct k ch s := by
  rw [writeDmaCtl_one h hk, hbusy]
  rfl

end

section
variable {s : State} {ch : Nat} {w : RegAccess}

theorem exec_dmaStart (h : Claims.dmaAction s ch w 0) : exec (.dmaStart ch w) s = finish s (writeDmaCtl ch w s) := by
  obtain ⟨hch, hwrite, hbits⟩ := h
  show execDmaStart ch w s = _
  rw [execDmaStart, if_pos ⟨hch, hbits 0 (by decide)⟩, if_pos hwrite]

theorem exec_dmaPause (h : Claims.dmaAction s ch w 1) : exec (.dmaPause ch w) s = finish s (writeDmaCtl ch w s) := by
  obtain ⟨hch, hwrite, hbits⟩ := h
  show execDmaPause ch w s = _
  rw [execDmaPause, if_pos ⟨hch, hbits 1 (by decide)⟩, if_pos hwrite]

theorem exec_dmaResume (h : Claims.dmaAction s ch w 2) : exec (.dmaResume ch w) s = finish s (writeDmaCtl ch w s) := by
  obtain ⟨hch, hwrite, hbits⟩ := h
  show execDmaResume ch w s = _
  rw [execDmaResume, if_pos ⟨hch, hbits 2 (by decide)⟩, if_pos hwrite]

theorem exec_dmaAbort (h : Claims.dmaAction s ch w 3) : exec (.dmaAbort ch w) s = finish s (writeDmaCtl ch w s) := by
  obtain ⟨hch, hwrite, hbits⟩ := h
  show execDmaAbort ch w s = _
  rw [execDmaAbort, if_pos ⟨hch, hbits 3 (by decide)⟩, if_pos hwrite]

end

/-! ### START (R413, R416) -/

/-- The channel at the START of a transfer. -/
def Dma.started (d : Dma) : Dma :=
  { d with st := .running, bytesDone := 0, error := 0, seq := (d.seq + 1) % 2 ^ 32, aborting := false, poisonWords := 0, poisonAt := none }

/-- The source is a list, or a range that the channel may use; the destination likewise. -/
def srcUsable (s : State) (d : Dma) : Bool :=
  bitOf d.ctl 40 || sideOk s false (if bitOf d.ctl 42 then some (fieldOf d.ctl 55 48) else none) d.src.toNat d.count.toNat
def dstUsable (s : State) (d : Dma) : Bool :=
  bitOf d.ctl 41 || sideOk s true (if bitOf d.ctl 43 then some (fieldOf d.ctl 63 56) else none) d.dst.toNat d.count.toNat

section
variable {s : State} {ch : Nat}

theorem dmaStart_eq (hidle : dmaIdle (dmaOf s ch) = true) : dmaStart ch s
    = if (srcUsable s (dmaOf s ch) && dstUsable s (dmaOf s ch)) = true then setDma s ch (dmaOf s ch).started
      else dmaFail ch (dmaOf s ch).started 2 s := by
  rw [dmaStart, if_pos hidle, srcUsable, dstUsable]
  simp only [← Bool.not_or, ← Bool.not_and]
  generalize (_ && _ : Bool) = usable
  cases usable <;> rfl

theorem dmaStart_busy (hbusy : dmaIdle (dmaOf s ch) = false) : dmaStart ch s = s := if_neg (by simp [hbusy])

/-- START on a channel that is not in a transfer: it runs, or where a side may not be used it stops with error 2. -/
theorem exec_dmaStart_idle {w : RegAccess} (h : Claims.dmaAction s ch w 0) (hidle : dmaIdle (dmaOf s ch) = true) :
    ∃ t st error, exec (.dmaStart ch w) s = .next t ∧ (∀ n, n ≠ ch → dmaOf t n = dmaOf s n)
      ∧ dmaOf t ch = { ((dmaOf s ch).written w).started with st := st, error := error }
      ∧ (srcUsable s ((dmaOf s ch).written w) = true → dstUsable s ((dmaOf s ch).written w) = true → st = .running ∧ error = 0 ∧ t.mem = s.mem)
      ∧ (srcUsable s ((dmaOf s ch).written w) = false ∨ dstUsable s ((dmaOf s ch).written w) = false → st = .error ∧ error = 2) := by
  have htaken : dmaOf (setDma s ch ((dmaOf s ch).written w)) ch = (dmaOf s ch).written w := dmaOf_setDma_self s ch _
  have hexec := exec_dmaStart h
  rw [writeDmaCtl_one h (by decide), if_pos hidle, dmaAct, dmaStart_eq (by rw [htaken]; exact hidle), htaken] at hexec
  by_cases husable : (srcUsable s ((dmaOf s ch).written w) && dstUsable s ((dmaOf s ch).written w)) = true
  · refine ⟨_, .running, 0, hexec.trans (congrArg (finish s) (if_pos husable)), fun n hn => ?_, dmaOf_setDma_self _ _ _, fun _ _ => ⟨rfl, rfl, rfl⟩,
      fun hbad => ?_⟩
    · exact (dmaOf_setDma_other _ _ hn).trans (dmaOf_setDma_other _ _ hn)
    · rw [Bool.and_eq_true] at husable
      simp [husable] at hbad
  · refine ⟨_, .error, 2, hexec.trans (congrArg (finish s) (if_neg husable)), fun n hn => ?_, dmaOf_dmaStop_self _ _ _ _ _, fun hsrc hdst => ?_,
      fun _ => ⟨rfl, rfl⟩⟩
    · exact (dmaOf_dmaStop_other _ _ _ _ _ hn).trans (dmaOf_setDma_other _ _ hn)
    · exact absurd (by rw [hsrc, hdst]; rfl) husable

end

/-! ### PAUSE, RESUME and ABORT in a transfer (R413) -/

theorem MovesOnly.dmaPause (ch : Nat) (s : State) : MovesOnly s (dmaPause ch s) := by
  rw [Machine.dmaPause]
  split
  · exact .setDma s ch _
  · exact .refl s

theorem MovesOnly.dmaResume (ch : Nat) (s : State) : MovesOnly s (dmaResume ch s) := by
  rw [Machine.dmaResume]
  split
  · exact .setDma s ch _
  · exact .refl s

/-- ABORT stops a PAUSED channel at once; one that moves waits for the unit boundary. -/
theorem dmaAbort_paused {s : State} {ch : Nat} (h : (dmaOf s ch).st = .paused) : dmaAbort ch s = dmaStop ch (dmaOf s ch) 2 .aborted s := if_pos h

theorem dmaAbort_moving {s : State} {ch : Nat} (hbusy : dmaIdle (dmaOf s ch) = false) (h : (dmaOf s ch).st ≠ .paused) :
    dmaAbort ch s = setDma s ch { dmaOf s ch with aborting := true } := by
  have hmoves : (dmaOf s ch).st = .running ∨ (dmaOf s ch).st = .pausing := by
    revert hbusy h
    rw [dmaIdle]
    cases (dmaOf s ch).st <;> decide
  rw [dmaAbort, if_neg h, if_pos hmoves]

end Sys2Proof.Machine

namespace Sys2Proof.Proofs

open Sys2Proof Sys2Proof.Machine

theorem dmaStart_actions : Claims.DmaStart := by
  intro s ch w h d
  refine ⟨fun hidle => ?_, fun hbusy => ?_⟩
  · obtain ⟨t, st, error, hexec, hothers, hchan, hruns, hrefused⟩ := exec_dmaStart_idle h hidle
    refine ⟨t, hexec, ?_, hothers⟩
    dsimp only
    rw [hchan]
    exact ⟨fieldOf_ctl_written d, rfl, rfl, rfl, rfl, rfl, rfl, hruns, hrefused⟩
  · rw [exec_dmaStart h, writeDmaCtl_busy h (by decide) hbusy]
    exact congrArg (finish s) (dmaStart_busy hbusy)

theorem dmaActions : Claims.DmaActions := by
  intro s ch w d hbusy
  refine ⟨fun h => ?_, fun h => ?_, fun h hmoves => ?_, fun h hpaused hsilent hwf => ?_⟩
  · rw [exec_dmaPause h, writeDmaCtl_busy h (by decide) hbusy]
    exact MovesOnly.finish_eq (MovesOnly.dmaPause ch s)
  · rw [exec_dmaResume h, writeDmaCtl_busy h (by decide) hbusy]
    exact MovesOnly.finish_eq (MovesOnly.dmaResume ch s)
  · rw [exec_dmaAbort h, writeDmaCtl_busy h (by decide) hbusy]
    exact congrArg (finish s) (dmaAbort_moving hbusy hmoves)
  · have hexec := exec_dmaAbort h
    rw [writeDmaCtl_busy h (by decide) hbusy] at hexec
    obtain ⟨hrecord, hothers⟩ := dmaStop_record ch 2 .aborted hsilent hwf
    refine ⟨dmaStop ch d 2 .aborted s, ?_, dmaOf_dmaStop_self _ _ _ _ _, hrecord, hothers⟩
    exact (hexec.trans (congrArg (finish s) (dmaAbort_paused hpaused))).trans (MovesOnly.dmaStop ch d 2 .aborted s).finish_eq

/-- Settles O33: START by what it finds, and the other actions by the state of the transfer. -/
theorem dmaControl : Obligations.DmaControl := ⟨dmaStart_actions, dmaActions⟩

end Sys2Proof.Proofs
end

section
/-!
PROOFS. The move of one unit between two places of host memory that read well (R413, R414; O34): what is read, where it lands, and how the channel
goes on or stops at the unit's boundary.
-/

namespace Sys2Proof.Machine

open Sys2Proof

theorem getD_readBytes (m : Mem) (a : Nat) {n i : Nat} (hi : i < n) : (readBytes m a n).getD i 0 = readByte m (a + i) := by
  induction n generalizing a i with
  | zero => cases hi
  | succ n ih =>
    cases i with
    | zero => rfl
    | succ i => rw [readBytes, List.getD_cons_succ, ih (a + 1) (Nat.lt_of_succ_lt_succ hi), Nat.add_right_comm, Nat.add_assoc]

/-! ### A source in host memory -/

section
variable {s : State} (hfail : s.mem.hostFail = []) (hbad : s.mem.hostBad = [])
include hfail hbad

/-- Bytes of host memory that read well: none is missing, and none is poisoned. -/
theorem segBytes_host {g : DmaSeg} (hg : g.region = none) (n i : Nat) :
    (segBytes s g n i).map Prod.fst = readBytes s.mem.host (g.addr + i) n ∧ ∀ x ∈ segBytes s g n i, x.2.1 = false := by
  induction n generalizing i with
  | zero => exact ⟨rfl, nofun⟩
  | succ n ih =>
    obtain ⟨hbytes, hclean⟩ := ih (i + 1)
    have hbyte : sideByte s g.region (g.addr + i) = some (readByte s.mem.host (g.addr + i), false) := by
      rw [hg, sideByte, hfail, hbad]
      rfl
    rw [segBytes, hbyte]
    exact ⟨congrArg (readByte s.mem.host (g.addr + i) :: ·) hbytes, List.forall_mem_cons.2 ⟨rfl, hclean⟩⟩

theorem length_segBytes_host {g : DmaSeg} (hg : g.region = none) (n i : Nat) : (segBytes s g n i).length = n := by
  rw [← List.length_map (f := Prod.fst), (segBytes_host hfail hbad hg n i).1, length_readBytes]

/-- A unit that its source's stretch holds whole is read from that stretch. -/
theorem gatherBytes_host {d : Dma} {o n : Nat} {g : DmaSeg} (hseg : srcSeg s d o = .ok g) (hg : g.region = none) (hpos : 0 < n) (hfit : n ≤ g.len) :
    gatherBytes d n o n s = (segBytes s g n 0, 0, s) := by
  obtain ⟨f, rfl⟩ := Nat.exists_eq_add_one.2 hpos
  have htouch : touchSeg s g (f + 1) = s := by rw [touchSeg, hg]
  have hend : ∀ p, gatherBytes d f p 0 s = ([], 0, s) := fun p => by cases f <;> rfl
  rw [gatherBytes, if_neg (Nat.succ_ne_zero f), hseg]
  dsimp only
  rw [Nat.min_eq_left hfit, htouch, if_neg (by rw [length_segBytes_host hfail hbad hg]; exact Nat.lt_irrefl _), Nat.sub_self, hend, List.append_nil]

end

/-! ### A destination in host memory -/

/-- No byte of a stretch is marked poisoned. -/
theorem filter_zipIdx_clean {bs : List (Byte × Bool × Bool)} (h : ∀ x ∈ bs, x.2.1 = false) : bs.zipIdx.filter (fun x => x.1.2.1) = [] :=
  List.filter_eq_nil_iff.2 fun x hx => by simp [h x.1 (List.fst_mem_of_mem_zipIdx hx)]

/-- Clean bytes in host memory without poisoned ranges change its content alone. -/
theorem landBytes_host {s : State} {g : DmaSeg} {bs : List (Byte × Bool × Bool)} (hg : g.region = none) (hclean : ∀ x ∈ bs, x.2.1 = false)
    (hbad : s.mem.hostBad = []) :
    landBytes g bs s = { s with mem := { s.mem with host := writeBytes s.mem.host g.addr (bs.map Prod.fst) } } := by
  rw [landBytes, hg]
  dsimp only
  rw [poisonedWords, filter_zipIdx_clean hclean, hostWrite, hbad]
  rfl

/-! ### The end of a unit (R413) -/

/-- What the channel does once the bytes of a unit have landed. -/
def unitEnd (ch : Nat) (d : Dma) (s : State) : State :=
  if d.bytesDone = d.count.toNat then dmaStop ch { d with pauseLate := d.pauseLate || d.st == .pausing } 0 .done s
  else if d.aborting then dmaStop ch d 2 .aborted s
  else if d.st = .pausing then dmaStop ch d 1 .paused s
  else setDma s ch d

/-- The channel with n more bytes done. -/
def Dma.moved (d : Dma) (n : Nat) : Dma := { d with bytesDone := d.bytesDone + n }

/-- The channel as it stands then. -/
def Dma.unitEnded (d : Dma) : Dma :=
  if d.bytesDone = d.count.toNat then { d with pauseLate := d.pauseLate || d.st == DmaState.pausing }.stopped .done
  else if d.aborting then d.stopped .aborted
  else if d.st = .pausing then d.stopped .paused
  else d

theorem dmaOf_unitEnd (ch : Nat) (d : Dma) (s : State) : dmaOf (unitEnd ch d s) ch = d.unitEnded := by
  rw [unitEnd, Dma.unitEnded]
  simp only [apply_ite (dmaOf · ch), dmaOf_dmaStop_self, dmaOf_setDma_self]

section
variable (d : Dma)

theorem unitEnded_bytesDone : d.unitEnded.bytesDone = d.bytesDone := by
  unfold Dma.unitEnded
  split_ifs <;> rfl

theorem unitEnded_seq : d.unitEnded.seq = d.seq := by
  unfold Dma.unitEnded
  split_ifs <;> rfl

theorem unitEnded_error : d.unitEnded.error = d.error := by
  unfold Dma.unitEnded
  split_ifs <;> rfl

variable {d}

theorem unitEnded_last (h : d.bytesDone = d.count.toNat) :
    d.unitEnded.st = .done ∧ d.unitEnded.pauseLate = (d.pauseLate || d.st == .pausing) := by
  rw [Dma.unitEnded, if_pos h]
  exact ⟨rfl, rfl⟩

/-- With bytes left the channel goes on, unless an ABORT or a PAUSE waits for this boundary. -/
theorem unitEnded_boundary (h : d.bytesDone ≠ d.count.toNat) (hmoves : d.st = .running ∨ d.st = .pausing) :
    d.unitEnded.st = (if d.aborting = true then .aborted else if d.st = .pausing then .paused else .running) ∧ d.unitEnded.pauseLate = d.pauseLate := by
  rw [Dma.unitEnded, if_neg h]
  split
  · exact ⟨rfl, rfl⟩
  split
  · exact ⟨rfl, rfl⟩
  next hpausing => exact ⟨hmoves.resolve_right hpausing, rfl⟩

end

theorem unitEnd_goesOn (ch : Nat) {d : Dma} (s : State) (h : d.bytesDone ≠ d.count.toNat) (haborting : d.aborting = false) (hst : d.st = .running) :
    unitEnd ch d s = setDma s ch d := by
  rw [unitEnd, if_neg h, if_neg (by simp [haborting]), if_neg (by simp [hst])]

theorem MovesOnly.unitEnd (ch : Nat) (d : Dma) (s : State) : MovesOnly s (unitEnd ch d s) := by
  unfold Machine.unitEnd
  split_ifs
  · exact .dmaStop ch _ _ _ s
  · exact .dmaStop ch _ _ _ s
  · exact .dmaStop ch _ _ _ s
  · exact .setDma s ch d

/-! ### One unit (R414) -/

/-- The next byte's destination, and the bytes from there to the next multiple of 4,096 or to the last byte. -/
def Dma.landing (d : Dma) : Nat := d.dst.toNat + d.bytesDone
def Dma.unitLength (d : Dma) : Nat := min (d.count.toNat - d.bytesDone) (4096 - d.landing % 4096)

/-- The package once the channel's next bytes, read from host memory, have landed there. -/
def unitLanded (d : Dma) (s : State) : State :=
  { s with mem := { s.mem with
      host := writeBytes s.mem.host d.landing (readBytes s.mem.host (d.src.toNat + d.bytesDone) d.unitLength) } }

theorem unitLanded_movesOnly (d : Dma) (s : State) : MovesOnly s (unitLanded d s) := rfl

/-- Neither side is a list or a region. -/
def Dma.betweenHost (d : Dma) : Prop := bitOf d.ctl 40 = false ∧ bitOf d.ctl 41 = false ∧ bitOf d.ctl 42 = false ∧ bitOf d.ctl 43 = false

/-- The stretches of host memory that the channel reads from and writes to next. -/
def Dma.source (d : Dma) : DmaSeg := ⟨none, d.src.toNat + d.bytesDone, d.count.toNat - d.bytesDone, d.bytesDone == 0⟩
def Dma.destination (d : Dma) : DmaSeg := ⟨none, d.landing, d.count.toNat - d.bytesDone, d.bytesDone == 0⟩

theorem srcSeg_host (s : State) {d : Dma} (h : d.betweenHost) : srcSeg s d d.bytesDone = .ok d.source := by
  obtain ⟨hlist, -, hspace, -⟩ := h
  rw [srcSeg, hlist, plainSeg, hspace]
  rfl

theorem dstSeg_host (s : State) {d : Dma} (h : d.betweenHost) : dstSeg s d d.bytesDone = .ok d.destination := by
  obtain ⟨-, hlist, -, hspace⟩ := h
  rw [dstSeg, hlist, plainSeg, hspace]
  rfl

/-- Host memory neither waits for the write buffer nor for a far-memory port. -/
theorem unitWaits_host (s : State) {d : Dma} (h : d.betweenHost) : unitWaits s d d.destination = false := by
  rw [unitWaits, srcSeg_host s h]
  rfl

theorem unitLength_pos {d : Dma} (h : d.bytesDone < d.count.toNat) : 0 < d.unitLength := by
  rw [Dma.unitLength]
  omega

theorem moveUnit_host {s : State} {ch : Nat} {d : Dma} (hd : dmaOf s ch = d) (hsides : d.betweenHost) (hfail : s.mem.hostFail = [])
    (hbad : s.mem.hostBad = []) (hleft : d.bytesDone < d.count.toNat) : moveUnit ch s = unitEnd ch (d.moved d.unitLength) (unitLanded d s) := by
  have hcount : d.count ≠ 0#64 := fun h => by simp [h] at hleft
  have hlen : min d.destination.len (4096 - d.destination.addr % 4096) = d.unitLength := rfl
  have hread := gatherBytes_host hfail hbad (srcSeg_host s hsides) rfl (unitLength_pos hleft) (Nat.min_le_left _ _)
  have hbytes := segBytes_host hfail hbad (g := d.source) rfl d.unitLength 0
  generalize segBytes s d.source d.unitLength 0 = bs at hread hbytes
  obtain ⟨hbytes, hclean⟩ := hbytes
  have hlength : bs.length = d.unitLength := by rw [← List.length_map (f := Prod.fst), hbytes, length_readBytes]
  have hwords : bs.filter (fun x => x.2.1 && x.2.2) = [] := List.filter_eq_nil_iff.2 fun x hx => by simp [hclean x hx]
  rw [moveUnit, hd]
  dsimp only
  rw [if_neg hcount, dstSeg_host s hsides]
  dsimp only
  rw [unitWaits_host s hsides, hlen, hread]
  dsimp only
  rw [filter_zipIdx_clean hclean, hwords, hlength, landBytes_host rfl hclean hbad, hbytes]
  simp only [List.map_nil, List.head?_nil, Option.or_none, List.length_nil, Nat.add_zero, ne_eq, not_true, if_false]
  rfl

theorem exec_dmaUnitMoved {s : State} {ch : Nat} (hch : ch < 16) (hclocks : clocksRun s = true)
    (hmoves : (dmaOf s ch).st = .running ∨ (dmaOf s ch).st = .pausing) : exec (.dmaUnitMoved ch) s = finish s (moveUnit ch s) := by
  show execDmaUnitMoved ch s = _
  rw [execDmaUnitMoved, if_pos hch]
  exact congrArg (finish s) (if_pos (by simpa [hclocks] using hmoves))

/-- Each byte lands as it was read. -/
theorem readByte_unitLanded_self {s : State} {d : Dma} (hwf : Memory.wf s.mem.host = true) {i : Nat} (hi : i < d.unitLength) :
    readByte (unitLanded d s).mem.host (d.landing + i) = readByte s.mem.host (d.src.toNat + d.bytesDone + i) := by
  have hread := readByte_writeBytes_self (readBytes s.mem.host (d.src.toNat + d.bytesDone) d.unitLength) d.landing hwf (i := i)
    (by rwa [length_readBytes])
  exact hread.trans (getD_readBytes _ _ hi)

theorem readByte_unitLanded_other {s : State} {d : Dma} (hwf : Memory.wf s.mem.host = true) {a : Nat}
    (ha : a < d.landing ∨ d.landing + d.unitLength ≤ a) : readByte (unitLanded d s).mem.host a = readByte s.mem.host a :=
  readByte_writeBytes_other _ _ _ a hwf (by rwa [length_readBytes])

end Sys2Proof.Machine

namespace Sys2Proof.Proofs

open Sys2Proof Sys2Proof.Machine

/-- Settles O34: the unit lands as it was read, and the channel goes on or stops as its boundary asks. -/
theorem dmaMovesUnits : Obligations.DmaMovesUnits := by
  intro s ch hch hclocks d hmoves h40 h41 h42 h43 hfail hbad hwf hleft land n
  have hexec : exec (.dmaUnitMoved ch) s = .next (unitEnd ch (d.moved n) (unitLanded d s)) := by
    rw [exec_dmaUnitMoved hch hclocks hmoves, moveUnit_host rfl ⟨h40, h41, h42, h43⟩ hfail hbad hleft]
    exact ((unitLanded_movesOnly d s).trans (.unitEnd ch (d.moved n) _)).finish_eq
  have hchan := dmaOf_unitEnd ch (d.moved n) (unitLanded d s)
  refine ⟨_, hexec, ?_⟩
  rw [hchan, unitEnded_bytesDone, unitEnded_seq, unitEnded_error]
  refine ⟨rfl, rfl, rfl, fun hlast => unitEnded_last hlast, fun hmore => unitEnded_boundary (Nat.ne_of_lt hmore) hmoves, fun hmore haborting hst => ?_⟩
  rw [unitEnd_goesOn (d := d.moved n) ch _ (Nat.ne_of_lt hmore) haborting hst]
  exact ⟨fun i hi => readByte_unitLanded_self hwf hi, fun a ha => readByte_unitLanded_other hwf ha, rfl⟩

end Sys2Proof.Proofs
end

section
/-!
PROOFS. Novmund ports (R421, R428, R431; O52): what a 64-bit write to NL_CTL leaves to its port, whichever of its rows it comes by.
-/

namespace Sys2Proof.Machine

open Sys2Proof

theorem wrote_full {w : RegAccess} (hfull : w.half = .full) (n : Nat) : wrote w n = bitOf w.data n := by
  rw [wrote, written, merged_full 0 hfull]

/-! ### NL_CTL -/

/-- The fields of NL_CTL as its register shows them (R421). -/
def nlCtlReg (x : NlPort) : Reg := BitVec.ofNat 64 (bit x.enable + 8 * bit x.width4 + 16 * x.medium)

theorem bit_lt_two (b : Bool) : bit b < 2 := by cases b <;> decide

theorem fieldOf_nlCtlReg_medium {x : NlPort} (hmedium : x.medium < 4) : fieldOf (nlCtlReg x) 5 4 = x.medium := by
  have henable := bit_lt_two x.enable
  have hwidth := bit_lt_two x.width4
  rw [nlCtlReg, fieldOf, BitVec.toNat_ofNat, Nat.shiftRight_eq_div_pow]
  omega

/-- A port with MEDIUM, WIDTH4 and ENABLE written; MEDIUM 3 is no value (R15, R421). -/
def NlPort.withCtl (w : RegAccess) (x : NlPort) : NlPort :=
  { x with
    medium := if fieldOf w.data 5 4 < 3 then fieldOf w.data 5 4 else x.medium, width4 := bitOf w.data 3, enable := bitOf w.data 0 }

/-- A port whose link is down and which does not train. -/
def NlPort.down (x : NlPort) : NlPort := { x with training := false, linkUp := false, width := 0, degraded := false, peer := none }

/-- A port after a 64-bit write to its NL_CTL, but for its counters. -/
def NlPort.afterEnable (w : RegAccess) (x : NlPort) : NlPort :=
  if !bitOf w.data 0 then (x.withCtl w).down
  else if !x.enable ∨ bitOf w.data 6 = true then { x.withCtl w with training := true } else x.withCtl w

/-- A port after a 64-bit write to its NL_CTL. -/
def NlPort.afterCtl (w : RegAccess) (x : NlPort) : NlPort :=
  if bitOf w.data 7 = true then { x.afterEnable w with fecCorrected := 0, fecUncorrected := 0, retransmits := 0 } else x.afterEnable w

theorem NlPort.afterEnable_on {w : RegAccess} (hon : bitOf w.data 0 = true) (x : NlPort) :
    x.afterEnable w = { x.withCtl w with training := x.training || !x.enable || bitOf w.data 6 } := by
  rw [afterEnable, if_neg (by simp [hon])]
  split
  next htrains => rcases htrains with h | h <;> simp [h]
  next hstays =>
    rw [not_or, Bool.not_eq_true, Bool.not_eq_true] at hstays
    simp [hstays, withCtl]

theorem NlPort.afterEnable_off {w : RegAccess} (hoff : bitOf w.data 0 = false) (x : NlPort) : x.afterEnable w = (x.withCtl w).down :=
  if_pos (by simp [hoff])

/-- ENABLE decides over the link; the counters stay. -/
theorem NlPort.afterEnable_fields (w : RegAccess) (x : NlPort) : let y := x.afterEnable w
    y.enable = bitOf w.data 0 ∧ y.width4 = bitOf w.data 3 ∧ y.medium = (if fieldOf w.data 5 4 < 3 then fieldOf w.data 5 4 else x.medium)
      ∧ (bitOf w.data 0 = true → y.training = (x.training || !x.enable || bitOf w.data 6) ∧ y.linkUp = x.linkUp ∧ y.width = x.width ∧ y.peer = x.peer)
      ∧ (bitOf w.data 0 = false → y.training = false ∧ y.linkUp = false ∧ y.width = 0 ∧ y.degraded = false ∧ y.peer = none)
      ∧ y.fecCorrected = x.fecCorrected ∧ y.fecUncorrected = x.fecUncorrected ∧ y.retransmits = x.retransmits := by
  cases hbit : bitOf w.data 0
  case false =>
    rw [afterEnable_off hbit]
    exact ⟨hbit, rfl, rfl, nofun, fun _ => ⟨rfl, rfl, rfl, rfl, rfl⟩, rfl, rfl, rfl⟩
  case true =>
    rw [afterEnable_on hbit]
    exact ⟨hbit, rfl, rfl, fun _ => ⟨rfl, rfl, rfl, rfl⟩, nofun, rfl, rfl, rfl⟩

theorem writeNlCtl_full {s : State} {p : Nat} {w : RegAccess} (hfull : w.half = .full) (hmedium : (nlPortOf s p).medium < 4) :
    writeNlCtl p w s = setNlPort s p ((nlPortOf s p).afterCtl w) := by
  have hfields : let old := nlCtlReg (nlPortOf s p)
      let r := rwField old w 0 0 anyVal (rwField old w 3 3 anyVal (rwField old w 5 4 (fun v => decide (v < 3)) old))
      bitOf r 0 = bitOf w.data 0 ∧ bitOf r 3 = bitOf w.data 3
        ∧ fieldOf r 5 4 = if fieldOf w.data 5 4 < 3 then fieldOf w.data 5 4 else (nlPortOf s p).medium := by
    simp (disch := omega) only [bitOf_rwField_other, fieldOf_rwField_other, bitOf_rwField_full _ hfull, fieldOf_rwField_full _ hfull,
      fieldOf_nlCtlReg_medium hmedium, decide_eq_true_eq, and_self]
  obtain ⟨henable, hwidth, hmed⟩ := hfields
  rw [nlCtlReg] at henable hwidth hmed
  unfold writeNlCtl
  dsimp only
  rw [henable, hwidth, hmed, wrote_full hfull, wrote_full hfull]
  rfl

/-- ENABLE, RETRAIN and CLR_CNT are bits of one register, and a write of any of them is a write to it. -/
theorem exec_nlCtl {s : State} {p : Nat} {w : RegAccess} (hp : p < 8) (hport : isPort s p = true) (hw : pfWrite w s = true) (hfull : w.half = .full) :
    ∀ c ∈ ([(.nlEnable p w, 0), (.nlRetrain p w, 6), (.clrCnt p w, 7)] : List (Instr × Nat)), bitOf w.data c.2 = true →
      exec c.1 s = .next (writeNlCtl p w s) := by
  have hwrite : nlWrite p w s = writeNlCtl p w s := if_pos (by rw [hw, hport]; rfl)
  have row {n : Nat} (hbit : bitOf w.data n = true) :
      (if p < 8 ∧ wrote w n = true then finish s (nlWrite p w s) else .refused .illFormed) = .next (writeNlCtl p w s) := by
    rw [if_pos ⟨hp, (wrote_full hfull n).trans hbit⟩, hwrite]
    rfl
  simp only [List.forall_mem_cons]
  exact ⟨row, row, row, by simp⟩

/-! ### Training and loss -/

theorem exec_nlPortTrained {s : State} {p : Nat} (hport : isPort s p = true) (hclocks : clocksRun s = true) (htraining : (nlPortOf s p).training = true)
    {lanes : Nat} (hlanes : lanes = 0 ∨ lanes = 4 ∨ lanes = 8) (peer : Option (Nat × Nat)) :
    exec (.nlPortTrained p ⟨lanes, peer⟩) s =
      let x := nlPortOf s p
      let n := if x.width4 then min 4 lanes else lanes
      .next (setNlPort s p { x with
        training := false, linkUp := n != 0, width := n, degraded := n == 4 && !x.width4, peer := if n = 0 then none else peer }) := by
  show execNlPortTrained p ⟨lanes, peer⟩ s = _
  rw [execNlPortTrained, if_pos ⟨hport, hlanes⟩]
  exact if_pos (by rw [hclocks, htraining]; rfl)

theorem exec_nlLinkLost {s : State} {p : Nat} (hport : isPort s p = true) (hclocks : clocksRun s = true) (hup : (nlPortOf s p).linkUp = true) :
    exec (.nlLinkLost p) s
      = .next (setNlPort s p { nlPortOf s p with linkUp := false, width := 0, degraded := false, peer := none }) := by
  show execNlLinkLost p s = _
  rw [execNlLinkLost, if_pos hport]
  exact congrArg (finish s) (if_pos (by rw [hclocks, hup]; rfl))

end Sys2Proof.Machine

namespace Sys2Proof.Proofs

open Sys2Proof Sys2Proof.Machine

/-- Settles O52: one write for the three rows, and what training and a lost link leave to the port. -/
theorem linkPorts : Obligations.LinkPorts := by
  refine ⟨fun s p w hp hport hw hfull hmedium c hc hbit => ?_, fun s p hport hclocks => ⟨fun htraining peer => ?_, exec_nlLinkLost hport hclocks⟩⟩
  · intro x
    refine ⟨x.afterCtl w, by rw [exec_nlCtl hp hport hw hfull c hc hbit, writeNlCtl_full hfull hmedium], ?_⟩
    obtain ⟨henable, hwidth, hmed, hon, hoff, hcounts⟩ := x.afterEnable_fields w
    unfold NlPort.afterCtl
    split
    · exact ⟨henable, hwidth, hmed, hon, hoff, rfl, rfl, rfl⟩
    · exact ⟨henable, hwidth, hmed, hon, hoff, hcounts⟩
  · have trained {lanes : Nat} (hlanes : lanes = 0 ∨ lanes = 4 ∨ lanes = 8) := exec_nlPortTrained hport hclocks htraining hlanes peer
    refine ⟨(trained (.inl rfl)).trans ?_, (trained (.inr (.inl rfl))).trans ?_, (trained (.inr (.inr rfl))).trans ?_⟩
    all_goals cases hwidth : (nlPortOf s p).width4 <;> simp [hwidth]

end Sys2Proof.Proofs
end

section
/-!
PROOFS. Frames (R422 to R426, R428; O53): what a frame that leaves does to the package, how one that arrives is dropped or taken, and what becomes of
one that is not acknowledged.
-/

namespace Sys2Proof.Machine

open Sys2Proof

/-! ### What leaves (R423, R425, R428) -/

/-- t is s but for its net. -/
def NetOnly (s t : State) : Prop := t = { s with net := t.net }

theorem NetOnly.trans {s t u : State} (a : NetOnly s t) (b : NetOnly t u) : NetOnly s u := by
  unfold NetOnly at *
  rw [b, a]

theorem NetOnly.finish_eq {s t : State} (h : NetOnly s t) : finish s t = .next t := by
  rw [finish, h]

/-- t is s but for the frames that have left, and the rotation of their ports. -/
def SentOnly (s t : State) : Prop := t = { s with net := { s.net with sent := t.net.sent, rotate := t.net.rotate } }

theorem SentOnly.refl (s : State) : SentOnly s s := rfl

theorem SentOnly.trans {s t u : State} (a : SentOnly s t) (b : SentOnly t u) : SentOnly s u := by
  unfold SentOnly at *
  rw [b, a]

theorem SentOnly.netOnly {s t : State} (h : SentOnly s t) : NetOnly s t := by
  rw [NetOnly, h]

theorem SentOnly.foldl {α : Type} {f : State → α → State} (h : ∀ t x, SentOnly t (f t x)) (xs : List α) (s : State) : SentOnly s (xs.foldl f s) := by
  induction xs generalizing s with
  | nil => exact .refl s
  | cons x xs ih => exact (h s x).trans (ih _)

/-- The header of a frame as it leaves by port q. -/
def leavingBy (s : State) (q : Nat) (f : Frame) : Frame := { f with srcAddr := srcAddress q s.net.pkgNum }

theorem transmit_sentOnly (f : Frame) (s : State) : SentOnly s (transmit f s) := by
  unfold transmit
  split <;> rfl

theorem sent_transmit {f : Frame} {s : State} {q : Nat} (h : pickPort s f.dst = some q) :
    (transmit f s).net.sent = s.net.sent ++ [(q, leavingBy s q f)] := by
  rw [transmit, h]
  rfl

theorem sendControl_sentOnly (dst : Nat) (c : Control) (s : State) : SentOnly s (sendControl dst c s) := transmit_sentOnly _ s

theorem sendControls_sentOnly (ds : List Nat) (c : Control) (s : State) : SentOnly s (sendControls ds c s) :=
  .foldl (fun t d => sendControl_sentOnly d c t) _ s

/-- A frame of this package carries its number, and the address of its port. -/
theorem sentTo_newFrame (s : State) (q kind dst shell seq : Nat) (payload : List Byte) (c : Control) :
    Claims.sentTo s q dst kind (q, leavingBy s q (newFrame s kind dst shell seq payload c)) := ⟨rfl, rfl, rfl, rfl, rfl, rfl, rfl⟩

/-- The port of a frame depends on the routes, their rotation, and the links of the ports. -/
theorem pickPort_congr {s t : State} (hpart : t.part = s.part) (hroute : t.net.route = s.net.route) (hrotate : t.net.rotate = s.net.rotate)
    (hlink : ∀ p, (nlPortOf t p).linkUp = (nlPortOf s p).linkUp ∧ (nlPortOf t p).training = (nlPortOf s p).training) (d : Nat) :
    pickPort t d = pickPort s d := by
  have hports : routePorts t d = routePorts s d := by simp only [routePorts, isPort, hpart, hroute, hlink]
  simp only [pickPort, hports, hrotate]

/-! ### What arrives (R422) -/

/-- A port with one more frame that FEC could not correct. -/
def NlPort.fecFailed (x : NlPort) : NlPort := { x with fecUncorrected := min 0xFFFF (x.fecUncorrected + 1) }

section
variable {s : State} {p : Nat} {f : Frame}

section
variable (hclocks : clocksRun s = true) (hup : (nlPortOf s p).linkUp = true) (hfec : f.fecOk = false)
include hclocks hup hfec

theorem receive_dropped (body : State → State) : receive p f body s = setNlPort s p (nlPortOf s p).fecFailed := by
  rw [receive, if_pos (by rw [hfec]; rfl), if_pos (by rw [hclocks, hup]; rfl)]
  rfl

variable (hok : frameOk s p f = true)
include hok

/-- A frame whose FEC fails is dropped and counted, whatever its kind. -/
theorem exec_frameRows_dropped : ∀ r ∈ Claims.frameRows p f, f.kind = r.2 → exec r.1 s = .next (setNlPort s p (nlPortOf s p).fecFailed) := by
  have row {k : Nat} (hkind : f.kind = k) (body : State → State) :
      (if frameOk s p f = true ∧ f.kind = k then finish s (receive p f body s) else .refused .illFormed)
        = .next (setNlPort s p (nlPortOf s p).fecFailed) := by
    rw [if_pos ⟨hok, hkind⟩, receive_dropped hclocks hup hfec]
    rfl
  simp only [Claims.frameRows, List.forall_mem_cons]
  exact ⟨fun h => row h _, fun h => row h _, fun h => row h _, fun h => row h _, by simp⟩

theorem exec_frameForward_dropped (hkind : f.kind < 4) : exec (.frameForward p f) s = .next (setNlPort s p (nlPortOf s p).fecFailed) := by
  show execFrameForward p f s = _
  rw [execFrameForward, if_pos ⟨hok, hkind⟩, if_pos (by rw [hfec]; rfl), if_pos (by rw [hclocks, hup]; rfl)]
  rfl

end

variable (hfec : f.fecOk = true)
include hfec

section
variable (hgood : frameGood p f s = true) (hdst : f.dst = s.net.pkgNum)
include hgood hdst

theorem receive_taken (body : State → State) : receive p f body s = body s := by
  rw [receive, if_neg (by simp [hfec]), if_pos (by simp [hgood, hdst])]

variable (hok : frameOk s p f = true)
include hok

theorem exec_dataFrame (hkind : f.kind = 0) : exec (.dataFrame p f) s = finish s (takeData f s) := by
  show execDataFrame p f s = _
  rw [execDataFrame, if_pos ⟨hok, hkind⟩, receive_taken hfec hgood hdst]

/-- An acknowledgement releases the frame that it names. -/
theorem exec_ackFrame (hkind : f.kind = 1) : exec (.ackFrame p f) s = .next { s with net := { s.net with
    unacked := s.net.unacked.filter (fun x => decide (x.frame.dst ≠ f.src ∨ x.frame.seq ≠ f.seq)) } } := by
  have hother (x : TxFrame) : (!(x.frame.dst == f.src && x.frame.seq == f.seq)) = decide (x.frame.dst ≠ f.src ∨ x.frame.seq ≠ f.seq) := by
    rw [Bool.eq_iff_iff, decide_eq_true_eq]
    simp
  show execAckFrame p f s = _
  rw [execAckFrame, if_pos ⟨hok, hkind⟩, receive_taken hfec hgood hdst]
  simp only [hother]
  rfl

theorem exec_timeFrame (hkind : f.kind = 3) (stamp : Nat) :
    exec (.timeFrame p f stamp) s = .next { s with net := { s.net with timeStamps := sset s.net.timeStamps f.src stamp } } := by
  show execTimeFrame p f stamp s = _
  rw [execTimeFrame, if_pos ⟨hok, hkind⟩, receive_taken hfec hgood hdst]
  rfl

/-- A heartbeat: its sender's address is learned, and the package that it names has been heard. -/
theorem exec_controlFrame_heartbeat (hkind : f.kind = 2) {g : Nat} (hcontrol : f.control = .heartbeat g) :
    exec (.controlFrame p f) s = .next { s with net := { s.net with
      learned := sset s.net.learned f.src f.srcAddr, heard := sset s.net.heard g s.clk.ts } } := by
  show execControlFrame p f s = _
  rw [execControlFrame, if_pos ⟨hok, hkind⟩, receive_taken hfec hgood hdst, takeControl, hcontrol]
  rfl

end

/-! ### Frames for another package (R425) -/

section
variable (hok : frameOk s p f = true) (hkind : f.kind < 4)
include hok hkind

theorem exec_frameForward_spent (hhops : f.hops = 0) : exec (.frameForward p f) s = .next s := by
  show execFrameForward p f s = _
  rw [execFrameForward, if_pos ⟨hok, hkind⟩, if_neg (by simp [hfec]), if_neg (by simp [hhops])]
  rfl

theorem exec_frameForward (hgood : frameGood p f s = true) (hdst : f.dst ≠ s.net.pkgNum) (hhops : f.hops ≠ 0) :
    exec (.frameForward p f) s = .next (transmit { f with hops := f.hops - 1 } s) := by
  show execFrameForward p f s = _
  rw [execFrameForward, if_pos ⟨hok, hkind⟩, if_neg (by simp [hfec]), if_pos (by simp [hgood, hdst, hhops])]
  exact (transmit_sentOnly _ s).netOnly.finish_eq

end

end

/-! ### DATA in order, early and repeated (R426) -/

/-- The acknowledgement of a frame. -/
def ackOf (s : State) (f : Frame) : Frame := newFrame s 1 f.src f.shell f.seq [] .none

/-- The package with a DATA frame delivered, before its acknowledgement leaves. -/
def delivering (f : Frame) (s : State) : State :=
  { s with net := { s.net with
      delivered := s.net.delivered ++ [f], rxSeq := sset s.net.rxSeq f.src ((f.seq + 1) % 2 ^ 32)
      early := s.net.early.filter (fun g => !(g.src == f.src && g.seq == f.seq)) } }

section
variable {f : Frame} {s : State}

/-- With no frame waiting for its turn, one that is next in order is delivered alone. -/
theorem takeData_next (hseq : f.seq = sgetD s.net.rxSeq f.src 0) (hearly : s.net.early = []) : takeData f s = transmit (ackOf s f) (delivering f s) := by
  rw [takeData, if_pos hseq, hearly]
  rfl

variable (hseq : f.seq ≠ sgetD s.net.rxSeq f.src 0)
include hseq

/-- One ahead of its turn is kept. -/
theorem takeData_early (hahead : (f.seq + 2 ^ 32 - sgetD s.net.rxSeq f.src 0) % 2 ^ 32 < 2 ^ 31) (hnew : ∀ g ∈ s.net.early, g.src ≠ f.src ∨ g.seq ≠ f.seq) :
    takeData f s = { s with net := { s.net with early := s.net.early ++ [f] } } := by
  have hfirst : s.net.early.any (fun g => g.src == f.src && g.seq == f.seq) = false := by
    rw [List.any_eq_false]
    intro g hg
    rcases hnew g hg with h | h <;> simp [h]
  rw [takeData, if_neg hseq, if_pos hahead, hfirst]
  rfl

theorem takeData_repeat (hbehind : 2 ^ 31 ≤ (f.seq + 2 ^ 32 - sgetD s.net.rxSeq f.src 0) % 2 ^ 32) : takeData f s = transmit (ackOf s f) s := by
  rw [takeData, if_neg hseq, if_neg (Nat.not_lt.2 hbehind)]
  rfl

end

/-- The acknowledgement of a frame goes out to its sender. -/
theorem sentTo_ack {s t : State} {f : Frame} (hsent : t.net.sent = s.net.sent) (hnum : t.net.pkgNum = s.net.pkgNum) (hpick : pickPort t f.src = pickPort s f.src) :
    ∀ q, pickPort s f.src = some q →
      ∃ x, (transmit (ackOf s f) t).net.sent = s.net.sent ++ [x] ∧ Claims.sentTo s q f.src 1 x ∧ x.2.seq = f.seq := by
  intro q hq
  refine ⟨_, (sent_transmit (f := ackOf s f) (hpick.trans hq)).trans (by rw [hsent]), ?_, rfl⟩
  rw [leavingBy, hnum]
  exact sentTo_newFrame s q 1 f.src f.shell f.seq [] .none

/-! ### Retransmission (R426) -/

/-- A port with one more retransmission counted. -/
def NlPort.resent (x : NlPort) : NlPort := { x with retransmits := min 0xFFFF (x.retransmits + 1) }

/-- Counting a retransmission moves no frame to another port. -/
theorem pickPort_resent (s : State) (p d : Nat) : pickPort (setNlPort s p (nlPortOf s p).resent) d = pickPort s d := by
  refine pickPort_congr (s := s) (t := setNlPort s p (nlPortOf s p).resent) rfl rfl rfl (fun k => ?_) d
  by_cases h : k = p
  · subst h
    simp [nlPortOf, NlPort.resent]
  · simp [nlPortOf, sgetD_sset_other _ _ _ _ _ h]

/-- A frame of a destination and number, sent again by port p at a time. -/
def TxFrame.sentAgain (dst seq p time : Nat) (z : TxFrame) : TxFrame :=
  if z.frame.dst == dst && z.frame.seq == seq then { z with port := p, lastTx := time, count := z.count + 1 } else z

/-- The package with a frame sent again by port p. -/
def resending (dst seq p : Nat) (f : Frame) (s : State) : State :=
  let t := transmit f (setNlPort s p (nlPortOf s p).resent)
  { t with net := { t.net with unacked := t.net.unacked.map (TxFrame.sentAgain dst seq p s.clk.ts) } }

theorem resending_netOnly (dst seq p : Nat) (f : Frame) (s : State) : NetOnly s (resending dst seq p f s) := by
  have hsent := (transmit_sentOnly f (setNlPort s p (nlPortOf s p).resent)).netOnly
  have hstart : NetOnly s (setNlPort s p (nlPortOf s p).resent) := rfl
  exact (hstart.trans hsent).trans rfl

theorem nlPortOf_resending (dst seq p : Nat) (f : Frame) (s : State) : nlPortOf (resending dst seq p f s) p = (nlPortOf s p).resent := by
  have hports : (resending dst seq p f s).net.ports = (setNlPort s p (nlPortOf s p).resent).net.ports := by
    show (transmit f _).net.ports = _
    rw [transmit_sentOnly]
  rw [nlPortOf, hports]
  exact sgetD_sset_self _ _ _ _

/-- The frame that is held has been sent now, by the port. -/
theorem unacked_resending {dst seq p : Nat} {f : Frame} {s : State} {z : TxFrame} (hz : z ∈ (resending dst seq p f s).net.unacked)
    (hdst : z.frame.dst = dst) (hseq : z.frame.seq = seq) : z.lastTx = s.clk.ts ∧ z.port = p := by
  obtain ⟨y, -, rfl⟩ := List.mem_map.1 hz
  unfold TxFrame.sentAgain at hdst hseq ⊢
  split at hdst
  next hnamed =>
    rw [if_pos hnamed]
    exact ⟨rfl, rfl⟩
  next hother =>
    rw [if_neg hother] at hseq
    simp [hdst, hseq] at hother

/-- The package that holds frame seq for dst no more. -/
def droppedFrame (dst seq : Nat) (s : State) : State :=
  { s with net := { s.net with unacked := s.net.unacked.filter (fun y => !(y.frame.dst == dst && y.frame.seq == seq)) } }

/-- Event 0x50, the fault of a path (R426). -/
def pathFault (x : TxFrame) (dst : Nat) : ErrRec :=
  { cls := 2, action := 0, code := 0x50, unitKind := 6, unit := x.port, committed := true, detail0 := dst, detail1 := x.count }

section
variable {s : State} {dst seq : Nat} {x : TxFrame} (hheld : s.net.unacked.find? (fun y => y.frame.dst == dst && y.frame.seq == seq) = some x)
  (hclocks : clocksRun s = true) (hdue : x.lastTx + 20000 ≤ s.clk.ts)
include hheld hclocks hdue

theorem exec_retransmit_again (hcount : x.count < 8) {q : Nat} (hq : pickPort s dst = some q) :
    exec (.retransmit dst seq) s = .next (resending dst seq q x.frame s) := by
  show execRetransmit dst seq s = _
  rw [execRetransmit, hheld]
  dsimp only
  rw [if_pos (by simp [hclocks, hdue, now]), if_neg (Nat.not_le.2 hcount), hq]
  exact (resending_netOnly dst seq q x.frame s).finish_eq

theorem exec_retransmit_spent (hcount : 8 ≤ x.count) (hpkg : dst ∉ s.net.shellPkgs) :
    exec (.retransmit dst seq) s = finish s (detect (pathFault x dst) none (droppedFrame dst seq s)) := by
  show execRetransmit dst seq s = _
  rw [execRetransmit, hheld]
  dsimp only
  rw [if_pos (by simp [hclocks, hdue, now]), if_pos hcount, if_neg (by simp [hpkg])]
  rfl

end

/-! ### HEARTBEAT (R431) -/

theorem exec_heartbeat_leader {s : State} (hclocks : clocksRun s = true) (hst : s.net.st = .member) (hsolo : s.net.shellPkgs = [])
    (hleader : s.net.leader ≠ s.net.pkgNum) : exec .heartbeat s = .next (sendControl s.net.leader (.heartbeat s.net.pkgNum) s) := by
  have hone : sendControls [s.net.leader] (.heartbeat s.net.pkgNum) s = sendControl s.net.leader (.heartbeat s.net.pkgNum) s := by
    simp [sendControls, hleader]
  show execHeartbeat s = _
  rw [execHeartbeat, if_pos (by simp [hclocks, hst]), hsolo, List.nil_append, List.Nodup.dedup (List.nodup_singleton _), hone]
  exact (sendControl_sentOnly _ _ s).netOnly.finish_eq

end Sys2Proof.Machine

namespace Sys2Proof.Proofs

open Sys2Proof Sys2Proof.Machine

/-- A DATA frame for this package, by its place in the order of its sender. -/
theorem dataFrames {s : State} {p : Nat} {f : Frame} (hok : frameOk s p f = true) (hfec : f.fecOk = true) (hgood : frameGood p f s = true)
    (hdst : f.dst = s.net.pkgNum) (hkind : f.kind = 0) :
    let want := sgetD s.net.rxSeq f.src 0
    (f.seq = want → s.net.early = [] → ∃ t, exec (.dataFrame p f) s = .next t ∧ t.net.delivered = s.net.delivered ++ [f]
        ∧ sgetD t.net.rxSeq f.src 0 = (want + 1) % 2 ^ 32 ∧ t.net.early = []
        ∧ (∀ q, pickPort s f.src = some q → ∃ x, t.net.sent = s.net.sent ++ [x] ∧ Claims.sentTo s q f.src 1 x ∧ x.2.seq = f.seq)
        ∧ t = { s with net := t.net })
      ∧ (f.seq ≠ want → (f.seq + 2 ^ 32 - want) % 2 ^ 32 < 2 ^ 31 → (∀ g ∈ s.net.early, g.src ≠ f.src ∨ g.seq ≠ f.seq) →
          exec (.dataFrame p f) s = .next { s with net := { s.net with early := s.net.early ++ [f] } })
      ∧ (f.seq ≠ want → 2 ^ 31 ≤ (f.seq + 2 ^ 32 - want) % 2 ^ 32 → ∃ t, exec (.dataFrame p f) s = .next t ∧ t.net.delivered = s.net.delivered
          ∧ t.net.rxSeq = s.net.rxSeq
          ∧ (∀ q, pickPort s f.src = some q → ∃ x, t.net.sent = s.net.sent ++ [x] ∧ Claims.sentTo s q f.src 1 x ∧ x.2.seq = f.seq)
          ∧ t = { s with net := t.net }) := by
  intro want
  have hexec := exec_dataFrame hfec hgood hdst hok hkind
  refine ⟨fun hseq hearly => ?_, fun hseq hahead hnew => ?_, fun hseq hbehind => ?_⟩
  · rw [takeData_next hseq hearly] at hexec
    have hsent := transmit_sentOnly (ackOf s f) (delivering f s)
    have hnet : NetOnly s (transmit (ackOf s f) (delivering f s)) := NetOnly.trans (t := delivering f s) rfl hsent.netOnly
    rw [hnet.finish_eq] at hexec
    refine ⟨_, hexec, by rw [hsent]; rfl, ?_, ?_, sentTo_ack (s := s) (t := delivering f s) rfl rfl rfl, hnet⟩
    · rw [hsent]
      exact (sgetD_sset_self _ _ _ _).trans (by rw [hseq])
    · rw [hsent]
      show s.net.early.filter _ = []
      rw [hearly, List.filter_nil]
  · rw [hexec, takeData_early hseq hahead hnew]
    rfl
  · rw [takeData_repeat hseq hbehind] at hexec
    have hsent := transmit_sentOnly (ackOf s f) s
    rw [hsent.netOnly.finish_eq] at hexec
    exact ⟨_, hexec, by rw [hsent], by rw [hsent], sentTo_ack rfl rfl rfl, hsent.netOnly⟩

/-- Settles O53: a frame that fails, one for this package by its kind, one for another, one that is not acknowledged, and a heartbeat. -/
theorem frames : Obligations.Frames := by
  refine ⟨fun s p f hok hclocks hup hfec => ?_, fun s p f hok hfec hgood => ⟨fun hdst => ?_, fun hdst hkind => ?_⟩,
    fun s dst seq x hheld hclocks hdue => ⟨fun q hcount hq => ?_, fun hcount hpkg hflow => ?_⟩, fun s q hclocks hst hsolo hleader hq => ?_⟩
  · exact ⟨exec_frameRows_dropped hclocks hup hfec hok, exec_frameForward_dropped hclocks hup hfec hok⟩
  · exact ⟨dataFrames hok hfec hgood hdst, exec_ackFrame hfec hgood hdst hok, exec_timeFrame hfec hgood hdst hok,
      fun hkind g => exec_controlFrame_heartbeat hfec hgood hdst hok hkind⟩
  · refine ⟨exec_frameForward_spent hfec hok hkind, fun q hhops hq => ?_⟩
    have hsent := transmit_sentOnly { f with hops := f.hops - 1 } s
    exact ⟨_, _, exec_frameForward hfec hok hkind hgood hdst hhops, sent_transmit hq, rfl, rfl, by rw [hsent], hsent.netOnly⟩
  · obtain ⟨hnamed, -⟩ : x.frame.dst = dst ∧ x.frame.seq = seq := by simpa using List.find?_some hheld
    have hpick : pickPort (setNlPort s q (nlPortOf s q).resent) x.frame.dst = some q := by rw [pickPort_resent, hnamed, hq]
    exact ⟨_, _, exec_retransmit_again hheld hclocks hdue hcount hq, sent_transmit hpick, rfl, rfl,
      congrArg NlPort.retransmits (nlPortOf_resending dst seq q x.frame s), fun z hz => unacked_resending hz, resending_netOnly dst seq q x.frame s⟩
  · obtain ⟨hevent, hnewest⟩ := detect_unattributed (r := pathFault x dst) (s := droppedFrame dst seq s) hflow (by simp [pathFault]) rfl
    refine ⟨_, (exec_retransmit_spent hheld hclocks hdue hcount hpkg).trans (finish_of_kept hevent.kept), by rw [hevent]; rfl,
      hnewest.recorded rfl rfl fun _ _ _ _ _ => ⟨rfl, rfl, rfl, rfl, rfl, rfl, rfl⟩, hevent.srv_eq⟩
  · exact ⟨_, _, exec_heartbeat_leader hclocks hst hsolo hleader, sent_transmit hq, sentTo_newFrame s q 2 s.net.leader 0 0 [] _, rfl,
      (sendControl_sentOnly _ _ s).netOnly⟩

end Sys2Proof.Proofs
end

section
/-!
PROOFS. The regatta (R429 to R432; O54): what a write to REGATTA_CTL begins, how a join ends that finds no port or no member, the epoch that a change
brings, and what a time exchange does to the timestamp and its rate.
-/

namespace Sys2Proof.Machine

open Sys2Proof

/-! ### REGATTA_CTL (R430, R431) -/

/-- REGATTA_CTL as it stands before a write. -/
def regattaCtlReg (n : Net) : Reg := BitVec.ofNat 64 (n.pkgNum + 2 ^ 15 * bit n.timeMaster + 2 ^ 32 * n.regattaId)

theorem fieldOf_regattaCtlReg {n : Net} (hpkg : n.pkgNum < 2048) (hid : n.regattaId < 2 ^ 32) :
    fieldOf (regattaCtlReg n) 63 32 = n.regattaId ∧ fieldOf (regattaCtlReg n) 10 0 = n.pkgNum := by
  have hmaster := bit_lt_two n.timeMaster
  simp only [regattaCtlReg, fieldOf, BitVec.toNat_ofNat, Nat.shiftRight_eq_div_pow]
  omega

/-- The register's fields after a write: PKG_NUM and REGATTA_ID take theirs only while ALONE. -/
def regattaCtlAfter (w : RegAccess) (n : Net) : Reg :=
  let old := regattaCtlReg n
  let r := rwField old w 15 15 anyVal old
  if n.st = .alone then rwField old w 63 32 anyVal (rwField old w 10 0 anyVal r) else r

/-- The net with the fields of a register value. -/
def Net.withRegattaCtl (n : Net) (r : Reg) : Net := { n with regattaId := fieldOf r 63 32, timeMaster := bitOf r 15, pkgNum := fieldOf r 10 0 }

/-- The package with another net. -/
def State.withNet (s : State) (n : Net) : State := { s with net := n }

/-- The package with a JOIN begun, before its requests go out. -/
def joinBegun (s : State) : State := { s with net := { s.net with st := .joining, joinAt := some s.clk.ts, joinResult := 0 } }

/-- What JOIN does once the fields are written. -/
def joinActs (w : RegAccess) (s : State) : State :=
  if wrote w 11 && s.net.st == .alone then
    sendControls ((s.net.route.filter (fun x => hasBit x.2 8)).map Prod.fst) (.joinRequest s.net.pkgNum s.net.regattaId s.net.timeMaster) (joinBegun s)
  else s

/-- What LEAVE does after that. -/
def leaveActs (w : RegAccess) (s : State) : State :=
  if wrote w 12 && s.net.st == .member then
    let t : State := { s with net := { s.net with st := .leaving } }
    if t.net.leader = t.net.pkgNum then { t with net := { t.net with changes := t.net.changes ++ [(t.net.pkgNum, false, false)] } }
    else sendControl t.net.leader (.leaveRequest t.net.pkgNum) t
  else s

theorem writeRegattaCtl_eq (w : RegAccess) (s : State) :
    writeRegattaCtl w s = leaveActs w (joinActs w (s.withNet (s.net.withRegattaCtl (regattaCtlAfter w s.net)))) := rfl

section
variable {w : RegAccess} (hfull : w.half = .full)
include hfull

theorem withRegattaCtl_alone {n : Net} (halone : n.st = .alone) : n.withRegattaCtl (regattaCtlAfter w n)
    = { n with regattaId := fieldOf w.data 63 32, timeMaster := bitOf w.data 15, pkgNum := fieldOf w.data 10 0 } := by
  have hafter : regattaCtlAfter w n = rwField (regattaCtlReg n) w 63 32 anyVal
      (rwField (regattaCtlReg n) w 10 0 anyVal (rwField (regattaCtlReg n) w 15 15 anyVal (regattaCtlReg n))) := if_pos halone
  rw [Net.withRegattaCtl, hafter]
  simp (disch := omega) only [bitOf_rwField_other, fieldOf_rwField_other, bitOf_rwField_full _ hfull, fieldOf_rwField_full _ hfull, anyVal, if_true]

theorem withRegattaCtl_placed {n : Net} (hplaced : n.st ≠ .alone) (hpkg : n.pkgNum < 2048) (hid : n.regattaId < 2 ^ 32) :
    n.withRegattaCtl (regattaCtlAfter w n) = { n with timeMaster := bitOf w.data 15 } := by
  obtain ⟨hidOld, hnumOld⟩ := fieldOf_regattaCtlReg hpkg hid
  have hafter : regattaCtlAfter w n = rwField (regattaCtlReg n) w 15 15 anyVal (regattaCtlReg n) := if_neg hplaced
  rw [Net.withRegattaCtl, hafter]
  simp (disch := omega) only [fieldOf_rwField_other, bitOf_rwField_full _ hfull, hidOld, hnumOld]

end

theorem leaveActs_of_stays {w : RegAccess} (h : wrote w 12 = false) (s : State) : leaveActs w s = s := if_neg (by simp [h])

theorem joinActs_of_stays {w : RegAccess} (h : wrote w 11 = false) (s : State) : joinActs w s = s := if_neg (by simp [h])

/-- JOIN by a package that is ALONE: requests to join go out, to every package with a route. -/
theorem joinActs_alone {w : RegAccess} {s : State} (hjoin : wrote w 11 = true) (halone : s.net.st = .alone) :
    joinActs w s = sendControls ((s.net.route.filter (fun x => hasBit x.2 8)).map Prod.fst)
      (.joinRequest s.net.pkgNum s.net.regattaId s.net.timeMaster) (joinBegun s) := if_pos (by simp [hjoin, halone])

/-- LEAVE by a member that leads: its leave joins the changes of the next epoch. -/
theorem leaveActs_leads {w : RegAccess} {s : State} (hleave : wrote w 12 = true) (hmember : s.net.st = .member) (hleads : s.net.leader = s.net.pkgNum) :
    leaveActs w s = { s with net := { s.net with st := .leaving, changes := s.net.changes ++ [(s.net.pkgNum, false, false)] } } := by
  rw [leaveActs, if_pos (by simp [hleave, hmember])]
  exact if_pos hleads

section
variable {s : State} {w : RegAccess} (hfull : w.half = .full)
include hfull

theorem exec_join (hw : pfWrite w s = true) (hjoin : bitOf w.data 11 = true) : exec (.join w) s = finish s (writeRegattaCtl w s) := by
  show execJoin w s = _
  rw [execJoin, if_pos ((wrote_full hfull 11).trans hjoin), if_pos hw]

/-- The package that a JOIN written while ALONE leaves, but for the requests that go out. -/
def joinWritten (w : RegAccess) (s : State) : State :=
  joinBegun (s.withNet { s.net with regattaId := fieldOf w.data 63 32, timeMaster := bitOf w.data 15, pkgNum := fieldOf w.data 10 0 })

theorem exec_join_alone (hw : pfWrite w s = true) (hjoin : bitOf w.data 11 = true) (hstay : bitOf w.data 12 = false) (halone : s.net.st = .alone) :
    ∃ t, exec (.join w) s = .next t ∧ SentOnly (joinWritten w s) t := by
  have hsent := sendControls_sentOnly ((s.net.route.filter (fun x => hasBit x.2 8)).map Prod.fst)
    (.joinRequest (fieldOf w.data 10 0) (fieldOf w.data 63 32) (bitOf w.data 15)) (joinWritten w s)
  have hnet : NetOnly s (joinWritten w s) := rfl
  have halone' : (s.withNet { s.net with regattaId := fieldOf w.data 63 32, timeMaster := bitOf w.data 15, pkgNum := fieldOf w.data 10 0 }).net.st = .alone :=
    halone
  refine ⟨_, ?_, hsent⟩
  rw [exec_join hfull hw hjoin, writeRegattaCtl_eq, leaveActs_of_stays ((wrote_full hfull 12).trans hstay), withRegattaCtl_alone hfull halone,
    joinActs_alone ((wrote_full hfull 11).trans hjoin) halone', ← (hnet.trans hsent.netOnly).finish_eq]
  rfl

theorem exec_leave_leads (hw : pfWrite w s = true) (hleave : bitOf w.data 12 = true) (hstay : bitOf w.data 11 = false) (hmember : s.net.st = .member)
    (hleads : s.net.leader = s.net.pkgNum) (hpkg : s.net.pkgNum < 2048) (hid : s.net.regattaId < 2 ^ 32) :
    exec (.leave w) s = .next { s with net := { s.net with
      st := .leaving, timeMaster := bitOf w.data 15, changes := s.net.changes ++ [(s.net.pkgNum, false, false)] } } := by
  have hmember' : (s.withNet { s.net with timeMaster := bitOf w.data 15 }).net.st = .member := hmember
  show execLeave w s = _
  rw [execLeave, if_pos ((wrote_full hfull 12).trans hleave), if_pos hw, writeRegattaCtl_eq, joinActs_of_stays ((wrote_full hfull 11).trans hstay),
    withRegattaCtl_placed hfull (by rw [hmember]; decide) hpkg hid, leaveActs_leads ((wrote_full hfull 12).trans hleave) hmember' hleads]
  rfl

end

/-! ### The end of a join (R430) -/

section
variable {s : State} (hclocks : clocksRun s = true) (hjoining : s.net.st = .joining) {a : Nat} (hjoin : s.net.joinAt = some a)
include hclocks hjoining hjoin

theorem exec_joinNoPort (hdown : anyPortUp s = false) (hdue : a + 100000000 ≤ s.clk.ts) :
    exec .joinNoPort s = .next { s with net := { s.net with st := .alone, joinResult := 3, joinAt := none } } := by
  have hlate : s.net.joinAt.any (fun t => decide (t + 100000000 ≤ now s)) = true := by
    rw [hjoin, Option.any_some]
    exact decide_eq_true hdue
  show execJoinNoPort s = _
  rw [execJoinNoPort, hlate, hclocks, hjoining, hdown]
  rfl

theorem exec_regattaFormAlone (hup : anyPortUp s = true) (hdue : a + 10000000 ≤ s.clk.ts) :
    exec .regattaFormAlone s = .next
      (let t := enterEpoch 1 [s.net.pkgNum] (if s.net.timeMaster then [s.net.pkgNum] else []) s
       { t with net := { t.net with joinResult := 1 } }) := by
  have hlate : s.net.joinAt.any (fun t => decide (t + 10000000 ≤ now s)) = true := by
    rw [hjoin, Option.any_some]
    exact decide_eq_true hdue
  show execRegattaFormAlone s = _
  rw [execRegattaFormAlone, hlate, hclocks, hjoining, hup]
  rfl

end

/-- The one member of a regatta is its time master. -/
theorem masterOf_alone (pkg : Nat) (tm : Bool) : masterOf [pkg] (if tm then [pkg] else []) = some pkg := by
  cases tm <;> simp [masterOf, leastPkg]

/-! ### Epochs (R429) -/

theorem mem_applyChange {ms : List Nat} {pkg : Nat} {joins tm : Bool} {x : Nat} :
    x ∈ applyChange ms (pkg, joins, tm) ↔ if joins = true then x ∈ ms ∨ x = pkg else x ∈ ms ∧ x ≠ pkg := by
  cases joins
  case false => simp [applyChange]
  case true =>
    simp only [applyChange, if_true]
    split
    next hin =>
      refine ⟨.inl, fun h => h.elim id ?_⟩
      rintro rfl
      exact List.contains_iff_mem.1 hin
    next hout => rw [(insertBy_perm _ pkg ms).mem_iff, List.mem_cons, or_comm]

/-- The members and the time masters after the changes that a leader has gathered. -/
def membersNext (n : Net) : List Nat := n.changes.foldl applyChange n.members

def mastersNext (n : Net) : List Nat :=
  (n.masters ++ (n.changes.filter (fun c => c.2.1 && c.2.2)).map Prod.fst).dedup.filter (membersNext n).contains

/-- The package whose changes have become the next epoch. -/
def epochCarried (s : State) : State :=
  { s with net := { s.net with changes := [], nextEpoch := some ((s.net.epoch + 1) % 2 ^ 32, membersNext s.net, mastersNext s.net) } }

/-- EPOCH_START with no epoch on its way: beside what it leaves, CONTROL frames go to the members and to those that join. -/
theorem exec_epochStart {s : State} (hclocks : clocksRun s = true) (hmember : s.net.st = .member) (hleads : s.net.leader = s.net.pkgNum)
    (hnone : s.net.nextEpoch = none) (hchanges : s.net.changes ≠ []) : ∃ t, exec .epochStart s = .next t ∧ SentOnly (epochCarried s) t := by
  have hsent := sendControls_sentOnly (s.net.members ++ membersNext s.net).dedup
    (.epoch s.net.regattaId ((s.net.epoch + 1) % 2 ^ 32) ((leastPkg (membersNext s.net)).getD 0) (membersNext s.net) (mastersNext s.net)) (epochCarried s)
  have hnet : NetOnly s (epochCarried s) := rfl
  refine ⟨_, ?_, hsent⟩
  rw [← (hnet.trans hsent.netOnly).finish_eq]
  show execEpochStart s = _
  unfold execEpochStart
  dsimp only
  rw [if_pos (by simp [hclocks, hmember, hleads, hchanges]), hnone]
  rfl

/-! ### Time alignment (R432) -/

/-- TIME frames to packages other than this one. -/
theorem sent_times (ds : List Nat) (s : State) (hds : ∀ d ∈ ds, d ≠ s.net.pkgNum) :
    ∃ new, (ds.foldl (fun t d => transmit (newFrame t 3 d 0 0 [] .none) t) s).net.sent = s.net.sent ++ new
      ∧ ∀ x ∈ new, x.2.kind = 3 ∧ x.2.src = s.net.pkgNum ∧ x.2.dst ≠ s.net.pkgNum := by
  induction ds generalizing s with
  | nil => exact ⟨[], (List.append_nil _).symm, by simp⟩
  | cons d ds ih =>
    have hnum : (transmit (newFrame s 3 d 0 0 [] .none) s).net.pkgNum = s.net.pkgNum := by rw [transmit_sentOnly]
    obtain ⟨new, hsent, hnew⟩ := ih (transmit (newFrame s 3 d 0 0 [] .none) s) (by rw [hnum]; exact fun x hx => hds x (List.mem_cons_of_mem _ hx))
    rw [hnum] at hnew
    rw [List.foldl_cons, hsent]
    cases hpick : pickPort s d with
    | none =>
      have hstays : transmit (newFrame s 3 d 0 0 [] .none) s = s := by
        rw [transmit]
        exact hpick ▸ rfl
      exact ⟨new, by rw [hstays], hnew⟩
    | some q =>
      rw [sent_transmit (f := newFrame s 3 d 0 0 [] .none) hpick, List.append_assoc]
      exact ⟨_, rfl, List.forall_mem_cons.2 ⟨⟨rfl, rfl, hds d List.mem_cons_self⟩, hnew⟩⟩

theorem sendTimes_sentOnly (s : State) : SentOnly s (sendTimes s) := .foldl (fun t _ => transmit_sentOnly _ t) _ s

theorem sent_sendTimes (s : State) :
    ∃ new, (sendTimes s).net.sent = s.net.sent ++ new ∧ ∀ x ∈ new, x.2.kind = 3 ∧ x.2.src = s.net.pkgNum ∧ x.2.dst ≠ s.net.pkgNum :=
  sent_times (timePeers s) s fun _ hd => by simpa using (List.mem_filter.1 hd).2

/-- Exchanges in a row within ±40 ns, this one with them. -/
def goodAfter (o : Int) (n : Net) : Nat := if -40 ≤ o ∧ o ≤ 40 then n.goodExchanges + 1 else 0

/-- The net after an exchange. -/
def exchangedNet (o : Int) (n : Net) : Net :=
  { n with
    offsetNs := o, goodExchanges := goodAfter o n, stepped := true
    locked := decide (3 ≤ goodAfter o n) || (n.locked && decide (-50 ≤ o ∧ o ≤ 50)) }

/-- The exchange steps the timestamp: the first, by a package that is behind a master other than itself. -/
def stepsTime (o : Int) (n : Net) : Bool := !n.stepped && !n.master && decide (o < 0)

/-- The clock after an exchange. -/
def exchangedClk (o : Int) (n : Net) (c : Clocks) : Clocks :=
  { c with
    ts := if stepsTime o n then (c.ts + o.natAbs) % 2 ^ 64 else c.ts
    ratePpm := if n.master ∨ stepsTime o n = true then 0 else rateFor o }

theorem exec_timeExchange {s : State} {o : Int} (hlow : -(2 ^ 31) ≤ o) (hhigh : o < 2 ^ 31) (hclocks : clocksRun s = true)
    (hst : s.net.st = .member ∨ s.net.st = .leaving) :
    exec (.timeExchange o) s = .next { s with net := exchangedNet o (sendTimes s).net, clk := exchangedClk o s.net s.clk } := by
  have htakes : (clocksRun s && (s.net.st == .member || s.net.st == .leaving)) = true := by rcases hst with h | h <;> simp [hclocks, h]
  have hsent := sendTimes_sentOnly s
  show execTimeExchange o s = _
  rw [execTimeExchange, if_pos ⟨hlow, hhigh⟩, if_pos htakes]
  unfold exchangedNet exchangedClk goodAfter stepsTime
  rw [hsent]
  simp only [decide_eq_true_eq]
  rfl

theorem exchangedClk_rate (o : Int) (n : Net) (c : Clocks) : -200 ≤ (exchangedClk o n c).ratePpm ∧ (exchangedClk o n c).ratePpm ≤ 200 := by
  unfold exchangedClk rateFor
  dsimp only
  split <;> omega

theorem exchangedClk_ts_steps {o : Int} {n : Net} (hfirst : n.stepped = false) (hslave : n.master = false) (hbehind : o < 0) (c : Clocks) :
    (exchangedClk o n c).ts = (c.ts + o.natAbs) % 2 ^ 64 :=
  if_pos (by simp [stepsTime, hfirst, hslave, hbehind])

theorem exchangedClk_ts_stays {o : Int} {n : Net} (h : n.stepped = true ∨ n.master = true ∨ 0 ≤ o) (c : Clocks) : (exchangedClk o n c).ts = c.ts :=
  if_neg (by rcases h with h | h | h <;> simp [stepsTime, h])

end Sys2Proof.Machine

namespace Sys2Proof.Proofs

open Sys2Proof Sys2Proof.Machine

/-- A time exchange, by the offset that it found. -/
theorem timeExchanges {s : State} {o : Int} (hlow : -(2 ^ 31) ≤ o) (hhigh : o < 2 ^ 31) (hclocks : clocksRun s = true)
    (hst : s.net.st = .member ∨ s.net.st = .leaving) :
    ∃ t, exec (.timeExchange o) s = .next t ∧ t.net.offsetNs = o ∧ t.net.goodExchanges = (if -40 ≤ o ∧ o ≤ 40 then s.net.goodExchanges + 1 else 0)
      ∧ (s.net.goodExchanges = 2 → -40 ≤ o → o ≤ 40 → t.net.locked = true) ∧ -200 ≤ t.clk.ratePpm ∧ t.clk.ratePpm ≤ 200
      ∧ (s.net.stepped = false → s.net.master = false → o < 0 → t.clk.ts = (s.clk.ts + o.natAbs) % 2 ^ 64)
      ∧ (s.net.stepped = true ∨ s.net.master = true ∨ 0 ≤ o → t.clk.ts = s.clk.ts)
      ∧ (s.net.master = true → t.clk.ratePpm = 0)
      ∧ (∃ new, t.net.sent = s.net.sent ++ new ∧ ∀ x ∈ new, x.2.kind = 3 ∧ x.2.src = s.net.pkgNum ∧ x.2.dst ≠ s.net.pkgNum)
      ∧ t = { s with net := t.net, clk := t.clk } := by
  have hgood : goodAfter o (sendTimes s).net = goodAfter o s.net := by
    rw [goodAfter, sendTimes_sentOnly s]
    rfl
  obtain ⟨hslow, hfast⟩ := exchangedClk_rate o s.net s.clk
  refine ⟨_, exec_timeExchange hlow hhigh hclocks hst, rfl, hgood, fun htwo hmin hmax => ?_, hslow, hfast,
    fun hfirst hslave hbehind => exchangedClk_ts_steps hfirst hslave hbehind s.clk, fun hstays => exchangedClk_ts_stays hstays s.clk,
    fun hmaster => if_pos (.inl hmaster), sent_sendTimes s, rfl⟩
  have hthree : goodAfter o s.net = 3 := by rw [goodAfter, if_pos ⟨hmin, hmax⟩, htwo]
  simp [exchangedNet, hgood, hthree]

/-- Settles O54: JOIN and LEAVE, a join that ends alone, the epoch of one change, and a time exchange. -/
theorem regattaMembership : Obligations.RegattaMembership := by
  refine ⟨fun s w hw hfull hjoin hstay halone _ _ => ?_, fun s w hw hfull hleave hstay hmember hleads hpkg hid => ?_,
    fun s hclocks hjoining => ⟨fun a hdown hjoin => exec_joinNoPort hclocks hjoining hjoin hdown, fun a hup hjoin hdue => ?_⟩,
    fun s pkg joins tm hclocks hmember hleads hnone hchange => ?_, fun s o hlow hhigh hclocks hst => timeExchanges hlow hhigh hclocks hst⟩
  · obtain ⟨t, hexec, hsent⟩ := exec_join_alone hfull hw hjoin hstay halone
    have hnet : NetOnly s (joinWritten w s) := rfl
    refine ⟨t, hexec, ?_, ?_, ?_, ?_, ?_, ?_, hnet.trans hsent.netOnly⟩
    all_goals rw [hsent]; rfl
  · exact exec_leave_leads hfull hw hleave hstay hmember hleads hpkg hid
  · refine ⟨_, exec_regattaFormAlone hclocks hjoining hjoin hup hdue, rfl, rfl, rfl, rfl, ?_, rfl, rfl⟩
    exact beq_iff_eq.2 (masterOf_alone s.net.pkgNum s.net.timeMaster)
  · obtain ⟨t, hexec, hsent⟩ := exec_epochStart hclocks hmember hleads hnone (by simp [hchange])
    have hmembers : membersNext s.net = applyChange s.net.members (pkg, joins, tm) := by rw [membersNext, hchange]; rfl
    have hnet : NetOnly s (epochCarried s) := rfl
    refine ⟨t, membersNext s.net, mastersNext s.net, hexec, ?_, ?_, fun x => hmembers ▸ mem_applyChange, ?_, ?_, hnet.trans hsent.netOnly⟩
    all_goals rw [hsent]; rfl

end Sys2Proof.Proofs
end

section
/-!
PROOFS. How requests end (R390, R398, R442): whatever its work, the end of a request leaves the log and the event queue as they are, and so does the end
of a shell; a SHELL_JOIN gives up its slot and nothing besides, and one that fails freezes its ring.
-/

namespace Sys2Proof.Machine

open Sys2Proof

/-! ### The log and the event queue -/

/-- t has the log of s and its event queue, and no activation has come to hold the firmware. -/
structure KeepsEvents (s t : State) : Prop where
  flt : t.flt = s.flt
  evq : t.boot.evq = s.boot.evq
  act : s.boot.act ≠ .held → t.boot.act ≠ .held

theorem KeepsEvents.refl (s : State) : KeepsEvents s s := ⟨rfl, rfl, id⟩

theorem KeepsEvents.trans {s t u : State} (a : KeepsEvents s t) (b : KeepsEvents t u) : KeepsEvents s u :=
  ⟨b.flt.trans a.flt, b.evq.trans a.evq, b.act ∘ a.act⟩

theorem KeepsEvents.foldl {α : Type} {f : State → α → State} (h : ∀ t x, KeepsEvents t (f t x)) (xs : List α) (s : State) : KeepsEvents s (xs.foldl f s) := by
  induction xs generalizing s with
  | nil => exact .refl s
  | cons x xs ih => exact (h s x).trans (ih _)

theorem KeepsEvents.eventsFlow {s t : State} (h : KeepsEvents s t) (hflow : Claims.eventsFlow s) : Claims.eventsFlow t :=
  ⟨h.act hflow.1, by rw [h.evq]; exact hflow.2⟩

theorem KeepsEvents.recorded {s t u : State} (h : KeepsEvents t u) {p : ErrRec → Prop} (hrecorded : Claims.recorded s t p) : Claims.recorded s u p := by
  unfold Claims.recorded
  rw [h.flt]
  exact hrecorded

theorem ConvsOnly.keepsEvents {s t : State} (h : ConvsOnly s t) : KeepsEvents s t := by
  rw [h]
  exact ⟨rfl, rfl, id⟩

theorem convsOnly_settleConv (r : Request) (status : Nat) (s : State) : ConvsOnly s (settleConv r status s) := by
  unfold settleConv
  split
  · split
    · rfl
    · split
      · rfl
      · split_ifs <;> rfl
  · split
    · split_ifs <;> rfl
    · rfl
  · split
    · split_ifs <;> rfl
    · rfl
  · rfl

theorem abandonWork_keepsEvents (w : Work) (s : State) : KeepsEvents s (abandonWork w s) := by
  unfold abandonWork
  split
  · split
    · exact ⟨rfl, rfl, id⟩
    · exact .refl s
  · exact ⟨rfl, rfl, fun _ h => nomatch h⟩
  · exact ⟨rfl, rfl, id⟩
  · exact .refl s

theorem collect_keepsEvents (s : State) : KeepsEvents s (collect s) := ⟨rfl, rfl, id⟩

theorem freeSlot_keepsEvents (s : State) (n : Nat) : KeepsEvents s (freeSlot s n) := ⟨rfl, rfl, id⟩

theorem hostWrite_keepsEvents (s : State) (a : Nat) (bs : List Byte) : KeepsEvents s (hostWrite s a bs) := ⟨rfl, rfl, id⟩

theorem postCompletion_keepsEvents (q : RingRef) (c : Cpl) (k : Nat) (s : State) : KeepsEvents s (postCompletion q c k s) := by
  rw [postCompletion_rest]
  exact ⟨rfl, rfl, id⟩

theorem releaseRequest_keepsEvents (n status : Nat) (r : Request) (s : State) : KeepsEvents s (releaseRequest n status r s) := by
  refine .trans (.trans (.trans (.trans ?_ (abandonWork_keepsEvents r.work _)) (convsOnly_settleConv r status _).keepsEvents) (freeSlot_keepsEvents _ n))
    (collect_keepsEvents _)
  split
  · split
    · exact hostWrite_keepsEvents _ _ _
    · exact .refl s
  · exact .refl s

theorem endRequest_keepsEvents (n status : Nat) (result : List Byte) (s : State) : KeepsEvents s (endRequest n status result s) := by
  unfold endRequest
  split
  · exact .refl s
  · dsimp only
    split
    · exact (releaseRequest_keepsEvents _ _ _ _).trans (convsOnly_settleReset _ _).keepsEvents
    · exact (releaseRequest_keepsEvents _ _ _ _).trans (postCompletion_keepsEvents _ _ _ _)

theorem releaseHold_keepsEvents (h : Hold) (s : State) : KeepsEvents s (releaseHold h s) :=
  .trans (t := { s with srv := { s.srv with holds := s.srv.holds.filter (fun g => g.fetchSeq != h.fetchSeq) } }) ⟨rfl, rfl, id⟩
    (postCompletion_keepsEvents _ _ _ _)

theorem settleHolds_keepsEvents (limit fuel : Nat) (s : State) : KeepsEvents s (settleHolds limit fuel s) := by
  induction fuel generalizing s with
  | zero => exact .refl s
  | succ fuel ih =>
    rw [settleHolds]
    split
    · exact (releaseHold_keepsEvents _ s).trans (ih _)
    · exact .refl s

theorem endAll_keepsEvents (status : Nat) (s : State) : KeepsEvents s (endAll status s) :=
  (KeepsEvents.foldl (fun t (x : Nat × Request) => (settleHolds_keepsEvents x.2.fetchSeq t.srv.holds.length t).trans (endRequest_keepsEvents x.1 status [] _)) _ s).trans
    (settleHolds_keepsEvents _ _ _)

/-! ### The end of a shell (R442) -/

theorem convsOnly_loseConvs (s : State) : ConvsOnly s (loseConvs s) := convsOnly_foldl_endConv .lost _ s

/-- The package with no image loaded, no stroke in progress and no shell. -/
def shellLeft (s : State) : State :=
  { s with
    obj := { s.obj with modelHandle := [] }
    srv := { s.srv with strokeSince := none, admitted := [] }
    net := { s.net with
      shell := .solo, shellId := 0, memberCount := 1, myMember := 0, shellPkgs := [], joined := [], readyMembers := [] } }

/-- The package whose conversations are released. -/
def allReleased (s : State) : State := s.srv.convs.foldl (endConv .released) s

theorem endShell_eq (s : State) : endShell s = collect (shellLeft (allReleased (loseConvs (endAll 0x60 s)))) := by
  unfold endShell shellLeft allReleased
  rfl

theorem shellLeft_keepsEvents (s : State) : KeepsEvents s (shellLeft s) := ⟨rfl, rfl, id⟩

theorem endShell_keepsEvents (s : State) : KeepsEvents s (endShell s) := by
  have hlost := (endAll_keepsEvents 0x60 s).trans (convsOnly_loseConvs _).keepsEvents
  have hreleased : KeepsEvents s (allReleased (loseConvs (endAll 0x60 s))) := hlost.trans (convsOnly_foldl_endConv .released _ _).keepsEvents
  rw [endShell_eq]
  exact (hreleased.trans (shellLeft_keepsEvents _)).trans (collect_keepsEvents _)

theorem endShell_net (s : State) : (endShell s).net.shell = .solo ∧ (endShell s).net.shellPkgs = [] := ⟨rfl, rfl⟩

section
variable {s : State}

theorem endShellSoon_solo (h : s.net.shell = .solo) : endShellSoon s = s := if_pos h

variable (h : s.net.shell ≠ .solo)
include h

theorem endShellSoon_inStroke (hstroke : s.srv.strokeSince ≠ none) : endShellSoon s = s.withNet { s.net with shell := .ending } := by
  rw [endShellSoon, if_neg h, if_pos (Option.isSome_iff_ne_none.2 hstroke)]
  rfl

theorem endShellSoon_idle (hstroke : s.srv.strokeSince = none) : endShellSoon s = endShell s := by
  rw [endShellSoon, if_neg h, if_neg (by simp [hstroke])]

end

theorem endShellSoon_keepsEvents (s : State) : KeepsEvents s (endShellSoon s) := by
  unfold endShellSoon
  split_ifs
  · exact .refl s
  · exact ⟨rfl, rfl, id⟩
  · exact endShell_keepsEvents s

/-! ### The end of a SHELL_JOIN (R435, R436) -/

section
variable {s : State} {n : Nat} {r : Request} (hslot : slotOf s n = some r) (hsilent : r.silent = false) (hwork : r.work = .shellJoin)
  (hshell : s.net.shell ≠ .joining)

include hwork hshell in
/-- Once the package joins no shell any more, the command gives up its slot. -/
theorem releaseRequest_shellJoin (n status : Nat) : releaseRequest n status r s = collect (freeSlot s n) := by
  simp only [releaseRequest, hwork, abandonWork, if_neg hshell, settleConv]

include hslot hsilent hwork hshell

theorem endRequest_shellJoin_net (status : Nat) (result : List Byte) : (endRequest n status result s).net = s.net := by
  obtain ⟨c, hend, -⟩ := endRequest_eq_post hslot hsilent status result
  rw [hend, postCompletion_rest, releaseRequest_shellJoin hwork hshell]
  rfl

end

/-! ### A command error with nothing behind it (R398) -/

/-- What a completion entry says of two packages whose rings have their completion rings at the same places. -/
theorem posts_of_rings {s v : State} (hcfg : ∀ m, (ringOf v m).cfg = (ringOf s m).cfg) (hbase : ∀ m, (ringOf v m).cqBase = (ringOf s m).cqBase)
    (htail : ∀ m, (ringOf v m).cqTail = (ringOf s m).cqTail) (t : State) (q : RingRef) (tag opcode status : Nat) :
    Claims.posts v t q tag opcode status ↔ Claims.posts s t q tag opcode status := by
  simp only [Claims.posts, cqOf, RingPair.cqSel, RingPair.cqSize, RingPair.cqLog2, hcfg, hbase, htail]

/-- A field of a pair after another field of it was written. -/
theorem ringOf_setRing_field {α : Type} (field : RingPair → α) {s : State} {q : RingRef} {p : RingPair} (hp : field p = field (ringOf s q)) (m : RingRef) :
    field (ringOf (setRing s q p) m) = field (ringOf s m) := by
  rw [ringOf_setRing]
  split
  next hkey => rw [hp, ringOf_of_key hkey]
  next => rfl

/-- The ring of a failed entry goes back to just past it, and its completion ring gives up n reserved slots. -/
def headBack (q : RingRef) (index n : Nat) (s : State) : State :=
  let t := setRing s q { ringOf s q with sqHead := (index + 1) % (ringOf s q).sqSize }
  setRing t (cqOf t q) { ringOf t (cqOf t q) with reserved := (ringOf t (cqOf t q)).reserved - n }

/-- A field other than SQ_HEAD and the slots reserved. -/
theorem ringOf_headBack_field {α : Type} (field : RingPair → α) (hhead : ∀ x k, field { x with sqHead := k } = field x)
    (hreserved : ∀ x k, field { x with reserved := k } = field x) (q : RingRef) (index n : Nat) (s : State) (m : RingRef) :
    field (ringOf (headBack q index n s) m) = field (ringOf s m) :=
  (ringOf_setRing_field field (hreserved _ _) m).trans (ringOf_setRing_field field (hhead _ _) m)

/-- A command that waits, fetched from a ring after a place. -/
def waitsLater (q : RingRef) (seq : Nat) (h : Hold) : Bool := h.fn == q.fn && h.ring == q.ring && decide (seq < h.fetchSeq)

/-- The requests in slots fetched from a ring after a place. -/
def slotsLater (q : RingRef) (seq : Nat) (s : State) : List (Nat × Request) :=
  s.srv.slots.filter (fun x => x.2.fn == q.fn && x.2.ring == q.ring && decide (seq < x.2.fetchSeq) && !x.2.silent)

/-- The package without the commands that wait, fetched from a ring after a place. -/
def withoutLater (q : RingRef) (seq : Nat) (s : State) : State :=
  { s with srv := { s.srv with holds := s.srv.holds.filter (fun h => !waitsLater q seq h) } }

theorem ringOf_withoutLater (q : RingRef) (seq : Nat) (s : State) (m : RingRef) : ringOf (withoutLater q seq s) m = ringOf s m := rfl

theorem dropLater_eq (q : RingRef) (seq index : Nat) (s : State) :
    dropLater q seq index s = headBack q index ((slotsLater q seq s).length + s.srv.holds.countP (waitsLater q seq))
      (withoutLater q seq ((slotsLater q seq s).foldl unfetch s)) := rfl

/-- Where no slot is taken, of the later entries only commands that wait are given up. -/
theorem dropLater_noSlots {s : State} (hslots : s.srv.slots = []) (q : RingRef) (seq index : Nat) :
    ∃ n, dropLater q seq index s = headBack q index n (withoutLater q seq s) := by
  have hlater : slotsLater q seq s = [] := by rw [slotsLater, hslots, List.filter_nil]
  rw [dropLater_eq, hlater, List.foldl_nil]
  exact ⟨_, rfl⟩

/-- A field of a pair that a freeze leaves. -/
theorem ringOf_freezeRing_field {α : Type} (field : RingPair → α)
    (hfield : ∀ (x : RingPair) st tag index opcode status count page, field { x with
      st := st, errTag := tag, errIndex := index, errOpcode := opcode, errStatus := status, errCount := count, page := page } = field x)
    (q : RingRef) (tag index opcode seq : Nat) (x : CmdErr) (s : State) (m : RingRef) :
    field (ringOf (freezeRing q tag index opcode seq x s) m) = field (ringOf s m) :=
  ringOf_setRing_field field (hfield _ _ _ _ _ _ _ _) m

/-- The parts of a package that tell what a command error leaves: its net, that no request is left and nothing waits, and where completions go. -/
structure QuietlyErring (s t : State) : Prop where
  net : t.net = s.net
  slots : t.srv.slots = []
  quiet : Claims.nothingWaits t
  host : t.mem.host = s.mem.host
  cfg : ∀ m, (ringOf t m).cfg = (ringOf s m).cfg
  cqBase : ∀ m, (ringOf t m).cqBase = (ringOf s m).cqBase
  cqTail : ∀ m, (ringOf t m).cqTail = (ringOf s m).cqTail

theorem dropLater_quietlyErring {s : State} (hslots : s.srv.slots = []) (hquiet : Claims.nothingWaits s) (q : RingRef) (seq index : Nat) :
    QuietlyErring s (dropLater q seq index s) ∧ (ringOf (dropLater q seq index s) q).st = (ringOf s q).st := by
  obtain ⟨n, hdrop⟩ := dropLater_noSlots hslots q seq index
  have hkept {α : Type} (field : RingPair → α) (hhead : ∀ x k, field { x with sqHead := k } = field x)
      (hreserved : ∀ x k, field { x with reserved := k } = field x) (m : RingRef) :
      field (ringOf (headBack q index n (withoutLater q seq s)) m) = field (ringOf s m) := by
    rw [ringOf_headBack_field field hhead hreserved, ringOf_withoutLater]
  have hnone : s.srv.holds.filter (fun h => !waitsLater q seq h) = [] := by rw [hquiet.1, List.filter_nil]
  rw [hdrop]
  exact ⟨⟨rfl, hslots, ⟨hnone, hquiet.2⟩, rfl, hkept _ (fun _ _ => rfl) (fun _ _ => rfl), hkept _ (fun _ _ => rfl) (fun _ _ => rfl),
    hkept _ (fun _ _ => rfl) (fun _ _ => rfl)⟩, hkept RingPair.st (fun _ _ => rfl) (fun _ _ => rfl) q⟩

theorem QuietlyErring.frozen {s t : State} (h : QuietlyErring s t) (q : RingRef) (tag index opcode seq : Nat) (x : CmdErr) :
    QuietlyErring s (freezeRing q tag index opcode seq x t) := by
  have hkept {α : Type} (field : RingPair → α) (hfield : ∀ (x : RingPair) st tag index opcode status count page, field { x with
      st := st, errTag := tag, errIndex := index, errOpcode := opcode, errStatus := status, errCount := count, page := page } = field x) (m : RingRef) :=
    ringOf_freezeRing_field field hfield q tag index opcode seq x t m
  exact ⟨h.net, h.slots, ⟨h.quiet.1, h.quiet.2⟩, h.host, fun m => (hkept _ (fun _ _ _ _ _ _ _ _ => rfl) m).trans (h.cfg m),
    fun m => (hkept _ (fun _ _ _ _ _ _ _ _ => rfl) m).trans (h.cqBase m), fun m => (hkept _ (fun _ _ _ _ _ _ _ _ => rfl) m).trans (h.cqTail m)⟩

theorem QuietlyErring.canPost {s t : State} (h : QuietlyErring s t) {q : RingRef} (hpost : Claims.canPost s q) : Claims.canPost t q := by
  refine ⟨?_, by rw [h.host]; exact hpost.2⟩
  simp only [cqOf, RingPair.cqSel, h.cfg]
  exact hpost.1

/-- A command error of a ring with no later entry fetched: its completion is posted, RING_ERR takes its status, and an ACTIVE ring is FROZEN. -/
theorem failCommand_quiet {s : State} {q : RingRef} (hslots : s.srv.slots = []) (hquiet : Claims.nothingWaits s) (hpost : Claims.canPost s q)
    {x : CmdErr} (hlog : x.log = none) (aged arith : Bool) (tag index opcode seq : Nat) {t : State}
    (ht : failCommand q aged arith tag index opcode x (dropLater q seq index s) = t) :
    t.net = s.net ∧ t.srv.slots = [] ∧ Claims.nothingWaits t ∧ Claims.posts s t q tag opcode x.status ∧ (ringOf t q).errStatus = x.status
      ∧ ((ringOf s q).st = .active → (ringOf t q).st = .frozen) := by
  obtain ⟨hdropped, hst⟩ := dropLater_quietlyErring hslots hquiet q seq index
  rw [failCommand, hlog] at ht
  dsimp only at ht
  have hfrozen := ringOf_freezeRing q tag index opcode 0 x (dropLater q seq index s)
  have herring := hdropped.frozen q tag index opcode 0 x
  rw [hst] at hfrozen
  generalize freezeRing q tag index opcode 0 x (dropLater q seq index s) = v at ht hfrozen herring
  subst ht
  have posted := postCompletion_posted (herring.canPost hpost)
    { tag := tag, opcode := opcode, status := x.status, aged := aged, arith := arith, froze := true, result := x.result } 1
  refine ⟨?_, ?_, nothingWaits_postCompletion herring.quiet _ _ _,
    (posts_of_rings herring.cfg herring.cqBase herring.cqTail _ _ _ _ _).1 posted.entry, ?_, fun hactive => ?_⟩
  · rw [postCompletion_rest]
    exact herring.net
  · rw [postCompletion_srv]
    exact herring.slots
  · rw [ringOf_postCompletion_field RingPair.errStatus (fun _ _ => rfl) (fun _ _ _ => rfl), hfrozen]
  · rw [ringOf_postCompletion_field RingPair.st (fun _ _ => rfl) (fun _ _ _ => rfl), hfrozen]
    exact if_pos hactive

end Sys2Proof.Machine
end

section
/-!
PROOFS. Shells (R431, R435, R436, R440; O56): how a shell forms or its join fails, whom the lead counts as ready, what a lost package leaves, and what
becomes of a shell with a member that is late.
-/

namespace Sys2Proof.Machine

open Sys2Proof

/-! ### Joining (R435, R436) -/

theorem settle_of_sentOnly {u t : State} (hsent : SentOnly u t) (hquiet : Claims.nothingWaits u) : settle t = t := by
  refine settle_of_nothingWaits ?_
  rw [hsent]
  exact hquiet

theorem SentOnly.posts {s u t : State} (hsent : SentOnly u t) {q : RingRef} {tag opcode status : Nat} (h : Claims.posts s u q tag opcode status) :
    Claims.posts s t q tag opcode status := by
  rw [hsent]
  exact h

theorem SentOnly.srv_eq {s t : State} (h : SentOnly s t) : t.srv = s.srv := by rw [h]

theorem SentOnly.shell_eq {s t : State} (h : SentOnly s t) :
    t.net.shell = s.net.shell ∧ t.net.joined = s.net.joined ∧ t.net.shellPkgs = s.net.shellPkgs := by
  rw [h]
  exact ⟨rfl, rfl, rfl⟩

theorem joinSlots_lone {s : State} {n : Nat} {r : Request} (hslots : s.srv.slots = [(n, r)]) (hwork : r.work = .shellJoin) : joinSlots s = [n] := by
  simp [joinSlots, hslots, hwork]

/-- The package with its shell FORMED, before the SHELL_JOIN that waits completes. -/
def shellFormedNow (s : State) : State := s.withNet { s.net with shell := .formed, joined := [] }

section
variable {s : State} (hclocks : clocksRun s = true) (hjoining : s.net.shell = .joining)

section
variable (hquiet : Claims.nothingWaits s) (hall : allJoined s = true)
include hclocks hjoining hall

/-- Beside what the SHELL_JOINs leave that complete, the lead tells the members. -/
theorem exec_shellFormed {u : State} (hended : (joinSlots s).foldl (fun t n => endRequest n 0 (leBytes 4 t.net.epoch) t) (shellFormedNow s) = u)
    (hwaits : Claims.nothingWaits u) : ∃ t, SentOnly u t ∧ exec .shellFormed s = finish s t := by
  have hsent : SentOnly u (if isLead u then sendControls u.net.shellPkgs (.shellFormed u.net.shellId) u else u) := by
    split
    · exact sendControls_sentOnly _ _ _
    · exact .refl u
  refine ⟨_, hsent, ?_⟩
  show execShellFormed s = _
  rw [execShellFormed, if_pos (by simp [hclocks, hjoining, hall]), ← settle_of_sentOnly hsent hwaits, ← hended]
  rfl

include hquiet

theorem shellFormed_noJoin (hnone : joinSlots s = []) :
    ∃ t, exec .shellFormed s = .next t ∧ t.net.shell = .formed ∧ t.net.joined = [] ∧ t.net.shellPkgs = s.net.shellPkgs ∧ t.srv = s.srv := by
  obtain ⟨t, hsent, hexec⟩ := exec_shellFormed hclocks hjoining hall (u := shellFormedNow s) (by rw [hnone]; rfl) hquiet
  obtain ⟨hshell, hjoined, hpkgs⟩ := hsent.shell_eq
  exact ⟨_, hexec, hshell, hjoined, hpkgs, hsent.srv_eq⟩

theorem shellFormed_join {n : Nat} {r : Request} (hslots : s.srv.slots = [(n, r)]) (hwork : r.work = .shellJoin) (hsilent : r.silent = false)
    (hpost : Claims.canPost s ⟨r.fn, r.ring⟩) :
    ∃ t, exec .shellFormed s = .next t ∧ t.net.shell = .formed ∧ t.net.joined = [] ∧ t.net.shellPkgs = s.net.shellPkgs ∧ t.srv.slots = []
      ∧ Claims.posts s t ⟨r.fn, r.ring⟩ r.tag r.opcode 0 := by
  have hslot : slotOf (shellFormedNow s) n = some r := slotOf_of_slots hslots
  obtain ⟨hfree, hposts, -, hwaits, -⟩ := endRequest_posts (s := shellFormedNow s) hslot hsilent hpost hquiet 0 (leBytes 4 s.net.epoch)
  have hnet := endRequest_shellJoin_net (s := shellFormedNow s) hslot hsilent hwork (by simp [shellFormedNow, State.withNet]) 0 (leBytes 4 s.net.epoch)
  obtain ⟨t, hsent, hexec⟩ := exec_shellFormed hclocks hjoining hall (by rw [joinSlots_lone hslots hwork]; rfl) hwaits
  have hnone : serase (shellFormedNow s).srv.slots n = [] := by
    show serase s.srv.slots n = []
    simp [hslots, serase]
  obtain ⟨hshell, hjoined, hpkgs⟩ := hsent.shell_eq
  rw [hnet] at hshell hjoined hpkgs
  exact ⟨_, hexec, hshell, hjoined, hpkgs, (congrArg Serving.slots hsent.srv_eq).trans (hfree.trans hnone), hsent.posts hposts⟩

end

section
variable (hquiet : Claims.nothingWaits s) (hsome : allJoined s = false) (hdue : s.net.joinLimit ≤ s.clk.ts)
include hclocks hjoining hsome hdue

theorem exec_shellJoinTimeout : exec .shellJoinTimeout s = finish s (joinFails 5 s) := by
  show execShellJoinTimeout s = _
  rw [execShellJoinTimeout, if_pos (by simp [hclocks, hjoining, hsome, hdue, now])]

include hquiet

theorem shellJoinTimeout_noJoin (hnone : joinSlots s = []) :
    ∃ t, exec .shellJoinTimeout s = .next t ∧ t.net.shell = .solo ∧ t.net.memberCount = 1 ∧ t.net.shellPkgs = [] ∧ t.srv = s.srv := by
  have hwaits : Claims.nothingWaits (goSolo s) := hquiet
  have hexec := exec_shellJoinTimeout hclocks hjoining hsome hdue
  rw [joinFails, hnone, List.foldl_nil, settle_of_nothingWaits hwaits] at hexec
  exact ⟨_, hexec, rfl, rfl, rfl, rfl⟩

theorem shellJoinTimeout_join {n : Nat} {r : Request} (hslots : s.srv.slots = [(n, r)]) (hwork : r.work = .shellJoin) (hsilent : r.silent = false)
    (hpost : Claims.canPost s ⟨r.fn, r.ring⟩) :
    ∃ t, exec .shellJoinTimeout s = .next t ∧ t.net.shell = .solo ∧ t.net.memberCount = 1 ∧ t.net.shellPkgs = [] ∧ t.srv.slots = []
      ∧ Claims.posts s t ⟨r.fn, r.ring⟩ r.tag r.opcode 0x1F ∧ (ringOf t ⟨r.fn, r.ring⟩).errStatus = 0x1F
      ∧ ((ringOf s ⟨r.fn, r.ring⟩).st = .active → (ringOf t ⟨r.fn, r.ring⟩).st = .frozen) := by
  have hslot : slotOf (goSolo s) n = some r := slotOf_of_slots hslots
  have hfree : (collect (freeSlot (goSolo s) n)).srv.slots = [] := by
    show serase s.srv.slots n = []
    simp [hslots, serase]
  have hfail : failRequest n (shellError 5) (goSolo s) = failCommand ⟨r.fn, r.ring⟩ r.aged (arithOf r) r.tag r.sqIndex r.opcode (shellError 5)
      (dropLater ⟨r.fn, r.ring⟩ r.fetchSeq r.sqIndex (collect (freeSlot (goSolo s) n))) := by
    simp only [failRequest, hslot, hsilent, Bool.false_eq_true, if_false]
    rw [releaseRequest_shellJoin hwork (by simp [goSolo])]
  have hexec := exec_shellJoinTimeout hclocks hjoining hsome hdue
  rw [joinFails, joinSlots_lone hslots hwork, List.foldl_cons, List.foldl_nil, hfail] at hexec
  obtain ⟨hnet, hslots', hwaits, hposts, hstatus, hfrozen⟩ := failCommand_quiet (s := collect (freeSlot (goSolo s) n)) (q := ⟨r.fn, r.ring⟩) hfree
    hquiet hpost (x := shellError 5) rfl r.aged (arithOf r) r.tag r.sqIndex r.opcode r.fetchSeq rfl
  rw [settle_of_nothingWaits hwaits] at hexec
  exact ⟨_, hexec, congrArg Net.shell hnet, congrArg Net.memberCount hnet, congrArg Net.shellPkgs hnet, hslots', hposts, hstatus, hfrozen⟩

end

end

theorem exec_shellFormed_stays {s : State} (h : s.net.shell ≠ .joining ∨ allJoined s = false) : exec .shellFormed s = .next s :=
  if_neg (by rcases h with h | h <;> simp [h])

theorem exec_shellJoinTimeout_stays {s : State} (h : s.net.shell ≠ .joining ∨ allJoined s = true ∨ s.clk.ts < s.net.joinLimit) :
    exec .shellJoinTimeout s = .next s := by
  refine if_neg ?_
  rcases h with h | h | h
  · simp [h]
  · simp [h]
  · simp [now, Nat.not_le.2 h]

/-! ### Members that are ready (R440) -/

theorem exec_memberReady {s : State} (hclocks : clocksRun s = true) (m : Nat) : exec (.memberReady m) s = finish s (hearReady m s) := by
  show execMemberReady m s = _
  rw [execMemberReady, if_pos hclocks]

/-! ### A lost package (R431) -/

/-- A detected event that asks for no restart and is charged to no unit. -/
theorem detect_noRestart {r : ErrRec} {s : State} (hflow : Claims.eventsFlow s) (hfn : 64 ≤ r.fn) (hshell : r.action ≠ 2) (hshells : r.action ≠ 3) :
    EventOnly s (detect r none s) ∧ NewestIs r s (detect r none s) := by
  have hlog := logRecord_logOnly hfn none s
  have hflow' : Claims.eventsFlow (logRecord r none s) := by
    rw [hlog]
    exact hflow
  have hact : (passEvent (logRecord r none s)).boot.act ≠ .held := hflow'.1
  have hdetect : detect r none s = passEvent (logRecord r none s) := by
    simp [detect, latchEvent_of_flows hflow', hact, actOn, hshell, hshells]
  rw [hdetect]
  refine ⟨?_, logRecord_newestIs hfn none s⟩
  rw [hlog]
  rfl

/-- Event 0x51, the loss of a package; it ends the shell of one that is in it. -/
def packageLost (pkg : Nat) (s : State) : ErrRec :=
  { cls := 2, action := if s.net.shellPkgs.contains pkg then 4 else 0, code := 0x51, unitKind := 0, unit := 0, detail0 := pkg, detail1 := s.net.epoch }

/-- Who leads once a package is lost. -/
def Net.leaderWithout (pkg : Nat) (n : Net) : Nat :=
  if n.leader = pkg then (leastPkg (n.members.filter (· != pkg))).getD n.pkgNum else n.leader

/-- The net once a package is lost: who leads, and what the leader gathers. -/
def Net.withoutPackage (pkg : Nat) (n : Net) : Net :=
  { n with
    leader := n.leaderWithout pkg
    changes := if n.leaderWithout pkg = n.pkgNum ∧ n.members.contains pkg = true then n.changes ++ [(pkg, false, false)] else n.changes }

/-- The package with the loss of another recorded, and taken into its net. -/
def lossTaken (pkg : Nat) (s : State) : State :=
  let t := detect (packageLost pkg s) none s
  t.withNet (t.net.withoutPackage pkg)

theorem losePackage_eq (pkg : Nat) (s : State) :
    losePackage pkg s = if s.net.shellPkgs.contains pkg then endShellSoon (lossTaken pkg s) else lossTaken pkg s := rfl

section
variable {s : State} (hflow : Claims.eventsFlow s) (pkg : Nat)
include hflow

theorem lossTaken_spec :
    (lossTaken pkg s).net = s.net.withoutPackage pkg ∧ (lossTaken pkg s).srv = s.srv ∧ Claims.eventsFlow (lossTaken pkg s)
      ∧ NewestIs (packageLost pkg s) s (lossTaken pkg s) := by
  have haction : (packageLost pkg s).action = 4 ∨ (packageLost pkg s).action = 0 := by
    by_cases h : s.net.shellPkgs.contains pkg = true
    · exact .inl (if_pos h)
    · exact .inr (if_neg h)
  obtain ⟨hevent, hnewest⟩ := detect_noRestart hflow (r := packageLost pkg s) (by simp [packageLost]) (by omega) (by omega)
  unfold lossTaken
  generalize detect (packageLost pkg s) none s = d at hevent hnewest
  refine ⟨?_, hevent.srv_eq, ?_, hnewest⟩
  · show d.net.withoutPackage pkg = _
    rw [hevent]
  · show Claims.eventsFlow d
    rw [hevent]
    exact hflow

theorem lossTaken_recorded {p : ErrRec → Prop}
    (hp : ∀ time seq nv number shell, p { packageLost pkg s with time := time, seq := seq, nv := nv, pkg := number, shell := shell }) :
    Claims.recorded s (lossTaken pkg s) p := by
  obtain ⟨-, -, -, hnewest⟩ := lossTaken_spec hflow pkg
  exact hnewest.recorded rfl rfl hp

omit hflow in
theorem losePackage_keepsEvents : KeepsEvents (lossTaken pkg s) (losePackage pkg s) := by
  rw [losePackage_eq]
  split
  · exact endShellSoon_keepsEvents _
  · exact .refl _

omit hflow in
/-- A package outside the shell: the shell stays as it is. -/
theorem losePackage_outside (hout : pkg ∉ s.net.shellPkgs) : losePackage pkg s = lossTaken pkg s := by
  rw [losePackage_eq, if_neg (by simpa using hout)]

section
variable (hin : pkg ∈ s.net.shellPkgs) (hshell : s.net.shell ≠ .solo)
include hin hshell

/-- A member of the shell, in a stroke: the shell ends at its commit point. -/
theorem losePackage_inStroke (hstroke : s.srv.strokeSince ≠ none) :
    (losePackage pkg s).net.shell = .ending ∧ (losePackage pkg s).srv = s.srv := by
  obtain ⟨hnet, hsrv, -, -⟩ := lossTaken_spec hflow pkg
  have hshell' : (lossTaken pkg s).net.shell ≠ .solo := by rw [hnet]; exact hshell
  have hstroke' : (lossTaken pkg s).srv.strokeSince ≠ none := by rw [hsrv]; exact hstroke
  rw [losePackage_eq, if_pos (List.contains_iff_mem.2 hin)]
  generalize lossTaken pkg s = t at hsrv hshell' hstroke'
  rw [endShellSoon_inStroke hshell' hstroke']
  exact ⟨rfl, hsrv⟩

/-- With no stroke in progress it ends at once. -/
theorem losePackage_idle (hstroke : s.srv.strokeSince = none) : (losePackage pkg s).net.shell = .solo ∧ (losePackage pkg s).net.shellPkgs = [] := by
  obtain ⟨hnet, hsrv, -, -⟩ := lossTaken_spec hflow pkg
  have hshell' : (lossTaken pkg s).net.shell ≠ .solo := by rw [hnet]; exact hshell
  have hstroke' : (lossTaken pkg s).srv.strokeSince = none := by rw [hsrv]; exact hstroke
  rw [losePackage_eq, if_pos (List.contains_iff_mem.2 hin), endShellSoon_idle hshell' hstroke']
  exact endShell_net _

end

end

/-- The least member of a list that is not empty. -/
theorem leastPkg_spec {xs : List Nat} (h : xs ≠ []) (d : Nat) : (leastPkg xs).getD d ∈ xs ∧ ∀ x ∈ xs, (leastPkg xs).getD d ≤ x := by
  have hmin : leastPkg xs = xs.min? := by cases xs <;> rfl
  obtain ⟨m, hm⟩ := Option.ne_none_iff_exists'.1 (mt List.min?_eq_none_iff.1 h)
  rw [hmin, hm]
  exact List.min?_eq_some_iff.1 hm

namespace Net

variable {n : Net} {pkg : Nat}

theorem withoutPackage_leads (hleads : n.leader = n.pkgNum) (hother : pkg ≠ n.pkgNum) (hmember : pkg ∈ n.members) :
    n.withoutPackage pkg = { n with changes := n.changes ++ [(pkg, false, false)] } := by
  have hkept : n.leaderWithout pkg = n.leader := if_neg (by rw [hleads]; exact hother.symm)
  rw [withoutPackage, hkept, if_pos ⟨hleads, List.contains_iff_mem.2 hmember⟩]

theorem withoutPackage_follows (hfollows : n.leader ≠ n.pkgNum) (hkept : n.leader ≠ pkg) : n.withoutPackage pkg = n := by
  have hsame : n.leaderWithout pkg = n.leader := if_neg hkept
  rw [withoutPackage, hsame, if_neg (fun h => hfollows h.1)]

/-- The next lowest member leads. -/
theorem withoutPackage_leader (hlost : n.leader = pkg) (hleft : ∃ m ∈ n.members, m ≠ pkg) :
    (n.withoutPackage pkg).leader ∈ n.members ∧ (n.withoutPackage pkg).leader ≠ pkg ∧ ∀ m ∈ n.members, m ≠ pkg → (n.withoutPackage pkg).leader ≤ m := by
  obtain ⟨m, hm, hne⟩ := hleft
  have hleader : (n.withoutPackage pkg).leader = (leastPkg (n.members.filter (· != pkg))).getD n.pkgNum := if_pos hlost
  have hsome : n.members.filter (· != pkg) ≠ [] := List.ne_nil_of_mem (List.mem_filter.2 ⟨hm, by simpa using hne⟩)
  obtain ⟨hmem, hleast⟩ := leastPkg_spec hsome n.pkgNum
  rw [← hleader] at hmem hleast
  obtain ⟨hmember, hother⟩ := List.mem_filter.1 hmem
  exact ⟨hmember, by simpa using hother, fun k hk hk' => hleast k (List.mem_filter.2 ⟨hk, by simpa using hk'⟩)⟩

end Net

theorem exec_memberLost {s : State} {pkg : Nat} (hpkg : pkg < 2048) (hclocks : clocksRun s = true) (hother : pkg ≠ s.net.pkgNum)
    (hknown : pkg ∈ s.net.members ∨ pkg ∈ s.net.shellPkgs) (hsilent : sgetD s.net.heard pkg 0 + 1000000 ≤ s.clk.ts) :
    exec (.memberLost pkg) s = finish s (losePackage pkg s) := by
  have hlate : decide (sgetD s.net.heard pkg 0 + 1000000 ≤ now s) = true := decide_eq_true hsilent
  have hlisted : (s.net.members.contains pkg || s.net.shellPkgs.contains pkg) = true := by simpa using hknown
  show execMemberLost pkg s = _
  rw [execMemberLost, if_pos hpkg]
  dsimp only
  rw [hlate, hlisted, hclocks, if_pos (by simpa using hother)]

theorem exec_memberLost_stays {s : State} {pkg : Nat} (hpkg : pkg < 2048)
    (h : pkg = s.net.pkgNum ∨ (pkg ∉ s.net.members ∧ pkg ∉ s.net.shellPkgs) ∨ s.clk.ts < sgetD s.net.heard pkg 0 + 1000000) :
    exec (.memberLost pkg) s = .next s := by
  show execMemberLost pkg s = _
  rw [execMemberLost, if_pos hpkg]
  dsimp only
  refine congrArg (finish s) (if_neg ?_)
  rcases h with h | h | h
  · simp [h]
  · simp [h]
  · simp [now, Nat.not_le.2 h]

/-! ### Members that are late (R440) -/

/-- The members that a restart still waits for. -/
def lateMembers (n : Net) : List Nat := (List.range n.memberCount).filter (fun m => !n.readyMembers.contains m)

/-- Their packages. -/
def latePackages (n : Net) : List Nat := (lateMembers n).filterMap (fun m => n.shellPkgs[m]?)

theorem mem_lateMembers {n : Net} {m : Nat} : m ∈ lateMembers n ↔ m < n.memberCount ∧ m ∉ n.readyMembers := by
  simp [lateMembers]

theorem mem_shellPkgs_of_late {n : Net} {pkg : Nat} (h : pkg ∈ latePackages n) : pkg ∈ n.shellPkgs := by
  obtain ⟨m, -, hm⟩ := List.mem_filterMap.1 h
  exact List.mem_of_getElem? hm

/-- Where one member alone is late, its package is the only one. -/
theorem latePackages_lone {n : Net} {m pkg : Nat} (hpkg : n.shellPkgs[m]? = some pkg) (hm : m < n.memberCount) (hlate : m ∉ n.readyMembers)
    (hothers : ∀ k, k < n.memberCount → k ≠ m → k ∈ n.readyMembers) : latePackages n = [pkg] := by
  have honly : lateMembers n = [m] := by
    have hsame : lateMembers n = (List.range n.memberCount).filter (· == m) := List.filter_congr fun k hk => by
      by_cases hk' : k = m
      · simp [hk', hlate]
      · simp [hk', hothers k (List.mem_range.1 hk) hk']
    rw [hsame, List.filter_beq, List.count_eq_one_of_mem List.nodup_range (List.mem_range.2 hm), List.replicate_one]
  rw [latePackages, honly, List.filterMap_cons, hpkg]
  rfl

theorem exec_restartReadyTimeout {s : State} (hclocks : clocksRun s = true) (hrestarts : s.net.shell = .restarting) (hlead : isLead s = true)
    (hdue : s.net.restarts.headD 0 + 100000000 ≤ s.clk.ts) :
    exec .restartReadyTimeout s = finish s ((latePackages s.net).foldl (fun t p => losePackage p t) s) := by
  have hpassed : decide (s.net.restarts.headD 0 + 100000000 ≤ now s) = true := decide_eq_true hdue
  show execRestartReadyTimeout s = _
  unfold execRestartReadyTimeout
  dsimp only
  rw [hpassed, hclocks, hrestarts, hlead]
  rfl

/-- Once the shell has ended, or is to end at the commit point, the loss of another package leaves it so. -/
theorem losePackage_ended {s : State} (hflow : Claims.eventsFlow s) (hshell : s.net.shell = .solo) (pkg : Nat) : (losePackage pkg s).net.shell = .solo := by
  obtain ⟨hnet, -, -, -⟩ := lossTaken_spec hflow pkg
  have hsolo : (lossTaken pkg s).net.shell = .solo := by rw [hnet]; exact hshell
  rw [losePackage_eq, endShellSoon_solo hsolo, ite_self, hsolo]

theorem losePackage_ending {s : State} (hflow : Claims.eventsFlow s) (hshell : s.net.shell = .ending) (hstroke : s.srv.strokeSince ≠ none) (pkg : Nat) :
    (losePackage pkg s).net.shell = .ending ∧ (losePackage pkg s).srv.strokeSince ≠ none := by
  obtain ⟨hnet, hsrv, -, -⟩ := lossTaken_spec hflow pkg
  by_cases hin : pkg ∈ s.net.shellPkgs
  · obtain ⟨hending, hsrv'⟩ := losePackage_inStroke hflow pkg hin (by rw [hshell]; decide) hstroke
    exact ⟨hending, by rw [hsrv']; exact hstroke⟩
  · rw [losePackage_outside pkg hin, hnet, hsrv]
    exact ⟨hshell, hstroke⟩

theorem losePackage_eventsFlow {s : State} (hflow : Claims.eventsFlow s) (pkg : Nat) : Claims.eventsFlow (losePackage pkg s) := by
  obtain ⟨-, -, hflow', -⟩ := lossTaken_spec hflow pkg
  exact (losePackage_keepsEvents pkg).eventsFlow hflow'

theorem foldl_losePackage_ended (pkgs : List Nat) {s : State} (hflow : Claims.eventsFlow s) (hshell : s.net.shell = .solo) :
    (pkgs.foldl (fun t p => losePackage p t) s).net.shell = .solo := by
  induction pkgs generalizing s with
  | nil => exact hshell
  | cons p pkgs ih => exact ih (losePackage_eventsFlow hflow p) (losePackage_ended hflow hshell p)

theorem foldl_losePackage_ending (pkgs : List Nat) {s : State} (hflow : Claims.eventsFlow s) (hshell : s.net.shell = .ending)
    (hstroke : s.srv.strokeSince ≠ none) : (pkgs.foldl (fun t p => losePackage p t) s).net.shell = .ending := by
  induction pkgs generalizing s with
  | nil => exact hshell
  | cons p pkgs ih =>
    obtain ⟨hending, hstroke'⟩ := losePackage_ending hflow hshell hstroke p
    exact ih (losePackage_eventsFlow hflow p) hending hstroke'

/-- The loss of packages of which the first is in the shell ends it. -/
theorem foldl_losePackage_shell {p : Nat} (pkgs : List Nat) {s : State} (hflow : Claims.eventsFlow s) (hshell : s.net.shell ≠ .solo) (hin : p ∈ s.net.shellPkgs) :
    (s.srv.strokeSince ≠ none → ((p :: pkgs).foldl (fun t p => losePackage p t) s).net.shell = .ending)
      ∧ (s.srv.strokeSince = none → ((p :: pkgs).foldl (fun t p => losePackage p t) s).net.shell = .solo) := by
  have hflow' := losePackage_eventsFlow hflow p
  refine ⟨fun hstroke => ?_, fun hidle => ?_⟩
  · obtain ⟨hending, hsrv⟩ := losePackage_inStroke hflow p hin hshell hstroke
    exact foldl_losePackage_ending pkgs hflow' hending (by rw [hsrv]; exact hstroke)
  · exact foldl_losePackage_ended pkgs hflow' (losePackage_idle hflow p hin hshell hidle).1

theorem exec_restartReadyTimeout_stays {s : State} (h : s.net.shell ≠ .restarting ∨ isLead s = false ∨ s.clk.ts < s.net.restarts.headD 0 + 100000000
      ∨ ∀ m, m < s.net.memberCount → m ∈ s.net.readyMembers) : exec .restartReadyTimeout s = .next s := by
  have hready (h : ∀ m, m < s.net.memberCount → m ∈ s.net.readyMembers) : latePackages s.net = [] := by
    have hnone : lateMembers s.net = [] := List.eq_nil_iff_forall_not_mem.2 fun m hm => by
      obtain ⟨hm, hlate⟩ := mem_lateMembers.1 hm
      exact hlate (h m hm)
    rw [latePackages, hnone, List.filterMap_nil]
  show execRestartReadyTimeout s = _
  unfold execRestartReadyTimeout
  dsimp only
  split
  next hdue =>
    obtain ⟨⟨⟨-, hshell⟩, hlead⟩, hlate⟩ : ((clocksRun s = true ∧ s.net.shell = .restarting) ∧ isLead s = true)
        ∧ s.net.restarts.headD 0 + 100000000 ≤ s.clk.ts := by simpa [now] using hdue
    have hall : ∀ m, m < s.net.memberCount → m ∈ s.net.readyMembers := by
      rcases h with h | h | h | h
      · exact absurd hshell h
      · rw [hlead] at h
        cases h
      · exact absurd hlate (Nat.not_le.2 h)
      · exact h
    exact congrArg (fun ps => finish s (ps.foldl (fun t p => losePackage p t) s)) (hready hall)
  next => rfl

end Sys2Proof.Machine

namespace Sys2Proof.Proofs

open Sys2Proof Sys2Proof.Machine

theorem shellForms : Claims.ShellForms := by
  refine fun s => ⟨fun hclocks hjoining hquiet => ⟨fun hall => ?_, fun hsome hdue => ?_⟩, exec_shellFormed_stays, exec_shellJoinTimeout_stays⟩
  · exact ⟨shellFormed_noJoin hclocks hjoining hquiet hall, fun n r hslots hwork => shellFormed_join hclocks hjoining hquiet hall hslots hwork⟩
  · exact ⟨shellJoinTimeout_noJoin hclocks hjoining hquiet hsome hdue,
      fun n r hslots hwork => shellJoinTimeout_join hclocks hjoining hquiet hsome hdue hslots hwork⟩

theorem membersReady : Claims.MembersReady := by
  intro s m hclocks
  rw [exec_memberReady hclocks]
  refine ⟨fun hshell hlead hm hnew => ?_, fun h => ?_⟩
  · rw [hearReady, if_pos ⟨hshell, hlead, hm, by simpa using hnew⟩]
    rfl
  · rw [hearReady, if_neg]
    · rfl
    rintro ⟨hshell, hlead, hm, hnew⟩
    rcases h with h | h | h | h
    · exact h hshell
    · rw [hlead] at h
      cases h
    · exact absurd hm (Nat.not_lt.2 h)
    · rw [List.contains_iff_mem.2 h] at hnew
      cases hnew

theorem membersLost : Claims.MembersLost := by
  refine fun s pkg hpkg hclocks => ⟨fun hother hsilent hflow => ⟨fun hmember hout => ?_, fun hin hshell => ?_⟩, exec_memberLost_stays hpkg⟩
  · have hexec := exec_memberLost hpkg hclocks hother (.inl hmember) hsilent
    have haction : (packageLost pkg s).action = 0 := if_neg (by simpa using hout)
    have hrecorded := lossTaken_recorded hflow pkg (p := fun r => r.code = 0x51 ∧ r.cls = 2 ∧ r.action = 0 ∧ r.detail0 = pkg)
      fun _ _ _ _ _ => ⟨rfl, rfl, haction, rfl⟩
    obtain ⟨hnet, hsrv, -, -⟩ := lossTaken_spec hflow pkg
    rw [losePackage_outside pkg hout] at hexec
    generalize lossTaken pkg s = t at hexec hrecorded hnet hsrv
    refine ⟨_, hexec, hsrv, (congrArg Net.shell hnet :), (congrArg Net.shellPkgs hnet :), hrecorded,
      fun hleads => ?_, fun hfollows hkept => ?_, fun hlost hleft => ?_⟩
    · exact hnet.trans (Net.withoutPackage_leads hleads hother hmember)
    · exact hnet.trans (Net.withoutPackage_follows hfollows hkept)
    · have hleader : t.net.leader = (s.net.withoutPackage pkg).leader := congrArg Net.leader hnet
      have hnext := Net.withoutPackage_leader hlost hleft
      rw [← hleader] at hnext
      exact hnext
  · have haction : (packageLost pkg s).action = 4 := if_pos (List.contains_iff_mem.2 hin)
    refine ⟨_, exec_memberLost hpkg hclocks hother (.inr hin) hsilent, losePackage_inStroke hflow pkg hin hshell, losePackage_idle hflow pkg hin hshell, ?_⟩
    exact (losePackage_keepsEvents pkg).recorded (lossTaken_recorded hflow pkg fun _ _ _ _ _ => ⟨rfl, rfl, haction, rfl, rfl⟩)

theorem membersLate : Claims.MembersLate := by
  refine fun s hclocks => ⟨fun hrestarts hlead hdue hflow m pkg hpkg hm hlate => ?_, exec_restartReadyTimeout_stays⟩
  have hexec := exec_restartReadyTimeout hclocks hrestarts hlead hdue
  have hshell : s.net.shell ≠ .solo := by rw [hrestarts]; decide
  have hmem : pkg ∈ latePackages s.net := List.mem_filterMap.2 ⟨m, mem_lateMembers.2 ⟨hm, hlate⟩, hpkg⟩
  obtain ⟨p, pkgs, hlist⟩ := List.exists_cons_of_ne_nil (List.ne_nil_of_mem hmem)
  obtain ⟨hending, hsolo⟩ := foldl_losePackage_shell (p := p) pkgs hflow hshell (mem_shellPkgs_of_late (hlist ▸ List.mem_cons_self))
  rw [← hlist] at hending hsolo
  refine ⟨_, hexec, hending, hsolo, fun hothers => ?_⟩
  have hin : pkg ∈ s.net.shellPkgs := mem_shellPkgs_of_late hmem
  have haction : (packageLost pkg s).action = 4 := if_pos (List.contains_iff_mem.2 hin)
  rw [latePackages_lone hpkg hm hlate hothers]
  exact (losePackage_keepsEvents pkg).recorded (lossTaken_recorded hflow pkg fun _ _ _ _ _ => ⟨rfl, rfl, haction, rfl⟩)

/-- Settles O56: how a shell forms, whom its lead counts, and how a package that is lost or late ends it. -/
theorem shellMembership : Obligations.ShellMembership := ⟨shellForms, membersReady, membersLost, membersLate⟩

end Sys2Proof.Proofs
end

section
/-!
PROOFS. The governor (R444, R448, R451, R453, R454, R547; O50): the two steps in which GOV_CTL judges its limits, and what a sample of the sensors leaves of the
temperatures, the flags and the bank.
-/

namespace Sys2Proof.Machine

open Sys2Proof

/-! ### GOV_CTL (R547) -/

section
variable {w : RegAccess} (hfull : w.half = .full)
include hfull

theorem written_full : written w = w.data := merged_full 0 hfull

/-- Step 1 of R547 in a 64-bit write, which writes every field. -/
theorem govOwn_full (hi lo a b : Nat) : govOwn w hi lo a b = true ↔ a ≤ fieldOf w.data hi lo ∧ fieldOf w.data hi lo ≤ b := by
  simp only [govOwn, covers, hfull, Bool.true_and, within, written_full hfull, Bool.and_eq_true, decide_eq_true_eq]

theorem govField_full (hi lo a b old : Nat) :
    govField w hi lo a b old = if a ≤ fieldOf w.data hi lo ∧ fieldOf w.data hi lo ≤ b then fieldOf w.data hi lo else old := by
  simp only [govField, govOwn_full hfull, written_full hfull]

/-- Step 2 of R547: each limit that passed step 1 is judged against the other one's written value where that passed too, and against its held value otherwise. -/
theorem writeGovCtl_limits (s : State) :
    let p := fieldOf w.data 63 48; let u := fieldOf w.data 47 32; let g := s.gov; let g' := (writeGovCtl w s).gov
    let pOk := Config.peakMinW s.part ≤ p ∧ p ≤ Config.peakW s.part
    let uOk := Config.sustainedMinW s.part ≤ u ∧ u ≤ Config.sustainedW s.part
    g'.peakW = (if pOk ∧ (if uOk then u else g.sustainedW) ≤ p then p else g.peakW)
      ∧ g'.sustainedW = if uOk ∧ u ≤ (if pOk then p else g.peakW) then u else g.sustainedW := by
  simp only [writeGovCtl, clampBank, Bool.and_eq_true, decide_eq_true_eq, govOwn_full hfull, written_full hfull, and_self]

end

/-- The cases of R547 for new limits p and u of which pOk and uOk say that they passed step 1, and held ones gp and gu. -/
theorem limits_judged {pOk uOk : Prop} [Decidable pOk] [Decidable uOk] {p u gp gu p' u' : Nat}
    (hpeak : p' = if pOk ∧ (if uOk then u else gu) ≤ p then p else gp) (hsustained : u' = if uOk ∧ u ≤ (if pOk then p else gp) then u else gu) :
    (gu ≤ gp → u' ≤ p')
      ∧ (pOk → uOk → u ≤ p → p' = p ∧ u' = u)
      ∧ (pOk → uOk → p < u → p' = gp ∧ u' = gu)
      ∧ (pOk → ¬uOk → u' = gu ∧ p' = (if gu ≤ p then p else gp))
      ∧ (¬pOk → uOk → p' = gp ∧ u' = (if u ≤ gp then u else gu)) := by
  subst hpeak hsustained
  refine ⟨fun hheld => ?_, fun hp hu hle => ?_, fun hp hu hlt => ?_, fun hp hu => ?_, fun hp hu => ?_⟩
  · by_cases hp : pOk
    · by_cases hu : uOk <;> simp only [hp, hu, true_and, false_and, if_true, if_false] <;> split <;> omega
    · simp only [hp, false_and, if_false]
      split <;> omega
  · simp [hp, hu, hle]
  · simp [hp, hu, Nat.not_le.2 hlt]
  · simp [hp, hu]
  · simp [hp, hu]

theorem exec_govCtlWrite {s : State} {w : RegAccess} (hw : pfWrite w s = true) : exec (.govCtlWrite w) s = .next (writeGovCtl w s) := by
  show execGovCtlWrite w s = _
  rw [execGovCtlWrite, if_pos hw]
  rfl

/-! ### The temperatures of a sample (R444) -/

/-- What a sample leaves of the temperatures of die d: the hub, number 8, has no stacks. -/
def DieTemp.sampled (x : SensorData) (d : Nat) (t : DieTemp) : DieTemp :=
  { t with
    dieC := x.dieC.getD d 0, valid := true
    stack0C := if d = 8 then 0 else x.stack0C.getD d 0
    stack1C := if d = 8 then 0 else x.stack1C.getD d 0 }

/-- Of an update of entry after entry, each entry in the list holds an update of its own. -/
theorem sgetD_foldl_sset {α : Type} (f : Nat → α → α) (e : α) (m : Sparse α) {d : Nat} {ds : List Nat} (hd : d ∈ ds) :
    ∃ v, sgetD (ds.foldl (fun m d => sset m d (f d (sgetD m d e))) m) d e = f d v := by
  induction ds using List.reverseRecOn with
  | nil => cases hd
  | append_singleton ds a ih =>
    rw [List.foldl_append, List.foldl_cons, List.foldl_nil]
    by_cases ha : d = a
    · subst ha
      exact ⟨_, sgetD_sset_self _ _ _ _⟩
    · rw [sgetD_sset_other _ _ _ _ _ ha]
      exact ih ((List.mem_append.1 hd).resolve_right (by simpa using ha))

theorem tempOf_takeTemps (x : SensorData) {s : State} {d : Nat} (hd : d ∈ sensedDies s) : ∃ v : DieTemp, tempOf (takeTemps x s) d = v.sampled x d :=
  sgetD_foldl_sset (DieTemp.sampled x) {} s.gov.temps hd

theorem mem_sensedDies_of_lt {s : State} {d : Nat} (hd : d < Config.dies s.part) : d ∈ sensedDies s :=
  List.mem_append_left _ (List.mem_range.2 hd)

theorem dies_le_eight (p : Part) : Config.dies p ≤ 8 := by cases p <;> decide

/-! ### The links that retrain after a sample (R459) -/

/-- t is s but for the training of links: of the temperatures, only those at which links were trained differ. -/
structure RetrainedOnly (s t : State) : Prop where
  state_eq : t = { s with gov := { s.gov with temps := t.gov.temps, retrains := t.gov.retrains } }
  temp_eq (d : Nat) : tempOf t d = { tempOf s d with trainC := (tempOf t d).trainC }

theorem RetrainedOnly.trans {s t u : State} (a : RetrainedOnly s t) (b : RetrainedOnly t u) : RetrainedOnly s u where
  state_eq := by rw [b.state_eq, a.state_eq]
  temp_eq d := by rw [b.temp_eq d, a.temp_eq d]

theorem tempOf_retrainDie (s : State) (d k : Nat) : tempOf (retrainDie s d) k = { tempOf s k with trainC := (tempOf (retrainDie s d) k).trainC } := by
  unfold retrainDie
  dsimp only
  split
  · by_cases hk : k = d
    · subst hk
      simp only [tempOf, sgetD_sset_self]
    · simp only [tempOf, sgetD_sset_other _ _ _ _ _ hk]
  · rfl

theorem retrainDie_retrainedOnly (s : State) (d : Nat) : RetrainedOnly s (retrainDie s d) := ⟨retrainDie_gov s d, tempOf_retrainDie s d⟩

theorem foldl_retrainDie_retrainedOnly (ds : List Nat) (s : State) : RetrainedOnly s (ds.foldl retrainDie s) :=
  List.foldlRecOn (motive := RetrainedOnly s) ds retrainDie ⟨rfl, fun _ => rfl⟩ fun t ht d _ => ht.trans (retrainDie_retrainedOnly t d)

/-- Nothing but the governor differs, where that was so before the links were trained. -/
theorem RetrainedOnly.gov_alone {s s' t : State} (h : RetrainedOnly s' t) (hs : s' = { s with gov := s'.gov }) : t = { s with gov := t.gov } :=
  calc t = { s' with gov := t.gov } := by rw [h.state_eq]
    _ = { s with gov := t.gov } := congrArg (fun u : State => { u with gov := t.gov }) hs

theorem RetrainedOnly.dieTemp_eq {s t : State} (h : RetrainedOnly s t) (d : Nat) : dieTemp t d = dieTemp s d := by
  rw [dieTemp, h.temp_eq d]
  rfl

/-! ### HOT and THROTTLING (R451) -/

section
variable (s : State)

theorem takeThrottle_hot : (takeThrottle s).gov.hot = true ↔ ∃ d ∈ sensedDies s, (s.gov.throttleC : Int) ≤ dieTemp s d := by
  simp [takeThrottle]

/-- THROTTLING afterwards: a die stands at the upper bound or above, or the flag was set and a die has not yet fallen below the lower one. -/
theorem takeThrottle_throttling : (takeThrottle s).gov.throttling = true ↔
    (∃ d ∈ sensedDies s, (s.gov.throttleC : Int) + 5 ≤ dieTemp s d)
      ∨ s.gov.throttling = true ∧ ∃ d ∈ sensedDies s, (s.gov.throttleC : Int) - 2 ≤ dieTemp s d := by
  simp [takeThrottle]

variable {s}

theorem takeThrottle_clears (h : ∀ d ∈ sensedDies s, dieTemp s d < (s.gov.throttleC : Int) - 2) : (takeThrottle s).gov.throttling = false := by
  rw [← Bool.not_eq_true, takeThrottle_throttling]
  rintro (⟨d, hd, hhot⟩ | ⟨-, d, hd, hwarm⟩)
  · have := h d hd
    omega
  · exact absurd (h d hd) (not_lt.2 hwarm)

theorem takeThrottle_keeps (hbelow : ∀ d ∈ sensedDies s, dieTemp s d < (s.gov.throttleC : Int) + 5)
    (hwarm : ∃ d ∈ sensedDies s, (s.gov.throttleC : Int) - 2 ≤ dieTemp s d) : (takeThrottle s).gov.throttling = s.gov.throttling := by
  have hcool : ¬∃ d ∈ sensedDies s, (s.gov.throttleC : Int) + 5 ≤ dieTemp s d := fun ⟨d, hd, hhot⟩ => absurd (hbelow d hd) (not_lt.2 hhot)
  rw [Bool.eq_iff_iff, takeThrottle_throttling]
  simp only [hcool, hwarm, and_true, false_or]

end

/-! ### A sample as a whole -/

/-- The package after a sample, before any link retrains. -/
def afterSample (x : SensorData) (s : State) : State :=
  let s1 := takeEnergy x (takeThrottle (takeTemps x s))
  { s1 with gov := { s1.gov with corr := (List.range (Config.dies s.part)).foldl (hotCorr s s1) s1.gov.corr } }

theorem exec_sensorSample {x : SensorData} {s : State} (hx : sampleOk x = true) (hpwrok : s.pins.pwrok = true) :
    ∃ t, exec (.sensorSample x) s = .next t ∧ t = { s with gov := t.gov } ∧ RetrainedOnly (afterSample x s) t := by
  have hexec : exec (.sensorSample x) s = finish s ((sensedDies s).foldl retrainDie (afterSample x s)) := by
    show execSensorSample x s = _
    rw [execSensorSample, if_pos hx, if_pos hpwrok]
    rfl
  have honly := foldl_retrainDie_retrainedOnly (sensedDies s) (afterSample x s)
  generalize (sensedDies s).foldl retrainDie (afterSample x s) = t at hexec honly
  have hgov := honly.gov_alone (s := s) rfl
  have hfinish : finish s t = .next t := (congrArg (finish s) hgov).trans (congrArg Host.Outcome.next hgov.symm)
  exact ⟨t, hexec.trans hfinish, hgov, honly⟩

/-- What a sample reports of a die stands in TEMP. -/
theorem tempOf_sampled {x : SensorData} {s t : State} (h : RetrainedOnly (afterSample x s) t) {d : Nat} (hd : d ∈ sensedDies s) :
    ∃ v : DieTemp, tempOf t d = v.sampled x d := by
  obtain ⟨v, hv⟩ := tempOf_takeTemps x hd
  exact ⟨{ v with trainC := (tempOf t d).trainC }, (h.temp_eq d).trans (congrArg (fun y : DieTemp => { y with trainC := (tempOf t d).trainC }) hv)⟩

/-! ### Peaks, windows, trips and regulators (R451, R453, R454, R538) -/

theorem exec_peakEvent {s : State} (hclocks : clocksRun s = true) (hpeak : 10 * s.gov.peakW < s.gov.samples.headD 0) :
    exec .peakEvent s = .next { s with gov := { s.gov with
      mNow := s.gov.mNow - 2, peakEpisode := true, peakEvents := if s.gov.peakEpisode = true then s.gov.peakEvents else min 0xFFFF (s.gov.peakEvents + 1) } } := by
  show execPeakEvent s = _
  exact if_pos (by rw [hclocks, decide_eq_true hpeak]; rfl)

theorem exec_overSustainedWindow {s : State} (hpwrok : s.pins.pwrok = true) :
    exec .overSustainedWindow s = .next { s with gov := { s.gov with
      windowUj := 0, overSustained := if 100000 * s.gov.sustainedW < s.gov.windowUj then min 0xFFFF (s.gov.overSustained + 1) else s.gov.overSustained } } := by
  show execOverSustainedWindow s = _
  exact if_pos hpwrok

theorem exec_thermtrip {s : State} {n c : Nat} (hsensor : sensorOk s n = true) (hc : 115 ≤ c) (hpwrok : s.pins.pwrok = true) (hn : s.pins.thermtripN = true) :
    exec (.thermtrip n c) s = .next { s with pins := { s.pins with thermtripN := false }, clk := { s.clk with stopped := true }, flt := { s.flt with trip := some (n, c) } } := by
  show execThermtrip n c s = _
  rw [execThermtrip, if_pos ⟨hsensor, hc⟩]
  exact if_pos (by rw [hpwrok, hn]; rfl)

theorem exec_pmbAlert (s : State) (fault : Bool) (hpwrok : s.pins.pwrok = true) :
    exec (.pmbAlert fault) s = .next (if fault = true then { s with pins := { s.pins with pmbHold := true }, clk := { s.clk with stopped := true } } else s) := by
  show execPmbAlert fault s = _
  rw [execPmbAlert, hpwrok]
  cases fault <;> rfl

end Sys2Proof.Machine

namespace Sys2Proof.Proofs

open Sys2Proof Sys2Proof.Machine

/-- Settles O50: each limit of GOV_CTL is judged against the other, a sample's flags follow the temperatures it reports, which links that retrain leave as they
are, and the other four events are each one update. -/
theorem governorEvents : Obligations.GovernorEvents := by
  refine ⟨fun s w hw hfull => ?_, fun s x hx hpwrok => ?_, fun s hclocks hpeak => ?_, fun s hpwrok => ?_, fun s n c hsensor hc hpwrok hn => ?_, fun s hpwrok => ?_⟩
  · refine ⟨_, exec_govCtlWrite hw, rfl, govField_full hfull .., govField_full hfull .., govField_full hfull .., ?_⟩
    obtain ⟨hpeak, hsustained⟩ := writeGovCtl_limits hfull s
    obtain ⟨hordered, hboth, hneither, honlyPeak, honlySustained⟩ := limits_judged hpeak hsustained
    exact ⟨hordered, hboth, hneither, honlyPeak, honlySustained, rfl⟩
  · obtain ⟨t, hexec, hgov, honly⟩ := exec_sensorSample hx hpwrok
    have htemp (d : Nat) : dieTemp t d = dieTemp (takeTemps x s) d := honly.dieTemp_eq d
    have hkept : t.gov = { (afterSample x s).gov with temps := t.gov.temps, retrains := t.gov.retrains } := congrArg State.gov honly.state_eq
    have hflags : t.gov.hot = (takeThrottle (takeTemps x s)).gov.hot ∧ t.gov.throttling = (takeThrottle (takeTemps x s)).gov.throttling :=
      ⟨(congrArg Gov.hot hkept :), (congrArg Gov.throttling hkept :)⟩
    refine ⟨t, hexec, hgov, fun d hd => ?_, fun d hd => ?_, congrArg Gov.energyUj hkept, congrArg Gov.windowUj hkept, congrArg Gov.samples hkept,
      ?_, ?_, ?_, ?_, congrArg Gov.bankUj hkept⟩
    · obtain ⟨v, hv⟩ := tempOf_sampled honly hd
      rw [hv]
      exact ⟨rfl, rfl⟩
    · obtain ⟨v, hv⟩ := tempOf_sampled honly (mem_sensedDies_of_lt hd)
      have hhub : d ≠ 8 := fun h => absurd hd (by rw [h]; exact Nat.not_lt.2 (dies_le_eight s.part))
      rw [hv]
      exact ⟨if_neg hhub, if_neg hhub⟩
    all_goals simp only [htemp, hflags]
    · exact takeThrottle_hot _
    · exact fun h => (takeThrottle_throttling _).2 (.inl h)
    · exact takeThrottle_clears (s := takeTemps x s)
    · exact takeThrottle_keeps (s := takeTemps x s)
  · exact exec_peakEvent hclocks hpeak
  · exact exec_overSustainedWindow hpwrok
  · exact exec_thermtrip hsensor hc hpwrok hn
  · exact ⟨exec_pmbAlert s true hpwrok, exec_pmbAlert s false hpwrok⟩

end Sys2Proof.Proofs
end

section
/-!
PROOFS. What every command keeps (R488, R492 to R496): the queue, the part and, but for the commands of the calendar, the backup domain. A command's
meaning is a tree of guards whose leaves are finish, finishCal, refusals and faults. Leaves states what an answer leaves with the condition on
the backup domain left open, so that one walk over the commands serves both statements.
-/

namespace Sys2Proof.Machine

open Sys2Proof

/-- A next state has the queue and the part of s, and its backup domain meets C. -/
def Leaves (s : State) (C : Cal → Prop) (o : Host.Outcome State Fault Refusal) : Prop :=
  ∀ t, o = .next t → t.pending = s.pending ∧ t.part = s.part ∧ C t.cal

/-! ### The leaves and the guards of a command's meaning -/

section
variable {s : State} {C : Cal → Prop}

theorem leaves_finishCal {c : Cal} (h : C c) (t : State) : Leaves s C (finishCal s c t) := by
  rintro _ ⟨⟩
  exact ⟨rfl, rfl, h⟩

theorem leaves_finish (h : C s.cal) (t : State) : Leaves s C (finish s t) := by
  rintro _ ⟨⟩
  exact ⟨rfl, rfl, h⟩

theorem leaves_refused (r : Refusal) : Leaves s C (.refused r) := fun _ h => nomatch h

theorem leaves_fault (r : Fault) : Leaves s C (.fault r) := fun _ h => nomatch h

theorem leaves_ite {p : Prop} [Decidable p] {a b : Host.Outcome State Fault Refusal} (ha : Leaves s C a) (hb : Leaves s C b) :
    Leaves s C (if p then a else b) := by
  split
  · exact ha
  · exact hb

theorem leaves_guard {p : Prop} [Decidable p] {o : Host.Outcome State Fault Refusal} (h : Leaves s C o) :
    Leaves s C (if p then o else .refused .illFormed) := leaves_ite h (leaves_refused _)

/-- An effect on the backup domain, carried out where a condition holds. -/
theorem leaves_whenCal {p : Prop} [Decidable p] {c : Cal} (h : C c) (hs : C s.cal) (t : State) :
    Leaves s C (if p then finishCal s c t else finish s s) := leaves_ite (leaves_finishCal h t) (leaves_finish hs s)

theorem Leaves.mono {D : Cal → Prop} {o : Host.Outcome State Fault Refusal} (h : Leaves s C o) (himp : ∀ c, C c → D c) : Leaves s D o :=
  fun t ht => have ⟨hpending, hpart, hcal⟩ := h t ht; ⟨hpending, hpart, himp _ hcal⟩

end

/-- The backup domain is as it was. -/
def SameCal (s : State) (c : Cal) : Prop := c = s.cal

/-! ### The shared meanings -/

section
variable (s : State)

theorem leaves_self (t : State) : Leaves s (SameCal s) (finish s t) := leaves_finish (C := SameCal s) rfl t

theorem fetchEntry_leaves (ok : Bool) (body : RingRef → Entry → State → Except CmdErr Taken) (q : RingRef) (e : Entry) :
    Leaves s (SameCal s) (fetchEntry ok body q e s) := leaves_guard (leaves_ite (leaves_self _ _) (leaves_self _ _))

theorem powerRow_leaves (state : Nat) (q : RingRef) (e : Entry) : Leaves s (SameCal s) (powerRow state q e s) :=
  leaves_guard (leaves_ite (fetchEntry_leaves _ _ _ _ _) (leaves_self _ _))

theorem laneRun_leaves (op : LaneOp) (n : Nat) (f : LaneFields) : Leaves s (SameCal s) (laneRun op n f s) := leaves_guard (leaves_self _ _)

theorem recordRun_leaves (op : Nat) (body : RecRef → RecCtx → State → State) (r : RecRef) : Leaves s (SameCal s) (recordRun op body r s) := by
  refine leaves_guard ?_
  split <;> exact leaves_self _ _

end

/-! ### The commands outside the backup domain -/

/-- A command that is not the calendar's keeps the backup domain: no leaf of its meaning is a finishCal. -/
theorem exec_leaves (c : Instr) (s : State) (h : Claims.touchesCal c = false) : Leaves s (SameCal s) (exec c s) := by
  cases c
  case calCommit | calTimeRead | calSubsecRead | calendarTick | trimWindowEnd | oscFail | battLow | battLowCleared | backupPowerLoss
      | backupDomainPowerUp | warmRstN | pwrokFall | registerWrite => exact Bool.noConfusion h
  case loadModel | unloadModel | loadVocab | loadGrammar | indexCreate | indexMerge | abort | enterPowerStateActive | getLogErrorPage |
      getLogErrorRecords | setFeatureArbitration | setFeatureServing | setFeaturePartition | setFeatureBoathouse | setFeaturePackTemplate
      | setFeaturePassageStore | setFeatureGet | shellJoin | firmwareActivate | tableCreate | tableDelete | shellEnd | query | embed |
      search | rerank | pack | generate | pauseConversation | release | resumeConversation | tokenize | detokenize | indexInsert |
      indexDelete | tableRowWrite | tableRowRead | runOplist | fence => exact fetchEntry_leaves _ _ _ _ _
  case enterPowerStateStandby | enterPowerStateRetain => exact powerRow_leaves _ _ _ _
  case matmul | elemwise | expertMatmul | vector | vectorQ | gather | kvWrite | prefetch | collective | selectMerge | verify | emit =>
    exact recordRun_leaves _ _ _ _
  case nop | add | sub | mul | fma | min | max | abs | neg | div | cmpeq | cmplt | cmple | sel | mov | and | or | xor | shl | shra | shrl
      | cvtfi | cvtif | rcp | sqrt | rsqrt | exp2 | log2 | sinpi | cospi | tanh | rsum | rmax | rmin | bcast | iota | sget | selpush |
      signal | wait => exact laneRun_leaves _ _ _ _
  case ld | st => exact leaves_ite (laneRun_leaves _ _ _ _) (leaves_refused _)
  case popq n f =>
    show Leaves _ _ (execPopq n f s)
    unfold execPopq
    split
    · exact leaves_guard (laneRun_leaves _ _ _ _)
    · exact laneRun_leaves _ _ _ _
  -- the commands that branch on what they find in the state
  case interruptModerationTimeout | kvPoolExhausted | ageingPromotion | farTileResident | regionCmdComplete | writeBufferDrain | mbD2hPost | timestampRead |
      boathouseExpiry | retransmit | restartFrame | repeatCheckComplete | arbiterComplete | checkSampleDropped | cperExport =>
    simp only [exec, execInterruptModerationTimeout, execKvPoolExhausted, execAgeingPromotion, execFarTileResident, execRegionCmdComplete,
      execWriteBufferDrain, execMbD2hPost, execTimestampRead, execBoathouseExpiry, execRetransmit, execRestartFrame, execRepeatCheckComplete,
      execArbiterComplete, execCheckSampleDropped, execCperExport]
    repeat' split
    all_goals apply_rules [leaves_self, leaves_refused]
  -- every other command branches on guards alone
  all_goals apply_rules [leaves_ite, leaves_self, leaves_refused, leaves_fault]

/-! ### The registers of the backup domain within their fields -/

theorem fieldOf_lt (r : Reg) (hi lo : Nat) : fieldOf r hi lo < 2 ^ (hi + 1 - lo) := Nat.mod_lt _ (Nat.two_pow_pos _)

theorem signedOf_byte (v : Nat) : -128 ≤ signedOf 8 v ∧ signedOf 8 v ≤ 127 := by
  unfold signedOf
  split <;> omega

section
variable {c : Cal} (h : CalLegal c)
include h

theorem setUnits_legal (n : Nat) : CalLegal (setUnits c n) := by
  obtain ⟨-, -, hrest⟩ := h
  exact ⟨Nat.mod_lt _ (by decide), Nat.mod_lt _ (by decide), hrest⟩

/-- The set registers are written with what their fields hold (R494). -/
theorem withSet_legal {sec frac : Nat} (hs : sec < 2 ^ 40) (hf : frac < 2 ^ 16) : CalLegal { c with setSec := sec, setFrac := frac } := by
  obtain ⟨hsec, hfrac, -, -, hrest⟩ := h
  exact ⟨hsec, hfrac, hs, hf, hrest⟩

theorem calReset_legal : CalLegal (calReset c) := withSet_legal h (by decide) (by decide)

theorem withWindow_legal {n : Nat} (hn : n ≤ 2 ^ 20) : CalLegal { c with windowTicks := n } := by
  obtain ⟨hsec, hfrac, hsetSec, hsetFrac, hlow, hhigh, -, hrest⟩ := h
  exact ⟨hsec, hfrac, hsetSec, hsetFrac, hlow, hhigh, hn, hrest⟩

/-- What a latching read puts into a holding register has room there (R493). -/
theorem latched_legal : HoldingLegal ⟨true, c.sec / 2 ^ 32, c.frac⟩ := by
  obtain ⟨hsec, hfrac, -⟩ := h
  exact ⟨by dsimp only; omega, hfrac⟩

theorem holdingOf_legal (a : Reader) : HoldingLegal (holdingOf c a) := by
  obtain ⟨-, -, -, -, -, -, -, hhost, hcox, hbmc⟩ := h
  cases a with
  | host => exact hhost
  | cox => exact hcox
  | bmc => exact hbmc

theorem setHolding_legal (a : Reader) {x : Holding} (hx : HoldingLegal x) : CalLegal (setHolding c a x) := by
  obtain ⟨hsec, hfrac, hsetSec, hsetFrac, hlow, hhigh, hwindow, hhost, hcox, hbmc⟩ := h
  cases a with
  | host => exact ⟨hsec, hfrac, hsetSec, hsetFrac, hlow, hhigh, hwindow, hx, hcox, hbmc⟩
  | cox => exact ⟨hsec, hfrac, hsetSec, hsetFrac, hlow, hhigh, hwindow, hhost, hx, hbmc⟩
  | bmc => exact ⟨hsec, hfrac, hsetSec, hsetFrac, hlow, hhigh, hwindow, hhost, hcox, hx⟩

/-- A domain that lost its power holds the set registers and nothing else (R496). -/
theorem emptied_legal (powered : Bool) : CalLegal { setSec := c.setSec, setFrac := c.setFrac, battLost := true, powered := powered } := by
  obtain ⟨-, -, hsetSec, hsetFrac, -⟩ := h
  exact withSet_legal resetCalendarLegal hsetSec hsetFrac

end

/-- CAL_CTL after a write (R494): each field by its own condition. -/
theorem writeCalCtl_eq (w : RegAccess) (c : Cal) :
    writeCalCtl w c = { c with
      sec := if wrote w 0 then c.setSec else c.sec
      frac := if wrote w 0 then c.setFrac else c.frac
      trim := if covers w 15 8 then signedOf 8 (fieldOf (written w) 15 8) else c.trim
      battLost := c.battLost && !wrote w 2
      valid := c.valid || wrote w 0 } := by
  unfold writeCalCtl
  cases wrote w 0 <;> cases wrote w 2 <;> cases covers w 15 8 <;> simp

theorem writeCalCtl_legal (w : RegAccess) {c : Cal} (h : CalLegal c) : CalLegal (writeCalCtl w c) := by
  obtain ⟨hsec, hfrac, hsetSec, hsetFrac, hlow, hhigh, hrest⟩ := h
  obtain ⟨hwlow, hwhigh⟩ := signedOf_byte (fieldOf (written w) 15 8)
  rw [writeCalCtl_eq]
  refine ⟨?_, ?_, hsetSec, hsetFrac, ?_, ?_, hrest⟩ <;> dsimp only <;> split <;> assumption

theorem writeBackup_legal (o : Nat) (w : RegAccess) {c : Cal} (h : CalLegal c) : CalLegal (writeBackup o w c) := by
  have ⟨_, _, hsetSec, hsetFrac, _⟩ := h
  unfold writeBackup
  split
  · exact withSet_legal h (fieldOf_lt _ 39 0) hsetFrac
  · split
    · exact withSet_legal h hsetSec (fieldOf_lt _ 15 0)
    · split
      · exact writeCalCtl_legal w h
      · exact h

/-! ### The commands of the backup domain -/

/-- The backup domain is within its fields where that of s is. -/
def StaysLegal (s : State) (c : Cal) : Prop := CalLegal s.cal → CalLegal c

section
variable (s : State)

theorem staysLegal_self : StaysLegal s s.cal := id

theorem staysLegal_latched (a : Reader) : StaysLegal s (setHolding s.cal a ⟨true, s.cal.sec / 2 ^ 32, s.cal.frac⟩) :=
  fun h => setHolding_legal h a (latched_legal h)

theorem execCalTimeRead_leaves (a : Reader) (h : Half) : Leaves s (StaysLegal s) (execCalTimeRead a h s) := by
  refine leaves_ite ?_ (leaves_finish (staysLegal_self s) s)
  cases h with
  | high => exact leaves_finish (staysLegal_self s) _
  | low => exact leaves_finishCal (staysLegal_latched s a) _
  | full => exact leaves_finishCal (staysLegal_latched s a) _

theorem execCalSubsecRead_leaves (a : Reader) (h : Half) : Leaves s (StaysLegal s) (execCalSubsecRead a h s) := by
  have hread : StaysLegal s (setHolding s.cal a { holdingOf s.cal a with held := false }) :=
    fun hlegal => setHolding_legal hlegal a (holdingOf_legal hlegal a)
  have hself := staysLegal_self s
  refine leaves_ite ?_ (leaves_finish hself s)
  cases h with
  | high => exact leaves_finish hself _
  | low => exact leaves_ite (leaves_finishCal hread _) (leaves_finish hself _)
  | full => exact leaves_ite (leaves_finishCal hread _) (leaves_finish hself _)

theorem execRegisterWrite_leaves (o : Nat) (w : RegAccess) : Leaves s (StaysLegal s) (execRegisterWrite o w s) :=
  have hself := staysLegal_self s
  leaves_guard <| leaves_ite (leaves_fault _) <| leaves_ite (leaves_finish hself s) <|
    leaves_ite (leaves_whenCal (fun h => writeBackup_legal o w h) hself _) (leaves_finish hself _)

/-- A command of the backup domain leaves its registers within their fields. -/
theorem exec_touching_leaves (c : Instr) (h : Claims.touchesCal c = true) : Leaves s (StaysLegal s) (exec c s) := by
  have hself := staysLegal_self s
  cases c
  case calCommit w => exact leaves_guard (leaves_whenCal (fun h => writeCalCtl_legal w h) hself _)
  case calTimeRead => exact execCalTimeRead_leaves s _ _
  case calSubsecRead => exact execCalSubsecRead_leaves s _ _
  case calendarTick => exact leaves_whenCal (fun h => withWindow_legal (setUnits_legal h _) (Nat.min_le_right _ _)) hself _
  case trimWindowEnd => exact leaves_whenCal (fun h => withWindow_legal (setUnits_legal h _) (Nat.zero_le _)) hself _
  case oscFail => exact leaves_whenCal (fun h => h) hself _
  case battLow => exact leaves_whenCal (fun h => h) hself _
  case battLowCleared => exact leaves_whenCal (fun h => h) hself _
  case backupPowerLoss => exact leaves_finishCal (fun h => emptied_legal h false) _
  case backupDomainPowerUp => exact leaves_ite (leaves_finish hself s) (leaves_finishCal (fun h => emptied_legal h true) _)
  case warmRstN => exact leaves_whenCal (fun h => calReset_legal h) hself _
  case pwrokFall => exact leaves_whenCal (fun h => calReset_legal h) hself _
  case registerWrite o w => exact execRegisterWrite_leaves s o w
  all_goals exact Bool.noConfusion h

/-! ### Every command and the idle step -/

theorem exec_leaves_legal (c : Instr) : Leaves s (StaysLegal s) (exec c s) := by
  cases h : Claims.touchesCal c with
  | true => exact exec_touching_leaves s c h
  | false => exact (exec_leaves c s h).mono fun _ hsame hlegal => hsame ▸ hlegal

/-- One step takes the front of the queue, keeps the part and keeps the backup domain legal. -/
theorem step_leaves {t : State} (h : step s = .next t) : t.pending = s.pending.tail ∧ t.part = s.part ∧ StaysLegal s t.cal := by
  unfold step at h
  cases hp : s.pending with
  | nil =>
    rw [hp] at h
    have ⟨hpending, hpart, hcal⟩ := leaves_finish (staysLegal_self s) _ t h
    exact ⟨hpending.trans hp, hpart, hcal⟩
  | cons c rest =>
    rw [hp] at h
    exact exec_leaves_legal { s with pending := rest } c t h

/-- Nothing of the backup domain differs but the set registers. -/
def SetRegistersOnly (s : State) (c : Cal) : Prop := { c with setSec := s.cal.setSec, setFrac := s.cal.setFrac } = s.cal

theorem calReset_setRegistersOnly : SetRegistersOnly s (calReset s.cal) := rfl

theorem execWarmRstN_leaves : Leaves s (SetRegistersOnly s) (execWarmRstN s) := leaves_whenCal (calReset_setRegistersOnly s) rfl _

theorem execPwrokFall_leaves : Leaves s (SetRegistersOnly s) (execPwrokFall s) := leaves_whenCal (calReset_setRegistersOnly s) rfl _

end

end Sys2Proof.Machine

namespace Sys2Proof.Proofs

open Sys2Proof Sys2Proof.Machine

/-- Settles O4: the invariant of the backup domain, one command at a time. -/
theorem calendarStaysLegal : Obligations.CalendarStaysLegal := fun s _ hlegal hstep =>
  have ⟨_, _, hcal⟩ := step_leaves s hstep
  hcal hlegal

/-- Settles O5: no answer replaces the queue or the part, and only the calendar's own commands replace the backup domain. -/
theorem machineKeeps : Obligations.MachineKeeps := by
  refine ⟨fun s t hstep => ?_, fun c s t hc hexec => ?_, fun s t hexec => ?_⟩
  · obtain ⟨hpending, hpart, -⟩ := step_leaves s hstep
    exact ⟨hpending, hpart⟩
  · obtain ⟨-, -, hcal⟩ := exec_leaves c s hc t hexec
    exact hcal
  · obtain hexec | hexec := hexec
    · have ⟨_, _, hcal⟩ := execWarmRstN_leaves s t hexec
      exact hcal
    · have ⟨_, _, hcal⟩ := execPwrokFall_leaves s t hexec
      exact hcal

/-- Settles O1: step is exec of the queue's front on the state with its rest. -/
theorem stepRunsFront : Obligations.StepRunsFront := by
  intro s c rest hpending
  rw [step, hpending]

end Sys2Proof.Proofs
end

section
/-!
PROOFS. The calendar and the clocks (R475, R483, R485, R492 to R498): the commit, the latching reads, the crystal and its supply, and the two clock faults.
-/

namespace Sys2Proof.Machine

open Sys2Proof

/-! ### Answers of the calendar's commands -/

theorem exec_calCommit {s : State} {w : RegAccess} (hcommit : wrote w 0 = true) (hwrite : pfWrite w s = true) (hpower : s.cal.powered = true)
    (hconvs : s.srv.convs = []) : exec (.calCommit w) s = .next { s with cal := writeCalCtl w s.cal } := by
  show execCalCommit w s = _
  rw [execCalCommit, if_pos hcommit, hwrite, hpower, expireAfter_withCal _ _ hconvs]
  rfl

/-! ### The crystal -/

theorem calUnits_setUnits (c : Cal) (n : Nat) : calUnits (setUnits c n) = n % 2 ^ 56 := by
  simp only [calUnits, setUnits]
  omega

/-- A trim that does not reach below zero is exact (R495). -/
theorem calUnits_trimmed {c : Cal} (h : 0 ≤ (calUnits c : Int) + 2 * c.trim) :
    (calUnits (trimmed c) : Int) = ((calUnits c : Int) + 2 * c.trim) % 2 ^ 56 := by
  rw [trimmed, calUnits_setUnits]
  omega

section
variable {s : State} (h : s.cal.powered = true)
include h

theorem exec_calendarTick : exec .calendarTick s = finishCal s
    { setUnits s.cal (calUnits s.cal + 2) with oscFail := false, windowTicks := min (s.cal.windowTicks + 1) (2 ^ 20) }
    (if s.gov.st = .retain ∧ clocksRun s = true then { s with clk := retainAdvance s.clk } else s) := by
  show execCalendarTick s = _
  exact if_pos h

theorem exec_trimWindowEnd : exec .trimWindowEnd s = .next { s with cal := { trimmed s.cal with windowTicks := 0 } } := by
  show execTrimWindowEnd s = _
  exact if_pos h

theorem exec_oscFail : exec .oscFail s = .next { s with cal := { s.cal with oscFail := true } } := by
  show execOscFail s = _
  exact if_pos h

theorem exec_battLow : exec .battLow s = .next { s with cal := { s.cal with battLow := true } } := by
  show execBattLow s = _
  exact if_pos h

theorem exec_battLowCleared : exec .battLowCleared s = .next { s with cal := { s.cal with battLow := false } } := by
  show execBattLowCleared s = _
  exact if_pos h

end

theorem exec_backupDomainPowerUp {s : State} (h : s.cal.powered = false) : exec .backupDomainPowerUp s
    = .next { s with cal := { setSec := s.cal.setSec, setFrac := s.cal.setFrac, battLost := true } } := by
  show execBackupDomainPowerUp s = _
  rw [execBackupDomainPowerUp, h]
  rfl

/-! ### Holding registers (R493) -/

theorem holdingOf_setHolding_self (c : Cal) (a : Reader) (x : Holding) : holdingOf (setHolding c a x) a = x := by cases a <;> rfl

theorem holdingOf_setHolding_other (c : Cal) {a b : Reader} (x : Holding) (h : b ≠ a) : holdingOf (setHolding c a x) b = holdingOf c b := by
  cases a with
  | host => cases b with
    | host => exact absurd rfl h
    | cox | bmc => rfl
  | cox => cases b with
    | cox => exact absurd rfl h
    | host | bmc => rfl
  | bmc => cases b with
    | bmc => exact absurd rfl h
    | host | cox => rfl

theorem setHolding_frac (c : Cal) (a : Reader) (x : Holding) : (setHolding c a x).frac = c.frac := by cases a <;> rfl

/-- The state after a read that returns v and leaves x in the reader's holding register. -/
def afterLatch (a : Reader) (x : Holding) (v : Nat) (s : State) : State := withCal (setHolding s.cal a x) (withRead v s)

section
variable {s : State} {a : Reader} (h : canRead a s = true)
include h

theorem exec_calTimeRead_full : exec (.calTimeRead a .full) s = .next (afterLatch a ⟨true, s.cal.sec / 2 ^ 32, s.cal.frac⟩ s.cal.sec s) := by
  show execCalTimeRead a .full s = _
  exact if_pos h

theorem exec_calTimeRead_low : exec (.calTimeRead a .low) s = .next (afterLatch a ⟨true, s.cal.sec / 2 ^ 32, s.cal.frac⟩ (s.cal.sec % 2 ^ 32) s) := by
  show execCalTimeRead a .low s = _
  exact if_pos h

theorem exec_calTimeRead_high : exec (.calTimeRead a .high) s = .next (withRead (holdingOf s.cal a).secHi s) := by
  show execCalTimeRead a .high s = _
  exact if_pos h

theorem exec_calSubsecRead {p : Half} (hp : p ≠ .high) : exec (.calSubsecRead a p) s =
    .next (if (holdingOf s.cal a).held = true then afterLatch a { holdingOf s.cal a with held := false } (65536 + (holdingOf s.cal a).frac) s
      else withRead s.cal.frac s) := by
  show execCalSubsecRead a p s = _
  rw [execCalSubsecRead, if_pos h]
  cases p with
  | high => exact absurd rfl hp
  | low | full => dsimp only; split <;> rfl

end

theorem afterLatch_spec (a : Reader) (x : Holding) (v : Nat) (s : State) :
    (afterLatch a x v s).port.readData = BitVec.ofNat 64 v ∧ holdingOf (afterLatch a x v s).cal a = x
      ∧ ∀ b, b ≠ a → holdingOf (afterLatch a x v s).cal b = holdingOf s.cal b :=
  ⟨rfl, holdingOf_setHolding_self _ _ _, fun _ hb => holdingOf_setHolding_other _ _ hb⟩

/-- What a read of TIMESTAMP latches and returns (R497). -/
theorem exec_timestampRead {s : State} (h : hostUp s = true) (p : Half) : exec (.timestampRead p) s = .next (match p with
    | .high => withRead s.clk.tsHi s
    | .low => withRead (s.clk.ts % 2 ^ 32) { s with clk := { s.clk with tsHi := s.clk.ts / 2 ^ 32 } }
    | .full => withRead s.clk.ts { s with clk := { s.clk with tsHi := s.clk.ts / 2 ^ 32 } }) := by
  show execTimestampRead p s = _
  cases p <;> exact if_pos h

/-! ### The record of a clock fault (R475, R485) -/

/-- A record that raises no interrupt: FLT_CTL.IRQ_EN is 0 and it names no function. -/
theorem logRecord_mem {r : ErrRec} (hfn : 64 ≤ r.fn) (who : Option UnitRef) {s : State} (hirq : bitOf s.flt.ctl 0 = false) :
    (logRecord r who s).mem = s.mem := by
  unfold logRecord
  dsimp only
  rw [if_neg (Nat.not_lt.2 hfn), hirq, traceWrite_rest]
  rfl

/-- The live log keeps the newest 4,096 records. -/
theorem logRecord_live_length {r : ErrRec} (hfn : 64 ≤ r.fn) (who : Option UnitRef) (s : State) :
    (logRecord r who s).flt.live.length = min 4096 (s.flt.live.length + 1) := by
  unfold logRecord
  dsimp only
  rw [if_neg (Nat.not_lt.2 hfn), traceWrite_rest]
  split
  · rw [raiseMsix_host]
    exact List.length_take
  · exact List.length_take

/-- s with another boot state. -/
def State.withBoot (s : State) (b : Boot) : State := { s with boot := b }

/-- An event that finds room in the queue is not lost, and changes nothing outside the boot state (R514). -/
theorem latchEvent_room (e : Event) {s : State} (h : s.boot.evq.length < 4096) : ∃ b, latchEvent e s = (false, s.withBoot b) :=
  ⟨_, if_neg (Nat.not_le.2 h)⟩

theorem latch_withBoot (e : Event) {s : State} (h : s.boot.evq.length < 4096) :
    ∃ b, latch e s = s.withBoot b ∧ b.evq.length ≤ s.boot.evq.length + 1 :=
  have ⟨_, _, hlatch, hlength⟩ := latch_room e s h
  ⟨_, hlatch, hlength⟩

/-- An event that asks for no restart and finds room in the queue: its record is written, and it passes through the queue or waits in it. -/
theorem detect_room {r : ErrRec} {s : State} (hroom : s.boot.evq.length < 4096) (hfn : 64 ≤ r.fn) (haction : r.action = 0) :
    ∃ b, detect r none s = (logRecord r none s).withBoot b := by
  have hboot : (logRecord r none s).boot = s.boot := by rw [logRecord_logOnly hfn none s]
  obtain ⟨b, hlatch⟩ := latchEvent_room (.error r.code 0) (s := logRecord r none s) (by rwa [hboot])
  refine ⟨b, ?_⟩
  simp [detect, haction, hlatch, actOn]

/-- The record of a transfer with no committed work that timed out in crossing x. -/
def uncommittedCrossing (x : Nat) : ErrRec := crossingRecord 0x31 x false 0

theorem uncommittedCrossing_fn (x : Nat) : 64 ≤ (uncommittedCrossing x).fn := by simp [uncommittedCrossing, crossingRecord]

theorem exec_cdcTimeout_uncommitted {s : State} {x : Nat} (hfrom : x / 256 ≤ 41) (hto : x % 256 ≤ 41) (hclocks : clocksRun s = true)
    (hroom : s.boot.evq.length + 2 ≤ 4096) :
    ∃ b b', exec (.cdcTimeout x false) s = .next ((logRecord (uncommittedCrossing x) none (s.withBoot b)).withBoot b') := by
  obtain ⟨b, hlatch, hlength⟩ := latch_withBoot (.crossing x) (s := s) (by omega)
  obtain ⟨b', hdetect⟩ := detect_room (r := uncommittedCrossing x) (s := s.withBoot b) (show b.evq.length < 4096 by omega) (uncommittedCrossing_fn x) rfl
  refine ⟨b, b', ?_⟩
  have hexec : exec (.cdcTimeout x false) s = finish s (detect (uncommittedCrossing x) none (latch (.crossing x) s)) := by
    show execCdcTimeout x false s = _
    rw [execCdcTimeout, if_pos ⟨hfrom, hto⟩, if_pos hclocks]
    rfl
  rw [hexec, hlatch, hdetect]
  refine finish_of_kept ?_
  rw [logRecord_logOnly (uncommittedCrossing_fn x)]
  exact ⟨rfl, rfl, rfl⟩

end Sys2Proof.Machine

namespace Sys2Proof.Proofs

open Sys2Proof Sys2Proof.Machine

/-- Settles O35: each read by its half, and what it leaves in the holding registers. -/
theorem latchingReads : Obligations.LatchingReads := by
  refine ⟨fun s a hread => ⟨?_, ?_, exec_calTimeRead_high hread, fun p hp hheld => ?_, fun p hp hheld => ?_⟩, fun s hup => ⟨?_, ?_, ?_⟩⟩
  · exact ⟨_, exec_calTimeRead_full hread, afterLatch_spec ..⟩
  · exact ⟨_, exec_calTimeRead_low hread, afterLatch_spec ..⟩
  · obtain ⟨hdata, hself, hothers⟩ := afterLatch_spec a { holdingOf s.cal a with held := false } (65536 + (holdingOf s.cal a).frac) s
    exact ⟨_, (exec_calSubsecRead hread hp).trans (congrArg _ (if_pos hheld)), hdata, hself, hothers, setHolding_frac ..⟩
  · exact (exec_calSubsecRead hread hp).trans (congrArg _ (if_neg (by rw [hheld]; exact Bool.false_ne_true)))
  · exact ⟨_, exec_timestampRead hup .full, rfl, rfl⟩
  · exact ⟨_, exec_timestampRead hup .low, rfl, rfl⟩
  · exact exec_timestampRead hup .high

/-- CAL_COMMIT (R494). -/
theorem calendarCommit : Claims.CalendarCommit := by
  intro s w hcommit hwrite hpower hconvs
  rw [exec_calCommit hcommit hwrite hpower hconvs, writeCalCtl_eq, hcommit, Bool.or_true]
  rfl

/-- The crystal and its supply (R492, R495, R496). -/
theorem crystalAndBackup : Claims.CrystalAndBackup := by
  intro s _
  refine ⟨fun hpower => ⟨⟨_, exec_calendarTick hpower, calUnits_setUnits s.cal _, rfl, rfl, rfl, fun hactive => ?_, fun hretain hclocks => ?_⟩, fun htrim => ?_,
    exec_oscFail hpower, exec_battLow hpower, exec_battLowCleared hpower⟩, ?_, fun hpower => ?_⟩
  · rw [if_neg fun h => hactive h.1]
  · rw [if_pos ⟨hretain, hclocks⟩]
    exact ⟨rfl, rfl⟩
  · refine ⟨_, exec_trimWindowEnd hpower, ?_, rfl, rfl⟩
    exact calUnits_trimmed htrim
  · exact ⟨_, rfl, rfl, rfl, rfl, rfl, rfl, rfl⟩
  · exact ⟨_, exec_backupDomainPowerUp hpower, rfl, by simp [calUnits], rfl, rfl, rfl, rfl⟩

/-- Settles O36. -/
theorem calendarKeepsTime : Obligations.CalendarKeepsTime := ⟨calendarCommit, crystalAndBackup⟩

/-- Settles O37: REF_LOST is one update; a crossing that times out passes the event queue twice, and its record stands newest in the log. -/
theorem clockFaults : Obligations.ClockFaults := by
  refine ⟨fun s hpwrok => if_pos hpwrok, fun s x hfrom hto hclocks hroom hirq => ?_⟩
  obtain ⟨b, b', hexec⟩ := exec_cdcTimeout_uncommitted hfrom hto hclocks hroom
  have hfn := uncommittedCrossing_fn x
  obtain ⟨nv, hhead, -⟩ := logRecord_newestIs hfn none (s.withBoot b)
  have honly := logRecord_logOnly hfn none (s.withBoot b)
  exact ⟨_, _, hexec, hhead, logRecord_live_length hfn none _, rfl, rfl, rfl, rfl, rfl, rfl, rfl, (congrArg State.srv honly :), (congrArg State.net honly :),
    logRecord_mem hfn none hirq⟩

end Sys2Proof.Proofs
end

section
/-!
PROOFS. The resets of the package (R488, R489): what PWROK_FALL and WARM_RST_N leave.
-/

namespace Sys2Proof.Machine

open Sys2Proof

/-! ### Crews at a start (R474) -/

/-- A crew whose cores are chosen afresh holds its FAILED units and nothing else but the choice. -/
theorem freshCrew_eq (c : Crew) : freshCrew c = { c with active := (freshCrew c).active, spare := (freshCrew c).spare } := by
  unfold freshCrew
  dsimp only
  split <;> rfl

/-- Of crews that start again only the FAILED units are kept. -/
theorem startCrews_onlyFailedUnits {s t : State} (h : t.crews = startCrews s) : Claims.onlyFailedUnits s t := by
  intro c
  rw [crewOf, h, startCrews, sgetD, slookup_mapValues fun x : Crew => freshCrew { failed := x.failed, sramFailed := x.sramFailed }, crewOf, sgetD]
  cases slookup s.crews c with
  | none => rfl
  | some x =>
    rw [Option.map_some, Option.getD_some, freshCrew_eq]
    rfl

/-! ### The regions that every package has (R334, R336) -/

theorem regionOf_baseRegions_device {n : Nat} (hn : n < 4) (s : State) : (regionOf (baseRegions s) n).st = .active := by
  have hcases : n = 3 ∨ n = 2 ∨ n = 1 ∨ n = 0 := by omega
  simp only [baseRegions, List.foldl_cons, List.foldl_nil, kvRegion, workRegion, textRegion, traceRegion]
  obtain rfl | rfl | rfl | rfl := hcases
  · rw [regionOf_setRegion_self]; rfl
  · rw [regionOf_setRegion_other _ _ (by decide), regionOf_setRegion_self]; rfl
  · rw [regionOf_setRegion_other _ _ (by decide), regionOf_setRegion_other _ _ (by decide), regionOf_setRegion_self]; rfl
  · rw [regionOf_setRegion_other _ _ (by decide), regionOf_setRegion_other _ _ (by decide), regionOf_setRegion_other _ _ (by decide), regionOf_setRegion_self]; rfl

theorem regionOf_baseRegions_other {n : Nat} (hn : 4 ≤ n) (s : State) : regionOf (baseRegions s) n = regionOf s n := by
  simp only [baseRegions, List.foldl_cons, List.foldl_nil, kvRegion, workRegion, textRegion, traceRegion]
  iterate 4 rw [regionOf_setRegion_other _ _ (by omega)]

/-! ### PWROK_FALL -/

theorem exec_pwrokFall {s : State} (h : s.pins.pwrok = true) : exec .pwrokFall s = .next (offState s) := by
  show execPwrokFall s = _
  exact if_pos h

/-! ### WARM_RST_N -/

theorem warmRegions_eq (s : State) : warmRegions s = { s with mem := { s.mem with regions := (warmRegions s).mem.regions } } := by
  unfold warmRegions
  split <;> rfl

theorem regionOf_warmRegions {s : State} (hnone : s.mem.regions = []) (n : Nat) :
    (regionOf (warmRegions s) n).st = if s.mem.nearTrained = true ∧ n < 4 then .active else .disabled := by
  have hreset (n : Nat) : (regionOf s n).st = .disabled := by rw [regionOf, hnone]; rfl
  unfold warmRegions
  by_cases htrained : s.mem.nearTrained = true
  · rw [if_pos htrained]
    by_cases hn : n < 4
    · rw [if_pos ⟨htrained, hn⟩, regionOf_baseRegions_device hn]
    · rw [if_neg fun h => hn h.2, regionOf_baseRegions_other (Nat.not_lt.1 hn), hreset]
  · rw [if_neg htrained, if_neg fun h => htrained h.1, hreset]

/-- What the drain of the write buffer leaves: its content is published, and what is trained and mapped stays. -/
theorem drainAll_memory (s : State) : ∃ m, drainAll s = { s with mem := m } ∧ m.wb = [] ∧ m.nearTrained = s.mem.nearTrained ∧ m.mapPorts = s.mem.mapPorts
    ∧ (s.mem.wb = [] → m.far = s.mem.far ∧ m.farPoison = s.mem.farPoison) := by
  refine ⟨(drainAll s).mem, ?_, ?_, ?_, ?_, fun h => ?_⟩
  · rw [drainAll_content]
  · rw [drainAll_content]
  · rw [drainAll_content]
  · rw [drainAll_content]
  · rw [drainAll, h]
    exact ⟨rfl, rfl⟩

theorem exec_warmRstN {s : State} (h : s.pins.pwrok = true) : exec .warmRstN s = .next (warmRegions (warmState s)) := by
  have hexec : exec .warmRstN s = finishCal s (calReset s.cal) (warmRegions (warmState s)) := if_pos h
  rw [hexec, warmRegions_eq, warmState, drainAll_content]
  rfl

end Sys2Proof.Machine

namespace Sys2Proof.Proofs

open Sys2Proof Sys2Proof.Machine

/-- PWROK_FALL (R488). -/
theorem powerFalls : Claims.PowerFalls :=
  fun s => ⟨fun hpwrok => ⟨_, exec_pwrokFall hpwrok, startCrews_onlyFailedUnits rfl, rfl⟩, fun hpwrok => if_neg (by rw [hpwrok]; exact Bool.false_ne_true)⟩

/-- WARM_RST_N (R488, R489): the write buffer is drained, and what is kept is then as it was. -/
theorem warmReset : Claims.WarmReset := by
  refine fun s => ⟨fun hpwrok => ⟨_, exec_warmRstN hpwrok, ?_⟩, fun hpwrok => if_neg (by rw [hpwrok]; exact Bool.false_ne_true)⟩
  obtain ⟨m, hdrain, -, hnear, hmap, hfar⟩ := drainAll_memory s
  have hregions := regionOf_warmRegions (s := warmState s) rfl
  have honly := startCrews_onlyFailedUnits (s := s) (t := warmRegions (warmState s)) (by rw [warmRegions_eq, warmState, hdrain]; rfl)
  rw [show (warmState s).mem.nearTrained = s.mem.nearTrained by rw [warmState, hdrain, hnear]] at hregions
  generalize hw : warmRegions (warmState s) = t at hregions honly
  rw [warmRegions_eq, warmState, hdrain] at hw
  subst hw
  exact ⟨honly, hpwrok, rfl, rfl, rfl, rfl, rfl, rfl, rfl, rfl, rfl, rfl, rfl, rfl, rfl, rfl, rfl, rfl, rfl, rfl, rfl, rfl, rfl, rfl, rfl, hnear, hmap, rfl,
    hregions, hfar, rfl, rfl, rfl, rfl, rfl, rfl, rfl, rfl, rfl, rfl, rfl, rfl, rfl, rfl, rfl⟩

/-- Settles O43. -/
theorem packageResets : Obligations.PackageResets := ⟨powerFalls, warmReset⟩

end Sys2Proof.Proofs
end

section
/-!
PROOFS. PERST_N and its release (R488, R489): the sequence of R489, one step at a time, where the event queue has room for the SENDER_RESET edges.
-/

namespace Sys2Proof.Machine

open Sys2Proof

/-! ### The steps of the sequence -/

/-- The package with its requests gone and its host port reset, its edges in the event queue and its write buffer drained. -/
def hostGone (s : State) : State := drainAll (ringSenderReset (resetHostPort (dropRequests s)))

/-- The host's objects, shell and regions are gone with it. -/
def hostCleared (s : State) : State := wakeDevice 3 (dropObjects (leaveShell (dropHostRegions s)))

/-- The end of the sequence: no activation, no drain, and the reset is counted. -/
def perstCounted (s : State) : State :=
  { s with
    boot := { s.boot with act := .idle, activating := false, ready := false, stage := if 7 ≤ s.boot.stage then 7 else s.boot.stage }
    gov := { s.gov with draining := false }
    clk := { s.clk with persts := saturate 0xFFFF (s.clk.persts + 1), cause := 2 } }

theorem perstSequence_eq (s : State) : perstSequence s = perstCounted (hostCleared (allReleased (hostGone s))) := by
  unfold perstSequence hostCleared allReleased hostGone
  rfl

theorem wakeDevice_gov (cause : Nat) (s : State) : wakeDevice cause s = { s with gov := (wakeDevice cause s).gov } := by
  unfold wakeDevice
  split <;> rfl

/-- s with other memory tiers. -/
def State.withMem (s : State) (m : MemTiers) : State := { s with mem := m }

theorem ringSenderReset_room {s : State} (hroom : s.boot.evq.length + 64 ≤ 4096) : ∃ b, ringSenderReset s = s.withBoot b := by
  obtain ⟨q, n, hring⟩ := foldl_latch_room (fun f => .doorbell f 31) (List.range 64) s (by rw [List.length_range]; exact hroom)
  exact ⟨_, hring⟩

/-- The first part of the sequence with room in the event queue: the boot state and the memory are all that is not named. -/
theorem hostGone_room {s : State} (hroom : s.boot.evq.length + 64 ≤ 4096) :
    ∃ b m, hostGone s = ((resetHostPort (dropRequests s)).withBoot b).withMem m ∧ m.wb = [] := by
  obtain ⟨b, hring⟩ := ringSenderReset_room (s := resetHostPort (dropRequests s)) hroom
  obtain ⟨m, hdrain, hwb, -⟩ := drainAll_memory ((resetHostPort (dropRequests s)).withBoot b)
  refine ⟨b, m, ?_, hwb⟩
  rw [hostGone, hring, hdrain]
  rfl

theorem wb_foldl_endConv (how : ConvEnd) (cs : List Conv) {s : State} (h : s.mem.wb = []) : (cs.foldl (endConv how) s).mem.wb = [] := by
  induction cs generalizing s with
  | nil => exact h
  | cons c cs ih => exact ih (congrArg (List.filter _) h)

/-- The release of every conversation leaves none. -/
theorem allReleased_convs (s : State) : (allReleased s).srv.convs = [] :=
  List.eq_nil_iff_forall_not_mem.2 fun _ hc =>
    have ⟨hmem, hothers⟩ := mem_convs_foldl_endConv .released s.srv.convs s hc
    hothers _ hmem ⟨rfl, rfl⟩

theorem allReleased_wb {s : State} (h : s.mem.wb = []) : (allReleased s).mem.wb = [] := wb_foldl_endConv .released s.srv.convs h

/-- What the release of conversations writes, where it leaves none. -/
def State.withoutConvs (s : State) (o : Objects) (m : MemTiers) (recent : List (Nat × Nat × ConvEnd)) (releasing : List Nat) : State :=
  { s with obj := o, mem := m, srv := { s.srv with convs := [], recent := recent, releasing := releasing } }

/-- The first part of the sequence and the release of the conversations. -/
theorem allReleased_room {s : State} (hroom : s.boot.evq.length + 64 ≤ 4096) :
    ∃ b o m recent releasing, allReleased (hostGone s) = ((resetHostPort (dropRequests s)).withBoot b).withoutConvs o m recent releasing ∧ m.wb = [] := by
  obtain ⟨b, m, hgone, hwb⟩ := hostGone_room hroom
  generalize resetHostPort (dropRequests s) = x at hgone ⊢
  have hconvs : ConvsOnly (hostGone s) (allReleased (hostGone s)) := convsOnly_foldl_endConv .released _ _
  have hnone := allReleased_convs (hostGone s)
  have hdrained : (allReleased (hostGone s)).mem.wb = [] := allReleased_wb (by rw [hgone]; exact hwb)
  generalize allReleased (hostGone s) = t at hconvs hnone hdrained
  refine ⟨b, t.obj, t.mem, t.srv.recent, t.srv.releasing, ?_, hdrained⟩
  rw [hgone] at hconvs
  rw [State.withoutConvs, ← hnone]
  exact hconvs

/-- Of a map's values each meets a condition that holds of the default, where each entry's value meets it. -/
theorem sgetD_of_forall {α : Type} {p : α → Prop} {m : Sparse α} {e : α} (he : p e) (hm : ∀ x ∈ m, p x.2) (a : Nat) : p (sgetD m a e) := by
  rw [sgetD]
  cases h : slookup m a with
  | none => exact he
  | some v => exact hm _ (mem_of_slookup m a v h)

/-- A region over host memory is out of use, with no near copy. -/
def Region.cutOff (r : Region) : Prop := r.tier = 2 → r.st = .disabled ∧ r.near = []

theorem dropHostRegions_cutOff {s : State} : ∀ x ∈ (dropHostRegions s).mem.regions, x.2.cutOff := by
  intro x hx
  obtain ⟨y, -, rfl⟩ := List.mem_map.1 hx
  dsimp only
  split
  · exact fun _ => ⟨rfl, rfl⟩
  · exact fun htier => absurd htier ‹_›

theorem regionOf_hostCleared (s : State) (n : Nat) : (regionOf (hostCleared s) n).cutOff := by
  have hmem : (hostCleared s).mem = (dropObjects (leaveShell (dropHostRegions s))).mem := by rw [hostCleared, wakeDevice_gov]
  rw [regionOf, hmem]
  refine sgetD_of_forall (p := Region.cutOff) (fun _ => ⟨rfl, rfl⟩) (fun x hx => ?_) n
  exact dropHostRegions_cutOff x (List.mem_filter.1 hx).1

theorem dropObjects_eq (s : State) : dropObjects s = { s with obj := { nextOid := s.obj.nextOid }, mem := (dropObjects s).mem } := rfl

/-- Clearing touches the net, the objects, the memory and the governor alone. -/
theorem hostCleared_eq (s : State) :
    ∃ m g, hostCleared s = { leaveShell s with obj := { nextOid := s.obj.nextOid }, mem := m, gov := g } := by
  rw [hostCleared, wakeDevice_gov, dropObjects_eq]
  exact ⟨_, _, rfl⟩

theorem hostCleared_wb {s : State} (h : s.mem.wb = []) : (hostCleared s).mem.wb = [] := by
  rw [hostCleared, wakeDevice_gov]
  show ((s.mem.wb.filter _).filter _) = []
  rw [h]
  rfl

theorem channelOf_resetHostPort {f : Nat} (hf : f < 64) (s : State) : channelOf (resetHostPort s) f = flushedChannel := by
  have hmbox : (resetHostPort s).mbox = (List.range 64).foldl (fun m f => sset m f flushedChannel) s.mbox := by
    simp only [resetHostPort]
  obtain ⟨_, h⟩ := sgetD_foldl_sset (fun _ _ => flushedChannel) {} s.mbox (List.mem_range.2 hf)
  rw [channelOf, hmbox, h]

/-- What PERST_N leaves of a package, but for its boot state, memory, governor, channels and the list of conversations that ended. -/
def hostLeft (s : State) (b : Boot) (m : MemTiers) (g : Gov) (mbox : Sparse Channel) (oid : Nat) (recent : List (Nat × Nat × ConvEnd)) (releasing : List Nat) :
    State :=
  { s with
    boot := b, mem := m, gov := g, mbox := mbox, dma := [], obj := { nextOid := oid }
    clk := { s.clk with persts := saturate 0xFFFF (s.clk.persts + 1), cause := 2 }
    net := (leaveShell s).net
    port := { s.port with
      fns := [], rings := [], alloc := [(0, 1024)], msix := [], streamAt := [], streamDue := [], vfEnable := false, numVfs := 0, trained := false }
    srv := { (dropRequests s).srv with convs := [], recent := recent, releasing := releasing } }

theorem resetHostPort_eq (s : State) : ∃ mbox, resetHostPort s = { s with
      port := { s.port with
        fns := [], rings := [], alloc := [(0, 1024)], msix := [], streamAt := [], streamDue := [], vfEnable := false, numVfs := 0, trained := false }
      mbox := mbox, dma := [] }
    ∧ ∀ f, f < 64 → sgetD mbox f {} = flushedChannel := by
  refine ⟨(resetHostPort s).mbox, ?_, fun _ hf => channelOf_resetHostPort hf s⟩
  simp only [resetHostPort]

theorem perstSequence_room {s : State} (hroom : s.boot.evq.length + 64 ≤ 4096) :
    ∃ b m g mbox oid recent releasing, perstSequence s = hostLeft s b m g mbox oid recent releasing
      ∧ b.ready = false ∧ m.wb = [] ∧ (∀ f, f < 64 → sgetD mbox f {} = flushedChannel) ∧ ∀ n, (sgetD m.regions n {}).cutOff := by
  obtain ⟨b, o, m, recent, releasing, hreleased, hwb⟩ := allReleased_room hroom
  obtain ⟨mbox, hport, hmbox⟩ := resetHostPort_eq (dropRequests s)
  have hdrained := hostCleared_wb (s := allReleased (hostGone s)) (by rw [hreleased]; exact hwb)
  have hregions := regionOf_hostCleared (allReleased (hostGone s))
  obtain ⟨m', g, hcleared⟩ := hostCleared_eq (allReleased (hostGone s))
  rw [hcleared] at hdrained hregions
  rw [perstSequence_eq, hcleared, hreleased, hport]
  exact ⟨_, m', _, mbox, _, recent, releasing, rfl, rfl, hdrained, hmbox, hregions⟩

/-! ### PERST_N_ASSERT -/

/-- The land driven low. -/
def landLow (s : State) : State := { s with pins := { s.pins with perstN := false } }

theorem exec_perstNAssert {s : State} (h : s.pins.perstN = true) :
    exec .perstNAssert s = finish s (if s.pins.pwrok && !s.clk.stopped then perstSequence (landLow s) else landLow s) := by
  show execPerstNAssert s = _
  exact if_pos h

end Sys2Proof.Machine

namespace Sys2Proof.Proofs

open Sys2Proof Sys2Proof.Machine

/-- Settles O44: the sequence ends the requests and the rings, then the conversations, then what else the host placed. -/
theorem hostReset : Obligations.HostReset := by
  refine ⟨fun s hland hpwrok hclocks hroom => ?_, fun s hland hoff => ?_, fun s hland => ?_, fun s => rfl⟩
  · obtain ⟨b, m, g, mbox, oid, recent, releasing, hleft, hready, hwb, hmbox, hregions⟩ := perstSequence_room (s := landLow s) hroom
    have hexec : exec .perstNAssert s = .next (hostLeft (landLow s) b m g mbox oid recent releasing) := by
      rw [exec_perstNAssert hland, hpwrok, hclocks, if_pos (by decide), hleft]
      rfl
    exact ⟨_, hexec, rfl, rfl, rfl, rfl, rfl, rfl, rfl, rfl, rfl, rfl, rfl, rfl, rfl, rfl, rfl, rfl, hmbox, rfl, rfl, rfl, hregions, hwb, rfl, rfl, rfl, rfl, rfl,
      hready⟩
  · rw [exec_perstNAssert hland, if_neg (by rcases hoff with h | h <;> simp [h])]
    rfl
  · show execPerstNAssert s = _
    rw [execPerstNAssert, if_neg (by rw [hland]; exact Bool.false_ne_true)]
    rfl

end Sys2Proof.Proofs
end

section
/-!
PROOFS. Start-up (R474, R502, R503): the boot stages from PWROK to near-memory training, with the errors that stop them, and what a stage command does
where the package is not at its stage.
-/

namespace Sys2Proof.Machine

open Sys2Proof

/-! ### Stages -/

theorem atStage_iff {n : Nat} {s : State} : atStage n s = true ↔ clocksRun s = true ∧ s.boot.stage = n ∧ s.boot.error = 0 := by
  simp [atStage, and_assoc]

/-- A mask with a bit below n has a lowest one. -/
theorem lowestBit_spec {mask n : Nat} (hlt : mask < 2 ^ n) (hne : mask ≠ 0) :
    hasBit mask (lowestBit mask n) = true ∧ ∀ k, k < lowestBit mask n → hasBit mask k = false := by
  have hbit : ∃ i, hasBit mask i = true := Nat.exists_testBit_of_ne_zero hne
  have hfind : (List.range n).find? (hasBit mask) = some (Nat.find hbit) := by
    refine List.find?_range_eq_some.2 ⟨Nat.find_spec hbit, List.mem_range.2 ?_, fun j hj => ?_⟩
    · exact Nat.lt_of_not_le fun hle => absurd (Nat.find_spec hbit) (by
        rw [hasBit, Nat.testBit_lt_two_pow (Nat.lt_of_lt_of_le hlt (Nat.pow_le_pow_right (by decide) hle))]
        exact Bool.false_ne_true)
    · simpa using Nat.find_min hbit hj
  rw [lowestBit, hfind]
  exact ⟨Nat.find_spec hbit, fun k hk => Bool.eq_false_iff.2 (Nat.find_min hbit hk)⟩

/-! ### PWROK_RISE and CLOCKS -/

theorem exec_pwrokRise {s : State} (h : s.pins.pwrok = false) (slew : BitVec 6) : exec (.pwrokRise slew) s = .next { s with
    pins := { s.pins with pwrok := true, slew := slew }
    boot := { s.boot with stage := 1 }
    clk := { spread := (bootCfg s).spread, cause := if s.flt.trip = none then 0 else 3 } } := by
  show execPwrokRise slew s = _
  rw [execPwrokRise, if_neg (by rw [h]; exact Bool.false_ne_true)]
  cases s.flt.trip <;> rfl

section
variable {s : State} {rails plls : Nat} (hstage : atStage 1 s = true)
include hstage

theorem exec_clocksDone_locked : exec (.clocksDone 0 0) s = .next { s with
    clk := { s.clk with rootLock := true, tbLock := true, spreadNow := s.clk.spread }
    boot := { s.boot with stage := 2 } } := by
  show execClocksDone 0 0 s = _
  rw [execClocksDone, if_pos (by decide), if_pos hstage]
  rfl

theorem exec_clocksDone_rails (hrails : rails < 2 ^ 16) (hplls : plls < 4) (hne : rails ≠ 0) :
    exec (.clocksDone rails plls) s = .next (bootError 0x01 (lowestBit rails 16) false s) := by
  show execClocksDone rails plls s = _
  rw [execClocksDone, if_pos ⟨hrails, hplls⟩, if_pos hstage, if_pos hne]
  rfl

theorem exec_clocksDone_plls (hplls : plls < 4) (hne : plls ≠ 0) : exec (.clocksDone 0 plls) s = .next (bootError 0x02 (lowestBit plls 2) false s) := by
  show execClocksDone 0 plls s = _
  rw [execClocksDone, if_pos ⟨by decide, hplls⟩, if_pos hstage, if_neg (by decide), if_pos hne]
  rfl

end

/-! ### AUTH -/

/-- The package at stage 3 with the image f of slot k running. -/
def firmwareLoaded (s : State) (k : Nat) (f : FwImage) : State :=
  { s with boot := { s.boot with stage := 3, fwMajor := f.major, fwMinor := f.minor, fwPatch := f.patch, activeSlot := k } }

theorem runFirmware_found {s : State} {k : Nat} {f : FwImage} (h : slookup s.boot.slots k = some f) :
    runFirmware k s = { s with boot := { s.boot with fwMajor := f.major, fwMinor := f.minor, fwPatch := f.patch, activeSlot := k } } := by
  rw [runFirmware, h]

section
variable {s : State} {refused : Nat} (hstage : atStage 2 s = true) (hrefused : refused < 4)
include hstage hrefused

theorem exec_authDone_first {f : FwImage} (hgood : slotGood s refused (bootCfg s).prefSlot = true)
    (hf : slookup s.boot.slots (bootCfg s).prefSlot = some f) : exec (.authDone refused) s = .next (firmwareLoaded s (bootCfg s).prefSlot f) := by
  show execAuthDone refused s = _
  rw [execAuthDone, if_pos hrefused, if_pos hstage]
  dsimp only
  rw [if_pos hgood, runFirmware_found hf]
  rfl

theorem exec_authDone_other {f : FwImage} (hbad : slotGood s refused (bootCfg s).prefSlot = false)
    (hgood : slotGood s refused (1 - (bootCfg s).prefSlot) = true) (hf : slookup s.boot.slots (1 - (bootCfg s).prefSlot) = some f) :
    exec (.authDone refused) s = .next (firmwareLoaded s (1 - (bootCfg s).prefSlot) f) := by
  show execAuthDone refused s = _
  rw [execAuthDone, if_pos hrefused, if_pos hstage]
  dsimp only
  rw [if_neg (by rw [hbad]; exact Bool.false_ne_true), if_pos hgood, runFirmware_found hf]
  rfl

theorem exec_authDone_neither (hbad : slotGood s refused (bootCfg s).prefSlot = false) (hworse : slotGood s refused (1 - (bootCfg s).prefSlot) = false) :
    exec (.authDone refused) s = .next (bootError 0x10 3 true s) := by
  show execAuthDone refused s = _
  rw [execAuthDone, if_pos hrefused, if_pos hstage]
  dsimp only
  rw [if_neg (by rw [hbad]; exact Bool.false_ne_true), if_neg (by rw [hworse]; exact Bool.false_ne_true)]
  rfl

end

/-! ### HUB -/

/-- The package after stage HUB, before a trip is logged. -/
def hubStarted (s : State) : State :=
  { s with
    boot := { s.boot with stage := 4 }
    flt := { s.flt with startups := saturate 0xFFFF (s.flt.startups + 1), trip := none }
    crews := startCrews s }

theorem tripRecord_fn (sensor temp : Nat) : 64 ≤ (tripRecord sensor temp).fn := by simp [tripRecord]

theorem exec_hubDone {s : State} (hstage : atStage 3 s = true) : exec .hubDone s = .next (match s.flt.trip with
    | some x => logRecord (tripRecord x.1 x.2) none (hubStarted s)
    | none => hubStarted s) := by
  have hexec : exec .hubDone s = finish s (match s.flt.trip with
      | some x => logRecord (tripRecord x.1 x.2) none (hubStarted s)
      | none => hubStarted s) := if_pos hstage
  rw [hexec]
  refine finish_of_kept ?_
  cases s.flt.trip with
  | none => exact ⟨rfl, rfl, rfl⟩
  | some x =>
    dsimp only
    rw [logRecord_logOnly (tripRecord_fn _ _)]
    exact ⟨rfl, rfl, rfl⟩

/-! ### NEAR_TRAIN -/

/-- The memory tiers with every stack trained. -/
def MemTiers.trained (m : MemTiers) : MemTiers := { m with nearTrained := true }

theorem trained_regions (m : MemTiers) : m.trained.regions = m.regions := rfl

/-- The package with every stack trained. -/
def nearTrained (s : State) : State :=
  { markTrained s with
    mem := (baseRegions (markTrained s)).mem.trained
    clk := { s.clk with hbmLock := 2 ^ Config.stackCount s.part - 1 }
    gov := { (markTrained s).gov with corr := startCorr (markTrained s) }
    boot := { s.boot with stage := 5, dummy := true } }

theorem nearTrained_mem (s : State) : (nearTrained s).mem = (baseRegions (markTrained s)).mem.trained := by rw [nearTrained]

/-- Training puts the regions of every package in use, and touches no other. -/
theorem regionOf_nearTrained (s : State) (n : Nat) : regionOf (nearTrained s) n = regionOf (baseRegions (markTrained s)) n := by
  rw [regionOf, regionOf, nearTrained_mem, trained_regions]

theorem regionOf_markTrained (s : State) (n : Nat) : regionOf (markTrained s) n = regionOf s n := rfl

/-- HEALTH where a stack has failed: LEVEL is 2 whatever the crews (R473, R503). -/
def stackHealth (s : State) : State := computeHealth { s with boot := { s.boot with stackFailed := true } }

theorem stackHealth_level (s : State) : (stackHealth s).boot.level = 2 := if_pos (by simp)

section
variable {s : State} (hstage : atStage 4 s = true)
include hstage

theorem exec_nearTrainDone_all : exec (.nearTrainDone 0) s = .next (nearTrained s) := by
  show execNearTrainDone 0 s = _
  rw [execNearTrainDone, if_pos (Nat.two_pow_pos _), if_pos hstage, if_neg (by decide)]
  rfl

theorem exec_nearTrainDone_failed {k : Nat} (hk : k < 2 ^ Config.stackCount s.part) (hne : k ≠ 0) :
    exec (.nearTrainDone k) s = .next (bootError 0x20 k true (stackHealth s)) := by
  show execNearTrainDone k s = _
  rw [execNearTrainDone, if_pos hk, if_pos hstage, if_pos hne]
  rfl

end

end Sys2Proof.Machine

namespace Sys2Proof.Proofs

open Sys2Proof Sys2Proof.Machine

section
variable {s : State}

theorem clocksStage (hstage : atStage 1 s = true) :
    (∃ t, exec (.clocksDone 0 0) s = .next t ∧ t.boot = { s.boot with stage := 2 } ∧ t.clk.rootLock = true ∧ t.clk.tbLock = true)
    ∧ (∀ rails plls, rails < 2 ^ 16 → plls < 4 → rails ≠ 0 → ∃ t, exec (.clocksDone rails plls) s = .next t ∧ t.boot.stage = 1 ∧ t.boot.error = 1
        ∧ hasBit rails t.boot.detail = true ∧ (∀ k, k < t.boot.detail → hasBit rails k = false) ∧ t.port.trained = false)
    ∧ (∀ plls, plls < 4 → plls ≠ 0 → ∃ t, exec (.clocksDone 0 plls) s = .next t ∧ t.boot.stage = 1 ∧ t.boot.error = 2 ∧ hasBit plls t.boot.detail = true
        ∧ (∀ k, k < t.boot.detail → hasBit plls k = false) ∧ t.port.trained = false) := by
  obtain ⟨-, hat, -⟩ := atStage_iff.1 hstage
  refine ⟨⟨_, exec_clocksDone_locked hstage, rfl, rfl, rfl⟩, fun rails plls hrails hplls hne => ?_, fun plls hplls hne => ?_⟩
  · obtain ⟨hset, hlowest⟩ := lowestBit_spec hrails hne
    exact ⟨_, exec_clocksDone_rails hstage hrails hplls hne, hat, rfl, hset, hlowest, rfl⟩
  · obtain ⟨hset, hlowest⟩ := lowestBit_spec (n := 2) hplls hne
    exact ⟨_, exec_clocksDone_plls hstage hplls hne, hat, rfl, hset, hlowest, rfl⟩

theorem hubStage (hstage : atStage 3 s = true) :
    ∃ t, exec .hubDone s = .next t ∧ t.boot = { s.boot with stage := 4 } ∧ t.flt.startups = min 0xFFFF (s.flt.startups + 1) ∧ t.flt.trip = none
      ∧ (∀ x, s.flt.trip = some x → Claims.recorded s t (fun r => r.code = 0x60 ∧ r.cls = 3 ∧ r.detail0 = x.1 ∧ r.detail1 = x.2)) := by
  refine ⟨_, exec_hubDone hstage, ?_⟩
  cases htrip : s.flt.trip with
  | none => exact ⟨rfl, rfl, rfl, nofun⟩
  | some x =>
    have hnewest := logRecord_newestIs (tripRecord_fn x.1 x.2) none (hubStarted s)
    have honly := logRecord_logOnly (tripRecord_fn x.1 x.2) none (hubStarted s)
    refine ⟨(congrArg State.boot honly :), (congrArg (·.flt.startups) honly :), (congrArg (·.flt.trip) honly :), ?_⟩
    rintro _ ⟨⟩
    exact hnewest.recorded rfl rfl fun _ _ _ _ _ => ⟨rfl, rfl, rfl, rfl⟩

theorem nearStage (hstage : atStage 4 s = true) :
    (∃ t, exec (.nearTrainDone 0) s = .next t ∧ t.boot = { s.boot with stage := 5, dummy := true } ∧ t.mem.nearTrained = true
      ∧ (∀ n, n < 4 → (regionOf t n).st = .active) ∧ (∀ n, 4 ≤ n → regionOf t n = regionOf s n) ∧ t.srv = s.srv)
    ∧ ∀ k, k ≠ 0 → k < 2 ^ Config.stackCount s.part → ∃ t, exec (.nearTrainDone k) s = .next t ∧ t.boot.stage = 4 ∧ t.boot.error = 0x20 ∧ t.boot.detail = k
        ∧ t.boot.level = 2 ∧ t.boot.recovery = true ∧ t.mem = s.mem := by
  obtain ⟨-, hat, -⟩ := atStage_iff.1 hstage
  refine ⟨⟨_, exec_nearTrainDone_all hstage, rfl, rfl, fun n hn => ?_, fun n hn => ?_, rfl⟩,
    fun k hne hk => ⟨_, exec_nearTrainDone_failed hstage hk hne, hat, rfl, rfl, stackHealth_level s, rfl, rfl⟩⟩
  · rw [regionOf_nearTrained, regionOf_baseRegions_device hn]
  · rw [regionOf_nearTrained, regionOf_baseRegions_other hn, regionOf_markTrained]

end

/-- The boot stages of R502 with the errors of R503. -/
theorem bootStages : Claims.BootStages := by
  refine fun s => ⟨fun hpwrok slew => exec_pwrokRise hpwrok slew, clocksStage, fun hstage refused hrefused => ⟨?_, ?_⟩, hubStage, nearStage⟩
  · rintro k f (⟨rfl, hgood⟩ | ⟨rfl, hbad, hgood⟩) hf
    · exact exec_authDone_first hstage hrefused hgood hf
    · exact exec_authDone_other hstage hrefused hbad hgood hf
  · intro hbad hworse
    exact ⟨_, exec_authDone_neither hstage hrefused hbad hworse, (atStage_iff.1 hstage).2.1, rfl, rfl, rfl, rfl⟩

end Sys2Proof.Proofs
end

section
/-!
PROOFS. The end of start-up (R345, R346, R502): the far-memory ports train in turn, and a stage command that is not due changes nothing.
-/

namespace Sys2Proof.Machine

open Sys2Proof

/-! ### Ports that train together (R345) -/

/-- A port once it has trained to an expander. -/
def FarPort.found (x : Expander) (f : FarPort) : FarPort :=
  if f.enable then
    { f with
      capacityGib := x.capacityGib, reject := rejectCode x, width := if x.widthX16 then 2 else 1
      rate := if x.rate64 && f.maxRate == 0 then 2 else 1, serving := rejectCode x == 0 && keepsData x, linkUp := true, serial := x.serial
      retraining := false, timeouts := 0 }
  else f

theorem farPortOf_portFound_self (p : Nat) (x : Expander) (s : State) : farPortOf (portFound p x s) p = (farPortOf s p).found x := by
  by_cases h : (farPortOf s p).enable = true
  · rw [portFound_eq h, farPortOf_setFarPort_self, FarPort.found, if_pos h]
  · rw [FarPort.found, if_neg h, portFound]
    simp [h]

theorem farPortOf_setFarPort_other (s : State) (f : FarPort) {p m : Nat} (h : m ≠ p) : farPortOf (setFarPort s p f) m = farPortOf s m :=
  sgetD_sset_other _ _ _ _ _ h

theorem farPortOf_portFound_other {p m : Nat} (h : m ≠ p) (x : Expander) (s : State) : farPortOf (portFound p x s) m = farPortOf s m := by
  unfold portFound
  dsimp only
  split
  · rfl
  · exact farPortOf_setFarPort_other _ _ h

/-- t is s but for its far-memory ports. -/
def PortsOnly (s t : State) : Prop := t = { s with mem := { s.mem with ports := t.mem.ports } }

theorem portFound_portsOnly (p : Nat) (x : Expander) (s : State) : PortsOnly s (portFound p x s) := by
  unfold portFound
  dsimp only
  split <;> rfl

theorem PortsOnly.trans {s t u : State} (a : PortsOnly s t) (b : PortsOnly t u) : PortsOnly s u := by
  unfold PortsOnly at *
  rw [b, a]

/-- The ports of a list train one after the other. -/
def portsFound (xs : List (Nat × Expander)) (s : State) : State := xs.foldl (fun t x => portFound x.1 x.2 t) s

theorem portsFound_portsOnly (xs : List (Nat × Expander)) (s : State) : PortsOnly s (portsFound xs s) :=
  List.foldlRecOn (motive := PortsOnly s) xs _ rfl fun _ ht x _ => ht.trans (portFound_portsOnly x.1 x.2 _)

theorem farPortOf_portsFound_other {p : Nat} (xs : List (Nat × Expander)) (hp : p ∉ xs.map Prod.fst) (s : State) :
    farPortOf (portsFound xs s) p = farPortOf s p := by
  induction xs generalizing s with
  | nil => rfl
  | cons y xs ih =>
    rw [List.map_cons, List.mem_cons, not_or] at hp
    exact (ih hp.2 _).trans (farPortOf_portFound_other hp.1 _ _)

/-- A port that stands in the list once trains to its expander. -/
theorem farPortOf_portsFound_mem {p : Nat} {x : Expander} (xs : List (Nat × Expander)) (hx : (p, x) ∈ xs) (hnodup : (xs.map Prod.fst).Nodup) (s : State) :
    farPortOf (portsFound xs s) p = (farPortOf s p).found x := by
  induction xs generalizing s with
  | nil => cases hx
  | cons y xs ih =>
    rw [List.map_cons, List.nodup_cons] at hnodup
    obtain ⟨hnew, hnodup⟩ := hnodup
    show farPortOf (portsFound xs (portFound y.1 y.2 s)) p = _
    obtain rfl | hx := List.mem_cons.1 hx
    · rw [farPortOf_portsFound_other xs hnew, farPortOf_portFound_self]
    · have hother : p ≠ y.1 := fun h => hnew (h ▸ List.mem_map_of_mem hx)
      rw [ih hx hnodup, farPortOf_portFound_other hother]

/-- A port before it trains: only what FMP_CTL sets is left of it. -/
def FarPort.cleared (f : FarPort) : FarPort := { maxRate := f.maxRate, enable := f.enable }

def portsCleared (s : State) : State := { s with mem := { s.mem with ports := s.mem.ports.map (fun x => (x.1, x.2.cleared)) } }

theorem farPortOf_portsCleared (s : State) (p : Nat) : farPortOf (portsCleared s) p = (farPortOf s p).cleared := by
  have hports : slookup (portsCleared s).mem.ports p = (slookup s.mem.ports p).map FarPort.cleared := slookup_mapValues FarPort.cleared s.mem.ports p
  rw [farPortOf, sgetD, hports, farPortOf, sgetD]
  cases slookup s.mem.ports p <;> rfl

/-! ### FAR_MEMORY and READY -/

/-- The package after stage FAR_MEMORY. -/
def farTrained (xs : List (Nat × Expander)) (s : State) : State :=
  let t := buildMap (portsFound xs (portsCleared s))
  { t with boot := { t.boot with stage := 7, published := true } }

theorem farTrained_eq (xs : List (Nat × Expander)) (s : State) :
    farTrained xs s = { s with mem := (farTrained xs s).mem, boot := { s.boot with stage := 7, published := true } } := by
  have hports := portsFound_portsOnly xs (portsCleared s)
  generalize hfound : portsFound xs (portsCleared s) = t at hports
  rw [farTrained, hfound, hports]
  rfl

section
variable {s : State} {xs : List (Nat × Expander)}

theorem exec_farMemoryDone (hstage : atStage 6 s = true) (hxs : ∀ x ∈ xs, x.1 < Config.farPorts s.part) :
    exec (.farMemoryDone xs) s = .next (farTrained xs s) := by
  have hexec : exec (.farMemoryDone xs) s = finish s (farTrained xs s) := by
    show execFarMemoryDone xs s = _
    rw [execFarMemoryDone, if_pos (by simpa using hxs), if_pos hstage]
    rfl
  rw [hexec]
  refine finish_of_kept ?_
  rw [farTrained_eq]
  exact ⟨rfl, rfl, rfl⟩

theorem farPortOf_farTrained (p : Nat) : farPortOf (farTrained xs s) p = farPortOf (portsFound xs (portsCleared s)) p := rfl

/-- A listed port that is enabled trains to its expander. -/
theorem farPortOf_farTrained_enabled {p : Nat} {x : Expander} (hx : (p, x) ∈ xs) (hnodup : (xs.map Prod.fst).Nodup) (henabled : (farPortOf s p).enable = true) :
    (farPortOf (farTrained xs s) p).linkUp = true ∧ (farPortOf (farTrained xs s) p).capacityGib = x.capacityGib
      ∧ (farPortOf (farTrained xs s) p).serial = x.serial ∧ (farPortOf (farTrained xs s) p).reject = Claims.rejectOf x
      ∧ ((farPortOf (farTrained xs s) p).serving = true ↔ Claims.meets x) := by
  have hfound : (farPortOf s p).cleared.enable = true := henabled
  rw [farPortOf_farTrained, farPortOf_portsFound_mem xs hx hnodup, farPortOf_portsCleared, FarPort.found, if_pos hfound]
  exact ⟨rfl, rfl, rfl, rejectCode_eq x, serves_iff_meets x⟩

/-- A port serves where it trained to an expander that meets R345, and no other does. -/
theorem serving_farTrained (hnodup : (xs.map Prod.fst).Nodup) (p : Nat) :
    (farPortOf (farTrained xs s) p).serving = true ↔ ∃ x, (p, x) ∈ xs ∧ (farPortOf s p).enable = true ∧ Claims.meets x := by
  constructor
  · intro hserving
    by_cases hp : p ∈ xs.map Prod.fst
    · obtain ⟨⟨_, x⟩, hx, rfl⟩ := List.mem_map.1 hp
      rw [farPortOf_farTrained, farPortOf_portsFound_mem xs hx hnodup, farPortOf_portsCleared, FarPort.found] at hserving
      split at hserving
      next henabled => exact ⟨x, hx, henabled, (serves_iff_meets x).1 hserving⟩
      next => exact absurd hserving Bool.false_ne_true
    · rw [farPortOf_farTrained, farPortOf_portsFound_other xs hp, farPortOf_portsCleared] at hserving
      exact absurd hserving Bool.false_ne_true
  · rintro ⟨x, hx, henabled, hmeets⟩
    obtain ⟨-, -, -, -, hserves⟩ := farPortOf_farTrained_enabled hx hnodup henabled
    exact hserves.2 hmeets

/-- The map is built of the serving ports and no other (R346). -/
theorem mem_mapPorts_farTrained (hxs : ∀ x ∈ xs, x.1 < Config.farPorts s.part) (hnodup : (xs.map Prod.fst).Nodup) (p : Nat) :
    p ∈ (farTrained xs s).mem.mapPorts ↔ ∃ x, (p, x) ∈ xs ∧ (farPortOf s p).enable = true ∧ Claims.meets x := by
  have hmap : (farTrained xs s).mem.mapPorts = servingPorts (portsFound xs (portsCleared s)) := rfl
  have hpart : (portsFound xs (portsCleared s)).part = s.part := by rw [portsFound_portsOnly]; rfl
  rw [hmap, mem_servingPorts, hpart, ← farPortOf_farTrained, serving_farTrained hnodup, and_iff_right_iff_imp]
  rintro ⟨x, hx, -⟩
  exact hxs _ hx

end

theorem exec_ready {s : State} (hstage : atStage 7 s = true) (hpublished : s.boot.published = true) (hland : s.pins.perstN = true) :
    exec .ready s = .next { s with boot := { s.boot with stage := 0x0F, ready := true }, port := { s.port with trained := true } } := by
  show execReady s = _
  rw [execReady, hstage, hpublished, hland]
  rfl

end Sys2Proof.Machine

namespace Sys2Proof.Proofs

open Sys2Proof Sys2Proof.Machine

/-- FAR_MEMORY and READY (R502). -/
theorem bootEnds : Claims.BootEnds := by
  refine fun s => ⟨fun xs hstage hxs hnodup => ?_, fun hstage hpublished hland => exec_ready hstage hpublished hland⟩
  refine ⟨_, exec_farMemoryDone hstage hxs, ?_, rfl, mem_mapPorts_farTrained hxs hnodup,
    fun p x hx henabled => farPortOf_farTrained_enabled hx hnodup henabled, ?_⟩
  · rw [farTrained_eq]
  · rw [farTrained_eq]

/-- A boot command that is not due (R502). -/
theorem bootWaits : Claims.BootWaits := by
  refine fun s => ⟨fun hpwrok slew => ?_, fun rails plls hrails hplls hstage => ?_, fun refused hrefused hstage => ?_, fun hstage => ?_, fun k hk hstage => ?_,
    fun cores srams hcores hsrams hstage => ?_, fun xs hxs hstage => ?_, fun hstage => ?_⟩
  · exact if_pos hpwrok
  · show execClocksDone rails plls s = _
    rw [execClocksDone, if_pos ⟨hrails, hplls⟩, hstage]
    rfl
  · show execAuthDone refused s = _
    rw [execAuthDone, if_pos hrefused, hstage]
    rfl
  · show execHubDone s = _
    rw [execHubDone, hstage]
    rfl
  · show execNearTrainDone k s = _
    rw [execNearTrainDone, if_pos hk, hstage]
    rfl
  · show execArrayTestDone cores srams s = _
    rw [execArrayTestDone, if_pos (by simpa using ⟨hcores, hsrams⟩), hstage]
    rfl
  · show execFarMemoryDone xs s = _
    rw [execFarMemoryDone, if_pos (by simpa using hxs), hstage]
    rfl
  · show execReady s = _
    rw [execReady, if_neg (by rcases hstage with h | h | h <;> simp [h])]
    rfl

end Sys2Proof.Proofs
end

section
/-!
PROOFS. ARRAY_TEST (R26, R472 to R474, R502): the units that fail are FAILED, each crew chooses its cores afresh, and the records that follow change no crew.
-/

namespace Sys2Proof.Machine

open Sys2Proof

/-! ### Bits of a mask -/

/-- A power of two added at a clear bit carries into no other. -/
theorem testBit_add_two_pow_other {m n k : Nat} (hclear : m.testBit n = false) (h : k ≠ n) : (m + 2 ^ n).testBit k = m.testBit k := by
  obtain hlt | hgt := Nat.lt_or_gt_of_ne h
  · rw [Nat.add_comm, Nat.testBit_two_pow_add_gt hlt]
  · obtain ⟨j, rfl⟩ := Nat.exists_eq_add_of_lt hgt
    have hpow : 2 ^ n < 2 ^ (n + 1) := Nat.pow_lt_pow_right (by decide) (Nat.lt_succ_self n)
    have hdouble : 2 ^ (n + 1) = 2 * 2 ^ n := Nat.pow_succ'
    have hlow : m % 2 ^ (n + 1) < 2 ^ n := by
      have hbit : m / 2 ^ n % 2 = 0 := by simpa [Nat.testBit_eq_decide_div_mod_eq] using hclear
      rw [Nat.mod_pow_succ, hbit, Nat.mul_zero, Nat.add_zero]
      exact Nat.mod_lt _ (Nat.two_pow_pos n)
    have hdiv : (m + 2 ^ n) / 2 ^ (n + 1) = m / 2 ^ (n + 1) := by
      rw [Nat.add_div_eq_of_add_mod_lt (by rw [Nat.mod_eq_of_lt hpow]; omega), Nat.div_eq_of_lt hpow, Nat.add_zero]
    rw [show n + j + 1 = j + (n + 1) by omega, Nat.testBit_add, hdiv, ← Nat.testBit_add]

theorem hasBit_setBit_other {n k : Nat} (m : Nat) (h : k ≠ n) : hasBit (setBit m n) k = hasBit m k := by
  unfold hasBit setBit
  split
  next => rfl
  next hclear => exact testBit_add_two_pow_other (Bool.eq_false_iff.2 hclear) h

theorem hasBit_setBit_mono {m k : Nat} (h : hasBit m k = true) (n : Nat) : hasBit (setBit m n) k = true := by
  by_cases hk : k = n
  · rw [hk, hasBit_setBit]
  · rw [hasBit_setBit_other m hk, h]

theorem hasBit_foldl_setBit (l : List Nat) (m k : Nat) : hasBit (l.foldl setBit m) k = (hasBit m k || decide (k ∈ l)) := by
  induction l generalizing m with
  | nil => simp
  | cons n l ih =>
    rw [List.foldl_cons, ih]
    by_cases hk : k = n
    · simp [hk, hasBit_setBit]
    · simp [hk, hasBit_setBit_other m hk]

/-! ### A crew that chooses its cores afresh (R26, R474) -/

/-- The cores of a crew that are not FAILED. -/
def goodCores (c : Crew) : List Nat := coreNumbers.filter (fun k => !hasBit c.failed k)

theorem mem_goodCores {c : Crew} {k : Nat} : k ∈ goodCores c ↔ k < 9 ∧ hasBit c.failed k = false := by
  simp [goodCores, coreNumbers]

theorem goodCores_length {c : Crew} : (goodCores c).length = 9 ↔ ∀ k, k < 9 → hasBit c.failed k = false := by
  have hnine : coreNumbers.length = 9 := rfl
  rw [goodCores, ← hnine, List.length_filter_eq_length_iff]
  simp [coreNumbers]

/-- Nine good cores: core 8 is the spare. -/
theorem freshCrew_full {c : Crew} (h : ∀ k, k < 9 → hasBit c.failed k = false) : freshCrew c = { c with active := 0xFF, spare := 8 } := by
  have hgood : goodCores c = coreNumbers := List.filter_eq_self.2 fun k hk => by rw [h k (List.mem_range.1 hk)]; rfl
  have hall : clearBit ((goodCores c).foldl setBit 0) 8 = 0xFF := by rw [hgood]; decide
  have hfresh : freshCrew c = { c with active := clearBit ((goodCores c).foldl setBit 0) 8, spare := 8 } := if_pos (goodCores_length.2 h)
  rw [hfresh, hall]

/-- Fewer: all of them are active, with no spare. -/
theorem freshCrew_short {c : Crew} (h : ∃ k, k < 9 ∧ hasBit c.failed k = true) :
    freshCrew c = { c with active := (goodCores c).foldl setBit 0, spare := 15 } := by
  obtain ⟨k, hk, hfailed⟩ := h
  refine if_neg fun hlength => ?_
  rw [goodCores_length.1 hlength k hk] at hfailed
  exact Bool.false_ne_true hfailed

/-- The failed units and the choice that a crew made of the others. -/
structure ChosenFresh (c : Crew) : Prop where
  noneFailed (k : Nat) (hk : k < 9) (h : hasBit c.failed k = true) : hasBit c.active k = false
  full (h : ∀ k, k < 9 → hasBit c.failed k = false) : c.active = 0xFF ∧ c.spare = 8
  short (h : ∃ k, k < 9 ∧ hasBit c.failed k = true) : c.spare = 15 ∧ ∀ k, k < 9 → hasBit c.failed k = false → hasBit c.active k = true

theorem freshCrew_chosenFresh (c : Crew) : ChosenFresh (freshCrew c) := by
  by_cases h : ∃ k, k < 9 ∧ hasBit c.failed k = true
  · rw [freshCrew_short h]
    refine ⟨fun k _ hfailed => ?_, fun hnone => ?_, fun _ => ⟨rfl, fun k hk hgood => ?_⟩⟩
    · simp only at hfailed
      rw [hasBit_foldl_setBit, decide_eq_false (by simp [mem_goodCores, hfailed]), Bool.or_false]
      exact Nat.zero_testBit k
    · obtain ⟨k, hk, hfailed⟩ := h
      exact absurd (hnone k hk) (by simp [hfailed])
    · simp only at hgood
      simp [hasBit_foldl_setBit, mem_goodCores, hk, hgood]
  · have hnone : ∀ k, k < 9 → hasBit c.failed k = false := by simpa using h
    rw [freshCrew_full hnone]
    exact ⟨fun k hk hfailed => absurd (hnone k hk) (by simp [show hasBit c.failed k = true from hfailed]), fun _ => ⟨rfl, rfl⟩, fun hsome => absurd hsome h⟩

theorem freshCrew_failed (c : Crew) : (freshCrew c).failed = c.failed ∧ (freshCrew c).sramFailed = c.sramFailed := by
  rw [freshCrew_eq]
  exact ⟨rfl, rfl⟩

/-! ### The steps of the test -/

/-- t is s but for its crews. -/
def CrewsOnly (s t : State) : Prop := t = { s with crews := t.crews }

theorem CrewsOnly.trans {s t u : State} (a : CrewsOnly s t) (b : CrewsOnly t u) : CrewsOnly s u := by
  unfold CrewsOnly at *
  rw [b, a]

theorem CrewsOnly.foldl {α : Type} {f : State → α → State} (h : ∀ t x, CrewsOnly t (f t x)) (l : List α) (s : State) : CrewsOnly s (l.foldl f s) :=
  List.foldlRecOn (motive := CrewsOnly s) l f rfl fun t ht x _ => ht.trans (h t x)

theorem setCrew_crewsOnly (s : State) (n : Nat) (c : Crew) : CrewsOnly s (setCrew s n c) := rfl

/-- What was FAILED stays so. -/
structure KeepsFailed (s t : State) : Prop where
  core {c k : Nat} (h : hasBit (crewOf s c).failed k = true) : hasBit (crewOf t c).failed k = true
  sram {c : Nat} (h : (crewOf s c).sramFailed = true) : (crewOf t c).sramFailed = true

theorem KeepsFailed.foldl {α : Type} {f : State → α → State} (h : ∀ t x, KeepsFailed t (f t x)) (l : List α) (s : State) : KeepsFailed s (l.foldl f s) :=
  List.foldlRecOn (motive := KeepsFailed s) l f ⟨id, id⟩ fun t ht x _ =>
    ⟨fun hc => (h t x).core (ht.core hc), fun hc => (h t x).sram (ht.sram hc)⟩

theorem setCrew_keepsFailed {s : State} {n : Nat} {x : Crew} (hcore : ∀ k, hasBit (crewOf s n).failed k = true → hasBit x.failed k = true)
    (hsram : (crewOf s n).sramFailed = true → x.sramFailed = true) : KeepsFailed s (setCrew s n x) where
  core {c k} h := by
    by_cases hc : c = n
    · subst hc
      rw [crewOf_setCrew_self]
      exact hcore k h
    · rwa [crewOf_setCrew_other _ _ _ _ hc]
  sram {c} h := by
    by_cases hc : c = n
    · subst hc
      rw [crewOf_setCrew_self]
      exact hsram h
    · rwa [crewOf_setCrew_other _ _ _ _ hc]

theorem failCore_keepsFailed (s : State) (n : Nat) : KeepsFailed s (failCore s n) :=
  setCrew_keepsFailed (fun _ h => hasBit_setBit_mono h _) id

theorem failed_failCore (s : State) (n : Nat) : hasBit (crewOf (failCore s n) (n / 9)).failed (n % 9) = true := by
  rw [failCore, crewOf_setCrew_self]
  exact hasBit_setBit _ _

/-- The SRAM of a crew fails for good. -/
def failSram (s : State) (c : Nat) : State := setCrew s c { crewOf s c with sramFailed := true }

theorem failSram_keepsFailed (s : State) (c : Nat) : KeepsFailed s (failSram s c) := setCrew_keepsFailed (fun _ h => h) fun _ => rfl

theorem sramFailed_failSram (s : State) (c : Nat) : (crewOf (failSram s c) c).sramFailed = true := by rw [failSram, crewOf_setCrew_self]

/-- Of a fold that keeps what each step brings about, each element's is there at the end. -/
theorem foldl_forall_mem {α : Type} {f : State → α → State} {p : α → State → Prop} (hstep : ∀ t x, p x (f t x)) (hkeep : ∀ t x y, p y t → p y (f t x))
    (l : List α) (s : State) : ∀ x ∈ l, p x (l.foldl f s) := by
  induction l generalizing s with
  | nil => nofun
  | cons y l ih =>
    intro x hx
    obtain rfl | hx := List.mem_cons.1 hx
    · exact List.foldlRecOn (motive := p x) l f (hstep s x) fun t ht z _ => hkeep t z x ht
    · exact ih (f s y) x hx

/-- Each crew of a range is replaced by what a function makes of it. -/
theorem crewOf_foldl_range (f : Crew → Crew) (n c : Nat) (s : State) :
    crewOf ((List.range n).foldl (fun t c => setCrew t c (f (crewOf t c))) s) c = if c < n then f (crewOf s c) else crewOf s c := by
  induction n with
  | zero => rfl
  | succ n ih =>
    rw [List.range_succ, List.foldl_append, List.foldl_cons, List.foldl_nil]
    by_cases hc : c = n
    · subst hc
      rw [crewOf_setCrew_self, ih, if_neg (Nat.lt_irrefl c), if_pos (Nat.lt_succ_self c)]
    · rw [crewOf_setCrew_other _ _ _ _ hc, ih]
      exact if_congr (by omega) rfl rfl

/-! ### The records of the test -/

theorem LogOnly.refl (s : State) : LogOnly s s := rfl

theorem LogOnly.trans {s t u : State} (a : LogOnly s t) (b : LogOnly t u) : LogOnly s u := by
  unfold LogOnly at *
  rw [b, a]

/-- Records that name no function, written one after the other. -/
theorem foldl_logRecord_logOnly {α : Type} {r : State → α → ErrRec} (hfn : ∀ t x, 64 ≤ (r t x).fn) (l : List α) (s : State) :
    LogOnly s (l.foldl (fun t x => logRecord (r t x) none t) s) :=
  List.foldlRecOn (motive := LogOnly s) l _ (LogOnly.refl s) fun t ht x _ => ht.trans (logRecord_logOnly (hfn t x) none t)

theorem computeHealth_rest (s : State) : ∃ b, computeHealth s = s.withBoot b ∧ b.dummy = s.boot.dummy := ⟨_, rfl, rfl⟩

/-- The package with the units of a test FAILED. -/
def unitsFailed (cores srams : List Nat) (s : State) : State := srams.foldl failSram (cores.foldl failCore s)

/-- Each crew has chosen its cores afresh. -/
def crewsChosen (s : State) : State := (crewList s).foldl (fun t c => setCrew t c (freshCrew (crewOf t c))) s

theorem unitsFailed_crewsOnly (cores srams : List Nat) (s : State) : CrewsOnly s (unitsFailed cores srams s) :=
  (CrewsOnly.foldl (fun _ _ => setCrew_crewsOnly _ _ _) cores s).trans (CrewsOnly.foldl (fun _ _ => setCrew_crewsOnly _ _ _) srams _)

theorem crewsChosen_crewsOnly (s : State) : CrewsOnly s (crewsChosen s) := CrewsOnly.foldl (fun _ _ => setCrew_crewsOnly _ _ _) _ s

theorem unitsFailed_core {cores : List Nat} (srams : List Nat) (s : State) {n : Nat} (hn : n ∈ cores) :
    hasBit (crewOf (unitsFailed cores srams s) (n / 9)).failed (n % 9) = true :=
  (KeepsFailed.foldl failSram_keepsFailed srams _).core
    (foldl_forall_mem (p := fun n t => hasBit (crewOf t (n / 9)).failed (n % 9) = true) failed_failCore
      (fun t x _ h => (failCore_keepsFailed t x).core h) cores s n hn)

theorem unitsFailed_sram (cores : List Nat) {srams : List Nat} (s : State) {c : Nat} (hc : c ∈ srams) :
    (crewOf (unitsFailed cores srams s) c).sramFailed = true :=
  foldl_forall_mem (p := fun c t => (crewOf t c).sramFailed = true) sramFailed_failSram (fun t x _ h => (failSram_keepsFailed t x).sram h) srams _ c hc

theorem crewOf_crewsChosen {s : State} {c : Nat} (hc : c < Config.crews s.part) : crewOf (crewsChosen s) c = freshCrew (crewOf s c) := by
  rw [crewsChosen, crewList, crewOf_foldl_range, if_pos hc]

/-- The records of a test: the cores that fail, then the crews that this retires. -/
def testLogged (cores was : List Nat) (s : State) : State :=
  let t := cores.foldl (fun t n => logRecord (coreRecord t n 0) none t) s
  (was.filter (fun c => crewState t c == 2)).foldl (fun t c => logRecord { retiredRecord t c with action := 0, committed := false } none t) t

theorem testLogged_logOnly (cores was : List Nat) (s : State) : LogOnly s (testLogged cores was s) :=
  (foldl_logRecord_logOnly (fun t n => by simp [coreRecord]) cores s).trans (foldl_logRecord_logOnly (fun t c => by simp [retiredRecord]) _ _)

/-- The package after the records. -/
def testRecorded (cores srams : List Nat) (s : State) : State :=
  testLogged cores ((crewList s).filter (fun c => crewState s c != 2)) (computeHealth (crewsChosen (unitsFailed cores srams s)))

/-- Stage ARRAY_TEST ends: dummy mode ends with it after a warm reset. -/
def arrayTested (cores srams : List Nat) (s : State) : State :=
  let t := if s.clk.cause = 1 then endDummy (testRecorded cores srams s) else testRecorded cores srams s
  { t with boot := { t.boot with stage := 6 } }

/-- Beside the crews the test writes records and the boot state. -/
theorem testRecorded_spec (cores srams : List Nat) (s : State) :
    Kept s (testRecorded cores srams s) ∧ (testRecorded cores srams s).boot.dummy = s.boot.dummy
      ∧ (testRecorded cores srams s).crews = (crewsChosen (unitsFailed cores srams s)).crews := by
  have hlog := testLogged_logOnly cores ((crewList s).filter (fun c => crewState s c != 2)) (computeHealth (crewsChosen (unitsFailed cores srams s)))
  obtain ⟨b, hhealth, hdummy⟩ := computeHealth_rest (crewsChosen (unitsFailed cores srams s))
  have hcrews : CrewsOnly s (crewsChosen (unitsFailed cores srams s)) := (unitsFailed_crewsOnly cores srams s).trans (crewsChosen_crewsOnly _)
  rw [testRecorded]
  generalize crewsChosen (unitsFailed cores srams s) = u at *
  rw [hlog, hhealth, hcrews]
  rw [hcrews] at hdummy
  exact ⟨⟨rfl, rfl, rfl⟩, hdummy, rfl⟩

theorem arrayTested_spec (cores srams : List Nat) (s : State) :
    Kept s (arrayTested cores srams s) ∧ (arrayTested cores srams s).boot.dummy = (s.boot.dummy && s.clk.cause != 1)
      ∧ (arrayTested cores srams s).crews = (crewsChosen (unitsFailed cores srams s)).crews := by
  obtain ⟨hkept, hdummy, hcrews⟩ := testRecorded_spec cores srams s
  unfold arrayTested
  split
  next hcause => exact ⟨hkept, by simp [hcause, endDummy], hcrews⟩
  next hcause => exact ⟨hkept, by simp [hcause, hdummy], hcrews⟩

theorem exec_arrayTestDone {cores srams : List Nat} {s : State} (hstage : atStage 5 s = true) (hcores : ∀ n ∈ cores, n < 9 * Config.crews s.part)
    (hsrams : ∀ c ∈ srams, c < Config.crews s.part) : exec (.arrayTestDone cores srams) s = .next (arrayTested cores srams s) := by
  have hexec : exec (.arrayTestDone cores srams) s = finish s (arrayTested cores srams s) := by
    show execArrayTestDone cores srams s = _
    rw [execArrayTestDone, if_pos (by simpa using ⟨hcores, hsrams⟩), if_pos hstage]
    rfl
  obtain ⟨hkept, -, -⟩ := arrayTested_spec cores srams s
  rw [hexec, finish_of_kept hkept]

end Sys2Proof.Machine

namespace Sys2Proof.Proofs

open Sys2Proof Sys2Proof.Machine

/-- ARRAY_TEST_DONE (R474, R502): the crews after the test are those with the units FAILED, each chosen afresh. -/
theorem arrayTest : Claims.ArrayTest := by
  intro s cores srams hstage hcores hsrams
  obtain ⟨-, hdummy, hcrews⟩ := arrayTested_spec cores srams s
  have hpart : (unitsFailed cores srams s).part = s.part := by rw [unitsFailed_crewsOnly]
  have hcrew {c : Nat} (hc : c < Config.crews s.part) : crewOf (arrayTested cores srams s) c = freshCrew (crewOf (unitsFailed cores srams s) c) := by
    rw [← hpart] at hc
    rw [crewOf, hcrews]
    exact crewOf_crewsChosen hc
  refine ⟨_, exec_arrayTestDone hstage hcores hsrams, rfl, hdummy, fun n hn => ?_, fun c hc => ?_, fun c hc => ?_⟩
  · have hlt := hcores n hn
    rw [hcrew (by omega), (freshCrew_failed _).1, unitsFailed_core srams s hn]
  · rw [hcrew (hsrams c hc), (freshCrew_failed _).2, unitsFailed_sram cores s hc]
  · obtain ⟨hnone, hfull, hshort⟩ := freshCrew_chosenFresh (crewOf (unitsFailed cores srams s) c)
    dsimp only
    rw [hcrew hc]
    exact ⟨hnone, hfull, hshort⟩

/-- Settles O42. -/
theorem startUp : Obligations.StartUp := ⟨bootStages, arrayTest, bootEnds, bootWaits⟩

end Sys2Proof.Proofs
end

section
/-!
PROOFS. Detected events of any function, with the restart that follows (R462, R469, R470): what a record writes, the unit it is charged to, and the package
that restarts.
-/

namespace Sys2Proof.Machine

open Sys2Proof

/-! ### Masks -/

theorem testBit_sub_two_pow_self {m n : Nat} (hset : m.testBit n = true) : (m - 2 ^ n).testBit n = false := by
  have hle : 2 ^ n ≤ m := Nat.ge_two_pow_of_testBit hset
  have hsplit : m = 2 ^ n + (m - 2 ^ n) := by omega
  rw [hsplit, Nat.testBit_two_pow_add_eq] at hset
  simpa using hset

theorem hasBit_clearBit_self (m n : Nat) : hasBit (clearBit m n) n = false := by
  unfold hasBit clearBit
  split
  next hset => exact testBit_sub_two_pow_self hset
  next hclear => exact Bool.eq_false_iff.2 hclear

/-! ### Records of any function -/

/-- t is s but for what a detected event writes: the log, the messages and interrupts, pins, trace, the crews under watch, and a free value. -/
def EventWrites (s t : State) : Prop :=
  t = { s with
    port := t.port, mem := t.mem, mbox := t.mbox, pins := t.pins, trace := t.trace, freeCtr := t.freeCtr, crews := t.crews
    flt := { s.flt with newest := t.flt.newest, live := t.flt.live, history := t.flt.history } }

theorem EventWrites.refl (s : State) : EventWrites s s := rfl

theorem EventWrites.trans {s t u : State} (a : EventWrites s t) (b : EventWrites t u) : EventWrites s u := by
  unfold EventWrites at *
  rw [b, a]

theorem EventWrites.kept {s t : State} (h : EventWrites s t) : Kept s t := by
  rw [h]
  exact ⟨rfl, rfl, rfl⟩

theorem EventWrites.eventsFlow {s t : State} (h : EventWrites s t) (hflow : Claims.eventsFlow s) : Claims.eventsFlow t := by
  rw [h]
  exact hflow

theorem LogOnly.eventWrites {s t : State} (h : LogOnly s t) : EventWrites s t := by
  unfold EventWrites
  rw [h]

theorem CrewsOnly.eventWrites {s t : State} (h : CrewsOnly s t) : EventWrites s t := by
  unfold EventWrites
  rw [h]

theorem chargeUnit_crewsOnly (u : UnitRef) (s : State) : CrewsOnly s (chargeUnit u s) := chargeUnit_rest u s

theorem d2hPost_rest (f : Nat) (msg : List Byte) (s : State) :
    d2hPost f msg s = { s with mbox := (d2hPost f msg s).mbox, port := (d2hPost f msg s).port, mem := (d2hPost f msg s).mem } := by
  unfold d2hPost
  dsimp only
  split
  · unfold d2hPut
    dsimp only
    rw [setHostBits_rest]
    rfl
  · rfl

theorem logNotify_rest (f time : Nat) (s : State) : logNotify f time s = { s with
    mbox := (logNotify f time s).mbox, port := (logNotify f time s).port, mem := (logNotify f time s).mem, freeCtr := s.freeCtr + 1 } := by
  unfold logNotify
  dsimp only
  rw [d2hPost_rest]
  rfl

/-- What a record of any function writes, and that it is the newest. -/
theorem logRecord_writes (r : ErrRec) (who : Option UnitRef) (s : State) :
    EventWrites s (logRecord r who s) ∧ NewestIs r s (logRecord r who s) ∧ (logRecord r who s).crews = s.crews := by
  unfold logRecord
  dsimp only
  rw [traceWrite_rest]
  split
  · rw [logNotify_rest]
    split
    · rw [raiseMsix_host]
      exact ⟨rfl, ⟨_, rfl, rfl⟩, rfl⟩
    · exact ⟨rfl, ⟨_, rfl, rfl⟩, rfl⟩
  · split
    · rw [raiseMsix_host]
      exact ⟨rfl, ⟨_, rfl, rfl⟩, rfl⟩
    · exact ⟨rfl, ⟨_, rfl, rfl⟩, rfl⟩

/-! ### An event that is taken at once -/

/-- The record of an event: that of a unit's first event has VERDICT 1 (R470). -/
def recordFor (r : ErrRec) (who : Option UnitRef) (s : State) : ErrRec :=
  let first := match who with | some u => !inWatch s u && !unitOut s u | none => false
  if first && r.verdict == 0 then { r with verdict := 1 } else r

theorem recordFor_eq (r : ErrRec) (who : Option UnitRef) (s : State) : ∃ v, recordFor r who s = { r with verdict := v } := by
  unfold recordFor
  dsimp only
  split_ifs
  · exact ⟨1, rfl⟩
  · exact ⟨r.verdict, rfl⟩

theorem recordFor_first {r : ErrRec} {u : UnitRef} {s : State} (hverdict : r.verdict = 0) (hwatch : inWatch s u = false) (hout : unitOut s u = false) :
    recordFor r (some u) s = firstEvent r := if_pos (by simp [hverdict, hwatch, hout])

/-- A unit is charged with an event. -/
def chargeTo (who : Option UnitRef) (s : State) : State := match who with | some u => chargeUnit u s | none => s

/-- The record of an event is written, and its unit is charged. -/
def eventCharged (r : ErrRec) (who : Option UnitRef) (s : State) : State := chargeTo who (logRecord (recordFor r who s) who s)

theorem chargeTo_crewsOnly (who : Option UnitRef) (s : State) : CrewsOnly s (chargeTo who s) := by
  cases who with
  | none => rfl
  | some u => exact chargeUnit_crewsOnly u s

theorem eventCharged_writes (r : ErrRec) (who : Option UnitRef) (s : State) : EventWrites s (eventCharged r who s) :=
  (logRecord_writes _ who s).1.trans (chargeTo_crewsOnly who _).eventWrites

theorem eventCharged_newestIs (r : ErrRec) (who : Option UnitRef) (s : State) : NewestIs (recordFor r who s) s (eventCharged r who s) := by
  have hnewest := (logRecord_writes (recordFor r who s) who s).2.1
  unfold eventCharged
  rw [chargeTo_crewsOnly]
  exact hnewest

/-- An event that is charged to no unit leaves its record as it is. -/
theorem eventCharged_none (r : ErrRec) (s : State) : eventCharged r none s = logRecord r none s := rfl

theorem eventCharged_none_crews (r : ErrRec) (s : State) : (eventCharged r none s).crews = s.crews := (logRecord_writes _ none s).2.2

theorem inWatch_eventCharged {r : ErrRec} {u : UnitRef} {s : State} (hwatch : inWatch s u = false) (hout : unitOut s u = false) :
    inWatch (eventCharged r (some u) s) u = true := by
  have hcrews := (logRecord_writes (recordFor r (some u) s) (some u) s).2.2
  refine inWatch_chargeUnit ?_ ?_
  · cases u <;> simpa only [inWatch, crewOf, hcrews] using hwatch
  · cases u <;> simpa only [unitOut, crewOf, hcrews] using hout

/-- A unit has an event before this one. -/
def chargedBefore (who : Option UnitRef) (s : State) : Bool := match who with | some u => inWatch s u | none => false

/-- The restart that follows an event: a second one of its unit restarts the shell whatever its own action. -/
def restartAfter (r : ErrRec) (who : Option UnitRef) (s : State) : Nat :=
  if r.action = 2 ∨ chargedBefore who s = true then 1 else if r.action = 3 then 2 else 0

theorem detect_flows {s : State} (hflow : Claims.eventsFlow s) (r : ErrRec) (who : Option UnitRef) :
    detect r who s = actOn (restartAfter r who s) (passEvent (eventCharged r who s)) := by
  have hflow' := (eventCharged_writes r who s).eventsFlow hflow
  have hact : (passEvent (eventCharged r who s)).boot.act ≠ .held := hflow'.1
  have hlatch := latchEvent_of_flows hflow'
  have hdetect : detect r who s = (let l := latchEvent (.error r.code (restartAfter r who s)) (eventCharged r who s)
      if l.1 then actOn 2 (logRecord lossRecord none l.2)
      else if l.2.boot.act = .held then l.2
      else actOn (restartAfter r who s) l.2) := by
    cases who <;> rfl
  rw [hdetect, hlatch]
  simp [hact]

theorem detect_noRestartAfter {s : State} (hflow : Claims.eventsFlow s) {r : ErrRec} {who : Option UnitRef} (h : restartAfter r who s = 0) :
    detect r who s = passEvent (eventCharged r who s) := by
  rw [detect_flows hflow, h]
  rfl

/-! ### An event and its restart, as the claims state them -/

/-- t is s but for the counters, samples and crews that a command changes before its event; the log is as it was. -/
structure BeforeEvent (s t : State) : Prop where
  rest : t = { s with flt := t.flt, crews := t.crews }
  newest : t.flt.newest = s.flt.newest

theorem BeforeEvent.eventsFlow {s t : State} (h : BeforeEvent s t) (hflow : Claims.eventsFlow s) : Claims.eventsFlow t := by
  rw [h.rest]
  exact hflow

theorem recorded_eventCharged {s t : State} (h : BeforeEvent s t) {r : ErrRec} {who : Option UnitRef} {p : ErrRec → Prop}
    (hp : ∀ v time seq nv pkg shell, p { r with verdict := v, time := time, seq := seq, nv := nv, pkg := pkg, shell := shell }) :
    Claims.recorded s (eventCharged r who t) p := by
  have hts : t.clk.ts = s.clk.ts := by rw [h.rest]
  obtain ⟨v, hrecord⟩ := recordFor_eq r who t
  exact (eventCharged_newestIs r who t).recorded hts h.newest (by rw [hrecord]; exact hp v)

/-- A record before the command's last one. -/
theorem logsFirst_eventCharged {s t : State} (h : BeforeEvent s t) {r : ErrRec} {who : Option UnitRef} {p : ErrRec → Prop}
    (hp : ∀ v time seq nv pkg shell, p { r with verdict := v, time := time, seq := seq, nv := nv, pkg := pkg, shell := shell }) :
    Claims.logsFirst s (eventCharged r who t) p := by
  refine ⟨recorded_eventCharged h hp, ?_⟩
  rw [eventCharged_writes, h.rest]
  exact ⟨rfl, rfl, rfl, rfl, rfl, rfl⟩

theorem actOn_active {s : State} (h : s.gov.st = .active) {k : Nat} (hk : k ≠ 0) : actOn k s = restartShell s := by
  rw [actOn, if_neg hk, h]

theorem actOn_later {s : State} (h : s.gov.st ≠ .active) {k : Nat} (hk : k ≠ 0) :
    actOn k s = { s with gov := { s.gov with deferredRestart := max s.gov.deferredRestart k } } := by
  rw [actOn, if_neg hk]
  split
  next hactive => exact absurd hactive h
  next => rfl

/-- The command's last event, with the restart of the shell. -/
theorem restartsWith_detect {s t : State} (h : BeforeEvent s t) (hflow : Claims.eventsFlow s) {r : ErrRec} {who : Option UnitRef}
    (hrestart : restartAfter r who t = 1) {p : ErrRec → Prop} {extra : State → Prop}
    (hrecorded : Claims.recorded s (eventCharged r who t) p) (hextra : extra (passEvent (eventCharged r who t))) :
    Claims.restartsWith s (finish s (detect r who t)) 1 p extra := by
  have hwrites := eventCharged_writes r who t
  rw [detect_flows (h.eventsFlow hflow), hrestart]
  generalize eventCharged r who t = u at *
  have hgov : (passEvent u).gov = s.gov := by rw [hwrites, h.rest]; rfl
  refine ⟨passEvent u, hrecorded, hextra, ?_, ?_, ?_, hgov, fun hactive => ?_, fun hlater => ?_⟩
  · rw [hwrites, h.rest]; rfl
  · rw [hwrites, h.rest]; rfl
  · rw [hwrites, h.rest]; rfl
  · rw [actOn_active (by rw [hgov]; exact hactive) (by decide)]
    rfl
  · rw [actOn_later (by rw [hgov]; exact hlater) (by decide), hgov]
    rfl

end Sys2Proof.Machine
end

section
/-!
PROOFS. Firmware activation (R512, R513): the steps that are due and those that are not, and the restart of a package in which no request is left.
-/

namespace Sys2Proof.Machine

open Sys2Proof

/-! ### The activation ends -/

/-- The package with no activation in progress. -/
def activationIdle (s : State) : State := s.withBoot { s.boot with act := .idle, activating := false }

/-- A FIRMWARE_ACTIVATE that ends gives up its slot, and no activation is in progress. -/
theorem releaseRequest_activate {r : Request} {slot : Nat} (h : r.work = .activate slot) (n status : Nat) (s : State) :
    releaseRequest n status r s = collect (freeSlot (activationIdle s) n) := by
  simp only [releaseRequest, h, abandonWork, settleConv]
  rfl

/-- t is s but for the requests, the objects and the memory that they leave, and what a completion touches: rings, interrupts and the trace. -/
def ServingOnly (s t : State) : Prop := t = { s with port := t.port, mem := t.mem, obj := t.obj, srv := t.srv, trace := t.trace }

theorem ServingOnly.trans {s t u : State} (a : ServingOnly s t) (b : ServingOnly t u) : ServingOnly s u := by
  unfold ServingOnly at *
  rw [b, a]

theorem ServingOnly.boot_eq {s t : State} (h : ServingOnly s t) : t.boot = s.boot := by rw [h]

theorem ServingOnly.flt_eq {s t : State} (h : ServingOnly s t) : t.flt = s.flt := by rw [h]

theorem postCompletion_servingOnly (q : RingRef) (c : Cpl) (k : Nat) (s : State) : ServingOnly s (postCompletion q c k s) := by
  unfold ServingOnly
  rw [postCompletion_rest]

theorem failCommand_servingOnly {s : State} (hslots : s.srv.slots = []) {x : CmdErr} (hlog : x.log = none) (q : RingRef) (aged arith : Bool)
    (tag index opcode seq : Nat) : ServingOnly s (failCommand q aged arith tag index opcode x (dropLater q seq index s)) := by
  obtain ⟨n, hdrop⟩ := dropLater_noSlots hslots q seq index
  have hback : ServingOnly s (freezeRing q tag index opcode 0 x (headBack q index n (withoutLater q seq s))) := rfl
  rw [failCommand, hlog, hdrop]
  exact hback.trans (postCompletion_servingOnly _ _ _ _)

section
variable {s : State} {n : Nat} {r : Request} {slot : Nat} (hslots : s.srv.slots = [(n, r)]) (hwork : r.work = .activate slot)
include hslots hwork

theorem activateSlot_lone : activateSlot s = some n := by simp [activateSlot, hslots, hwork]

variable (hsilent : r.silent = false) (hquiet : Claims.nothingWaits s) (hpost : Claims.canPost s ⟨r.fn, r.ring⟩)
include hsilent hquiet hpost

/-- An activation that fails: the command completes with 0x31, no request is left, and beside the serving state only the boot state changes. -/
theorem failActivation_lone (reason : Nat) :
    ServingOnly (activationIdle s) (failActivation reason s) ∧ (failActivation reason s).srv.slots = [] ∧ Claims.nothingWaits (failActivation reason s)
      ∧ Claims.posts s (failActivation reason s) ⟨r.fn, r.ring⟩ r.tag r.opcode 0x31 ∧ (ringOf (failActivation reason s) ⟨r.fn, r.ring⟩).errStatus = 0x31 := by
  have hslot : slotOf (activationIdle s) n = some r := slotOf_of_slots hslots
  have hfree : (collect (freeSlot (activationIdle s) n)).srv.slots = [] := by
    show serase s.srv.slots n = []
    simp [hslots, serase]
  have hfail : failActivation reason s = failCommand ⟨r.fn, r.ring⟩ r.aged (arithOf r) r.tag r.sqIndex r.opcode (firmwareError reason)
      (dropLater ⟨r.fn, r.ring⟩ r.fetchSeq r.sqIndex (collect (freeSlot (activationIdle s) n))) := by
    have hstart : failActivation reason s = failRequest n (firmwareError reason) (activationIdle s) := by
      have hnamed : activateSlot (activationIdle s) = some n := activateSlot_lone hslots hwork
      unfold failActivation
      exact (congrArg (fun o => match o with | some n => failRequest n (firmwareError reason) (activationIdle s) | none => activationIdle s) hnamed :)
    rw [hstart]
    simp only [failRequest, hslot, hsilent, Bool.false_eq_true, if_false]
    rw [releaseRequest_activate hwork]
    rfl
  have honly : ServingOnly (activationIdle s) (collect (freeSlot (activationIdle s) n)) := rfl
  obtain ⟨-, hslots', hwaits, hposts, hstatus, -⟩ := failCommand_quiet (s := collect (freeSlot (activationIdle s) n)) (q := ⟨r.fn, r.ring⟩) hfree
    hquiet hpost (x := firmwareError reason) rfl r.aged (arithOf r) r.tag r.sqIndex r.opcode r.fetchSeq hfail.symm
  refine ⟨?_, hslots', hwaits, hposts, hstatus⟩
  rw [hfail]
  exact honly.trans (failCommand_servingOnly hfree rfl _ _ _ _ _ _ _)

end

/-- With no request left no power state is entered. -/
theorem startHeldPower_noSlots {s : State} (h : s.srv.slots = []) : startHeldPower s = s := by
  have hpower : powerSlots s = [] := by rw [powerSlots, h, List.filterMap_nil]
  rw [startHeldPower, hpower]

theorem startHeldPower_settleAll {s : State} (hslots : s.srv.slots = []) (hholds : s.srv.holds = []) : startHeldPower (settleAll s) = s := by
  rw [settleAll_of_noHolds hholds, startHeldPower_noSlots hslots]

/-! ### Steps that are due -/

section
variable {s : State} (hclocks : clocksRun s = true)
include hclocks

theorem exec_activationHold (hact : s.boot.act = .loaded) (hstroke : s.srv.strokeSince = none) (hst : s.gov.st = .active) (hroom : s.boot.evq.length < 2048) :
    exec .activationHold s = .next { s with boot := { s.boot with act := .held, activating := true, actSince := s.clk.ts } } := by
  show execActivationHold s = _
  rw [execActivationHold, if_pos (by simp [hclocks, hact, hstroke, hst, hroom])]
  rfl

/-- The command of a new firmware that has composed completes, in the state that it starts from. -/
theorem exec_activationResume (hact : s.boot.act = .held) {u : State}
    (hu : traceWrite (traceOf (runFirmware s.boot.actSlot (activationIdle s)) 6 0xFFFFFFFF (revReg s) (revReg (runFirmware s.boot.actSlot (activationIdle s))))
      (runFirmware s.boot.actSlot (activationIdle s)) = u) {n : Nat} (hslot : activateSlot u = some n) :
    exec .activationResume s = finish s (startHeldPower (settleAll (drainEvents (endRequest n 0 (activateResult u s.boot.actSlot) u)))) := by
  have hexec : execActivationResume s = finish s (startHeldPower (settleAll (drainEvents (match activateSlot u with
      | some n => endRequest n 0 (activateResult u s.boot.actSlot) u
      | none => u)))) := by
    subst hu
    rw [execActivationResume, if_pos (by simp [hclocks, hact])]
    rfl
  show execActivationResume s = _
  rw [hexec, hslot]

theorem exec_activationBusyTimeout (hact : s.boot.act = .loaded) (hfull : 2048 ≤ s.boot.evq.length) :
    exec .activationBusyTimeout s = finish s (startHeldPower (settleAll (failActivation 6 s))) := by
  show execActivationBusyTimeout s = _
  rw [execActivationBusyTimeout, if_pos (by simp [hclocks, hact, hfull])]

/-- The record of a firmware that has not composed. -/
def startFailedRecord : ErrRec := { cls := 3, action := 3, code := 0x61, unitKind := 7, unit := 1 }

theorem exec_startFailed (hact : s.boot.act = .held) (hdue : s.boot.actSince + 100000000 ≤ s.clk.ts) :
    exec .startFailed s = finish s (startHeldPower (settleAll (drainEvents (detect startFailedRecord none (failActivation 5 s))))) := by
  show execStartFailed s = _
  rw [execStartFailed, if_pos (by simp [hclocks, hact, hdue, now])]
  rfl

end

/-! ### The restart of a package in which no request is left (R440, R442) -/

/-- What a restart keeps where no request is left and nothing waits: that it is so, the boot state but for health, the fault counters, the rings and, with no
interrupt for records, host memory. -/
structure RestartKeeps (s t : State) : Prop where
  slots : s.srv.slots = [] → t.srv.slots = []
  holds : s.srv.holds = [] → t.srv.holds = []
  evq : t.boot.evq = s.boot.evq
  act : t.boot.act = s.boot.act
  activating : t.boot.activating = s.boot.activating
  activeSlot : t.boot.activeSlot = s.boot.activeSlot
  fwMajor : t.boot.fwMajor = s.boot.fwMajor
  dummy : t.boot.dummy = s.boot.dummy
  restarts : t.flt.restarts = s.flt.restarts
  ctl : t.flt.ctl = s.flt.ctl
  rings : t.port.rings = s.port.rings
  host : bitOf s.flt.ctl 0 = false → t.mem.host = s.mem.host

theorem RestartKeeps.refl (s : State) : RestartKeeps s s := ⟨id, id, rfl, rfl, rfl, rfl, rfl, rfl, rfl, rfl, rfl, fun _ => rfl⟩

theorem RestartKeeps.trans {s t u : State} (a : RestartKeeps s t) (b : RestartKeeps t u) : RestartKeeps s u where
  slots := b.slots ∘ a.slots
  holds := b.holds ∘ a.holds
  evq := b.evq.trans a.evq
  act := b.act.trans a.act
  activating := b.activating.trans a.activating
  activeSlot := b.activeSlot.trans a.activeSlot
  fwMajor := b.fwMajor.trans a.fwMajor
  dummy := b.dummy.trans a.dummy
  restarts := b.restarts.trans a.restarts
  ctl := b.ctl.trans a.ctl
  rings := b.rings.trans a.rings
  host := fun h => (b.host (by rw [a.ctl]; exact h)).trans (a.host h)

theorem RestartKeeps.foldl {α : Type} {f : State → α → State} (h : ∀ t x, RestartKeeps t (f t x)) (l : List α) (s : State) : RestartKeeps s (l.foldl f s) :=
  List.foldlRecOn (motive := RestartKeeps s) l f (.refl s) fun t ht x _ => ht.trans (h t x)

theorem SentOnly.restartKeeps {s t : State} (h : SentOnly s t) : RestartKeeps s t := by
  rw [h]
  exact ⟨id, id, rfl, rfl, rfl, rfl, rfl, rfl, rfl, rfl, rfl, fun _ => rfl⟩

theorem CrewsOnly.restartKeeps {s t : State} (h : CrewsOnly s t) : RestartKeeps s t := by
  rw [h]
  exact ⟨id, id, rfl, rfl, rfl, rfl, rfl, rfl, rfl, rfl, rfl, fun _ => rfl⟩

theorem foldl_endConv_restartKeeps (how : ConvEnd) (cs : List Conv) (s : State) : RestartKeeps s (cs.foldl (endConv how) s) := by
  have honly := convsOnly_foldl_endConv how cs s
  have hhost := host_foldl_endConv how cs s
  generalize cs.foldl (endConv how) s = t at honly hhost
  rw [honly]
  exact ⟨id, id, rfl, rfl, rfl, rfl, rfl, rfl, rfl, rfl, rfl, fun _ => hhost⟩

theorem raiseMsix_rings (f v : Nat) (s : State) : (raiseMsix f v s).port.rings = s.port.rings := by rw [raiseMsix_port]

theorem logRecord_rings {r : ErrRec} (hfn : 64 ≤ r.fn) (who : Option UnitRef) (s : State) : (logRecord r who s).port.rings = s.port.rings := by
  unfold logRecord
  dsimp only
  rw [if_neg (Nat.not_lt.2 hfn), traceWrite_rest]
  split
  · exact raiseMsix_rings _ _ _
  · rfl

theorem logRecord_restartKeeps {r : ErrRec} (hfn : 64 ≤ r.fn) (who : Option UnitRef) (s : State) : RestartKeeps s (logRecord r who s) := by
  have honly := logRecord_logOnly hfn who s
  have hrings := logRecord_rings hfn who s
  have hhost := fun h => congrArg MemTiers.host (logRecord_mem hfn who (s := s) h)
  generalize logRecord r who s = t at honly hrings hhost
  rw [honly]
  exact ⟨id, id, rfl, rfl, rfl, rfl, rfl, rfl, rfl, rfl, hrings, hhost⟩

theorem clearEngines_restartKeeps (s : State) : RestartKeeps s (clearEngines s) := ⟨id, id, rfl, rfl, rfl, rfl, rfl, rfl, rfl, rfl, rfl, fun _ => rfl⟩

theorem computeHealth_restartKeeps (s : State) : RestartKeeps s (computeHealth s) := ⟨id, id, rfl, rfl, rfl, rfl, rfl, rfl, rfl, rfl, rfl, fun _ => rfl⟩

theorem shellLeft_restartKeeps (s : State) : RestartKeeps s (shellLeft s) := ⟨id, id, rfl, rfl, rfl, rfl, rfl, rfl, rfl, rfl, rfl, fun _ => rfl⟩

theorem collect_restartKeeps (s : State) : RestartKeeps s (collect s) := ⟨id, id, rfl, rfl, rfl, rfl, rfl, rfl, rfl, rfl, rfl, fun _ => rfl⟩

theorem replaceUnits_restartKeeps (s : State) : RestartKeeps s (replaceUnits s) := by
  have hcrews : CrewsOnly s ((crewList s).foldl (fun t c => setCrew t c (placeCrew (crewOf t c))) s) := CrewsOnly.foldl (fun _ _ => setCrew_crewsOnly _ _ _) _ s
  exact (hcrews.restartKeeps.trans (computeHealth_restartKeeps _)).trans
    (RestartKeeps.foldl (fun t c => logRecord_restartKeeps (by simp [retiredRecord]) none t) _ _)

/-- Where no request is left and nothing waits, none ends. -/
theorem endAll_idle (status : Nat) {s : State} (hslots : s.srv.slots = []) (hholds : s.srv.holds = []) : endAll status s = s := by
  have hnone : slotsInOrder s = [] := by rw [slotsInOrder, hslots]; rfl
  rw [endAll, hnone]
  exact settleAll_of_noHolds hholds

theorem endShell_restartKeeps {s : State} (hslots : s.srv.slots = []) (hholds : s.srv.holds = []) : RestartKeeps s (endShell s) := by
  rw [endShell_eq, endAll_idle 0x60 hslots hholds]
  have hlost : RestartKeeps s (loseConvs s) := foldl_endConv_restartKeeps .lost _ s
  have hreleased : RestartKeeps s (allReleased (loseConvs s)) := hlost.trans (foldl_endConv_restartKeeps .released _ _)
  exact (hreleased.trans (shellLeft_restartKeeps _)).trans (collect_restartKeeps _)

/-- A restart begins: the package counts it, and its shell is RESTARTING. -/
def restartBegun (s : State) : State :=
  { s with
    net := { s.net with
      shell := .restarting, readyMembers := [], restarts := (now s :: s.net.restarts).filter (fun t => decide (now s < t + 1000000000)) }
    flt := { s.flt with restarts := saturate 0xFF (s.flt.restarts + 1) } }

/-- The package in dummy mode. -/
def inDummy (s : State) : State := s.withBoot { s.boot with dummy := true }

/-- A member tells the lead that it is ready; the lead counts itself. -/
def tellReady (s : State) : State :=
  if isLead s then { s with net := { s.net with readyMembers := [0] } }
  else sendControl (s.net.shellPkgs.headD s.net.pkgNum) (.ready s.net.shellId s.net.myMember) s

/-- A restart ends the shell where it is the ninth of a second. -/
def ninthEnds (ninth : Prop) [Decidable ninth] (s : State) : State :=
  if ninth then endShell { s with net := { s.net with restarts := [] } } else s

theorem runRestart_eq (s : State) : runRestart s = drainCheck (ninthEnds (9 ≤ (restartBegun s).net.restarts.length)
    (tellReady (replaceUnits (inDummy (clearEngines (loseConvs (endAll 0x60 (restartBegun s)))))))) := by
  unfold runRestart
  extract_lets times _ _ s1 _ s2 lead _ s3
  have hcleared : s1 = clearEngines (loseConvs (endAll 0x60 (restartBegun s))) := rfl
  have hreplaced : s2 = replaceUnits (inDummy s1) := rfl
  have htold : s3 = tellReady s2 := rfl
  rw [← hcleared, ← hreplaced, ← htold]
  clear_value s3
  rfl

theorem RestartKeeps.inDummy {s t : State} (h : RestartKeeps s t) : RestartKeeps (inDummy s) (inDummy t) :=
  ⟨h.slots, h.holds, h.evq, h.act, h.activating, h.activeSlot, h.fwMajor, rfl, h.restarts, h.ctl, h.rings, h.host⟩

theorem RestartKeeps.restartBegun {s t : State} (h : RestartKeeps s t) : RestartKeeps (restartBegun s) (restartBegun t) :=
  ⟨h.slots, h.holds, h.evq, h.act, h.activating, h.activeSlot, h.fwMajor, h.dummy, congrArg (fun k => saturate 0xFF (k + 1)) h.restarts, h.ctl, h.rings, h.host⟩

theorem tellReady_restartKeeps (s : State) : RestartKeeps s (tellReady s) := by
  unfold tellReady
  split
  · exact ⟨id, id, rfl, rfl, rfl, rfl, rfl, rfl, rfl, rfl, rfl, fun _ => rfl⟩
  · exact (sendControl_sentOnly _ _ s).restartKeeps

theorem ninthEnds_restartKeeps (ninth : Prop) [Decidable ninth] {s : State} (hslots : s.srv.slots = []) (hholds : s.srv.holds = []) :
    RestartKeeps s (ninthEnds ninth s) := by
  unfold ninthEnds
  split
  · have hforgot : RestartKeeps s { s with net := { s.net with restarts := [] } } :=
      ⟨id, id, rfl, rfl, rfl, rfl, rfl, rfl, rfl, rfl, rfl, fun _ => rfl⟩
    exact hforgot.trans (endShell_restartKeeps (hforgot.slots hslots) (hforgot.holds hholds))
  · exact .refl s

theorem drainCheck_noSlots {s : State} (h : s.srv.slots = []) : drainCheck s = s := drainCheck_of_noPower fun hone => by simp [h] at hone

theorem runRestart_restartKeeps {s : State} (hslots : s.srv.slots = []) (hholds : s.srv.holds = []) :
    RestartKeeps (inDummy (restartBegun s)) (runRestart s) := by
  have hlost : RestartKeeps (restartBegun s) (loseConvs (restartBegun s)) := foldl_endConv_restartKeeps .lost _ _
  have hready := ((hlost.trans (clearEngines_restartKeeps _)).inDummy.trans (replaceUnits_restartKeeps _)).trans (tellReady_restartKeeps _)
  have hended := hready.trans (ninthEnds_restartKeeps (9 ≤ (restartBegun s).net.restarts.length) (hready.slots hslots) (hready.holds hholds))
  rw [runRestart_eq, endAll_idle 0x60 (s := restartBegun s) hslots hholds, drainCheck_noSlots (hended.slots hslots)]
  exact hended

/-- A restart of a package in which no request is left counts, and leaves the package in dummy mode. -/
theorem restartShell_restartKeeps {s : State} (hslots : s.srv.slots = []) (hholds : s.srv.holds = []) :
    RestartKeeps (inDummy (restartBegun s)) (restartShell s) := by
  have hsent := (sendControls_sentOnly s.net.shellPkgs (.restart s.net.shellId) s).restartKeeps
  exact hsent.restartBegun.inDummy.trans (runRestart_restartKeeps (hsent.slots hslots) (hsent.holds hholds))

/-! ### The firmware that has not composed -/

theorem passEvent_restartKeeps (s : State) : RestartKeeps s (passEvent s) := ⟨id, id, rfl, rfl, rfl, rfl, rfl, rfl, rfl, rfl, rfl, fun _ => rfl⟩

theorem drainEvents_of_none {s : State} (h : s.boot.evq = []) : drainEvents s = applyExpiry (s.withBoot { s.boot with evq := [] }) := by
  rw [drainEvents, h]
  rfl

/-- The firmware that finds no event waiting ends the conversations whose expiry fell due, and nothing else. -/
theorem drainEvents_restartKeeps {s : State} (h : s.boot.evq = []) : RestartKeeps s (drainEvents s) := by
  have hempty : RestartKeeps s (s.withBoot { s.boot with evq := [] }) := ⟨id, id, h.symm, rfl, rfl, rfl, rfl, rfl, rfl, rfl, rfl, fun _ => rfl⟩
  rw [drainEvents_of_none h]
  exact hempty.trans (foldl_endConv_restartKeeps .expired _ _)

/-- The watchdog of the new firmware: with no request left every shell restarts. -/
theorem startFailed_restartKeeps {s : State} (hact : s.boot.act ≠ .held) (hevq : s.boot.evq = []) (hst : s.gov.st = .active)
    (hslots : s.srv.slots = []) (hholds : s.srv.holds = []) :
    RestartKeeps (inDummy (restartBegun s)) (drainEvents (detect startFailedRecord none s)) := by
  have hfn : 64 ≤ startFailedRecord.fn := by simp [startFailedRecord]
  have hlogged := (logRecord_restartKeeps hfn none s).trans (passEvent_restartKeeps _)
  have hactive : (passEvent (logRecord startFailedRecord none s)).gov.st = .active := by
    rw [logRecord_logOnly hfn none s]
    exact hst
  have hdetect : detect startFailedRecord none s = restartShell (passEvent (logRecord startFailedRecord none s)) := by
    have hflow : Claims.eventsFlow s := ⟨hact, by rw [hevq]; decide⟩
    rw [detect_flows hflow, eventCharged_none, actOn_active hactive (by simp [startFailedRecord, restartAfter, chargedBefore])]
  have hrestart := hlogged.restartBegun.inDummy.trans (restartShell_restartKeeps (hlogged.slots hslots) (hlogged.holds hholds))
  rw [hdetect]
  exact hrestart.trans (drainEvents_restartKeeps (hrestart.evq.trans hevq))

/-! ### The new firmware takes over (R512) -/

theorem drainEvents_idle {s : State} (hevq : s.boot.evq = []) (hconvs : s.srv.convs = []) : drainEvents s = s := by
  have hempty : s.withBoot { s.boot with evq := [] } = s := by rw [← hevq]; rfl
  have hdue : dueConvs s = [] := by rw [dueConvs, hconvs, List.filter_nil]
  rw [drainEvents_of_none hevq, hempty, applyExpiry, hdue, List.foldl_nil]

/-- The package that runs the image f of slot k, with no activation in progress. -/
def firmwareRuns (s : State) (k : Nat) (f : FwImage) : State :=
  s.withBoot { s.boot with act := .idle, activating := false, fwMajor := f.major, fwMinor := f.minor, fwPatch := f.patch, activeSlot := k }

theorem endRequest_activate {s : State} {n : Nat} {r : Request} {slot : Nat} (hslot : slotOf s n = some r) (hwork : r.work = .activate slot)
    (hsilent : r.silent = false) (status : Nat) (result : List Byte) :
    ServingOnly (activationIdle s) (endRequest n status result s) ∧ (endRequest n status result s).srv.convs = s.srv.convs := by
  obtain ⟨c, hend, -⟩ := endRequest_eq_post hslot hsilent status result
  have hfreed : ServingOnly (activationIdle s) (collect (freeSlot (activationIdle s) n)) := rfl
  rw [hend, releaseRequest_activate hwork]
  refine ⟨hfreed.trans (postCompletion_servingOnly _ _ _ _), ?_⟩
  rw [postCompletion_srv]
  rfl

section
variable {s : State} {n : Nat} {r : Request} {slot : Nat} (hclocks : clocksRun s = true) (hslots : s.srv.slots = [(n, r)]) (hwork : r.work = .activate slot)
  (hsilent : r.silent = false) (hquiet : Claims.nothingWaits s) (hpost : Claims.canPost s ⟨r.fn, r.ring⟩)
include hclocks hslots hwork hsilent hquiet hpost

/-- ACTIVATION_RESUME with no event waiting and no conversation (R512 steps 4 and 5). -/
theorem activationResume_lone {f : FwImage} (hact : s.boot.act = .held) (hevq : s.boot.evq = []) (hconvs : s.srv.convs = [])
    (hf : slookup s.boot.slots s.boot.actSlot = some f) :
    ∃ t, exec .activationResume s = .next (Claims.after s t) ∧ t.boot = (firmwareRuns s s.boot.actSlot f).boot ∧ t.srv.slots = []
      ∧ Claims.posts s t ⟨r.fn, r.ring⟩ r.tag r.opcode 0 := by
  have hruns : runFirmware s.boot.actSlot (activationIdle s) = firmwareRuns s s.boot.actSlot f := runFirmware_found hf
  obtain ⟨u, hu⟩ : ∃ u, traceWrite (traceOf (firmwareRuns s s.boot.actSlot f) 6 0xFFFFFFFF (revReg s) (revReg (firmwareRuns s s.boot.actSlot f)))
    (firmwareRuns s s.boot.actSlot f) = u := ⟨_, rfl⟩
  have honly : u = { firmwareRuns s s.boot.actSlot f with trace := u.trace } := by
    rw [← hu]
    exact traceWrite_rest _ _
  have hslots' : u.srv.slots = [(n, r)] := by rw [honly]; exact hslots
  have hposts' : Claims.canPost u ⟨r.fn, r.ring⟩ := by rw [honly]; exact hpost
  have hquiet' : Claims.nothingWaits u := by rw [honly]; exact hquiet
  have hports : u.port.rings = s.port.rings := by rw [honly]; rfl
  have hboot : (activationIdle u).boot = (firmwareRuns s s.boot.actSlot f).boot := by rw [honly]; rfl
  have hconvs' : u.srv.convs = [] := by rw [honly]; exact hconvs
  have hslot := slotOf_of_slots hslots'
  obtain ⟨hfreed, hposted, -, hwaits, -⟩ := endRequest_posts hslot hsilent hposts' hquiet' 0 (activateResult u s.boot.actSlot)
  obtain ⟨hserving, hkept⟩ := endRequest_activate hslot hwork hsilent 0 (activateResult u s.boot.actSlot)
  have hexec := exec_activationResume hclocks hact (by rw [hruns]; exact hu) (activateSlot_lone hslots' hwork)
  generalize endRequest n 0 (activateResult u s.boot.actSlot) u = e at *
  have hended : e.boot = (firmwareRuns s s.boot.actSlot f).boot := hserving.boot_eq.trans hboot
  have hnone : e.srv.slots = [] := by rw [hfreed, hslots']; simp [serase]
  rw [drainEvents_idle (by rw [hended]; exact hevq) (hkept.trans hconvs'), startHeldPower_settleAll hnone hwaits.1] at hexec
  exact ⟨e, hexec, hended, hnone, by rwa [posts_congr hports] at hposted⟩

/-- ACTIVATION_BUSY_TIMEOUT (R513). -/
theorem activationBusyTimeout_lone (hact : s.boot.act = .loaded) (hfull : 2048 ≤ s.boot.evq.length) :
    ∃ t, exec .activationBusyTimeout s = .next (Claims.after s t) ∧ t.boot = (activationIdle s).boot ∧ t.srv.slots = []
      ∧ Claims.posts s t ⟨r.fn, r.ring⟩ r.tag r.opcode 0x31 ∧ (ringOf t ⟨r.fn, r.ring⟩).errStatus = 0x31 := by
  obtain ⟨hserving, hnone, hwaits, hposts, hstatus⟩ := failActivation_lone hslots hwork hsilent hquiet hpost 6
  have hexec := exec_activationBusyTimeout hclocks hact hfull
  rw [startHeldPower_settleAll hnone hwaits.1] at hexec
  exact ⟨_, hexec, hserving.boot_eq, hnone, hposts, hstatus⟩

/-- START_FAILED (R513): what the restart keeps of the package in which the command has failed. -/
theorem startFailed_lone (hact : s.boot.act = .held) (hevq : s.boot.evq = []) (hdue : s.boot.actSince + 100000000 ≤ s.clk.ts) (hst : s.gov.st = .active) :
    ∃ u t, exec .startFailed s = .next (Claims.after s t) ∧ RestartKeeps (inDummy (restartBegun u)) t ∧ ServingOnly (activationIdle s) u ∧ t.srv.slots = []
      ∧ Claims.posts s u ⟨r.fn, r.ring⟩ r.tag r.opcode 0x31 ∧ (ringOf u ⟨r.fn, r.ring⟩).errStatus = 0x31 := by
  obtain ⟨hserving, hnone, hwaits, hposts, hstatus⟩ := failActivation_lone hslots hwork hsilent hquiet hpost 5
  have hexec := exec_startFailed hclocks hact hdue
  generalize failActivation 5 s = u at *
  have hidle : u.boot.act ≠ .held := by rw [hserving]; exact fun h => nomatch h
  have hkept := startFailed_restartKeeps hidle (by rw [hserving]; exact hevq) (by rw [hserving]; exact hst) hnone hwaits.1
  have hnone' := hkept.slots hnone
  rw [startHeldPower_settleAll hnone' (hkept.holds hwaits.1)] at hexec
  exact ⟨u, _, hexec, hkept, hserving, hnone', hposts, hstatus⟩

end

end Sys2Proof.Machine

namespace Sys2Proof.Proofs

open Sys2Proof Sys2Proof.Machine

/-- What an activation does when its step is due (R512, R513). -/
theorem activationRuns : Claims.ActivationRuns := by
  intro s hclocks
  refine ⟨exec_activationHold hclocks, fun n r slot hslots hwork hsilent hquiet hpost => ⟨fun f hact hevq hconvs hf => ?_, fun hact hfull => ?_,
    fun hact hevq hdue hst => ?_⟩⟩
  · obtain ⟨t, hexec, hboot, hnone, hposts⟩ := activationResume_lone hclocks hslots hwork hsilent hquiet hpost hact hevq hconvs hf
    exact ⟨_, hexec, congrArg Boot.act hboot, congrArg Boot.activating hboot, congrArg Boot.fwMajor hboot, congrArg Boot.fwMinor hboot,
      congrArg Boot.fwPatch hboot, congrArg Boot.activeSlot hboot, hnone, hposts⟩
  · obtain ⟨t, hexec, hboot, hnone, hposts, hstatus⟩ := activationBusyTimeout_lone hclocks hslots hwork hsilent hquiet hpost hact hfull
    exact ⟨_, hexec, congrArg Boot.act hboot, congrArg Boot.activating hboot, (congrArg Boot.activeSlot hboot :), hnone, hposts, hstatus⟩
  · obtain ⟨u, t, hexec, hkept, hserving, hnone, hposts, hstatus⟩ := startFailed_lone hclocks hslots hwork hsilent hquiet hpost hact hevq hdue hst
    have hboot := hserving.boot_eq
    have hrestarts : t.flt.restarts = min 0xFF (s.flt.restarts + 1) := by
      rw [← show u.flt = s.flt from hserving.flt_eq]
      exact hkept.restarts
    refine ⟨_, hexec, hkept.act.trans (congrArg Boot.act hboot), hkept.activating.trans (congrArg Boot.activating hboot),
      hkept.activeSlot.trans (congrArg Boot.activeSlot hboot :), hkept.fwMajor.trans (congrArg Boot.fwMajor hboot :), hnone, ?_, hrestarts, hkept.dummy,
      fun hirq => ?_⟩
    · rw [← hstatus]
      exact congrArg (fun m => (sgetD m (ringKey ⟨r.fn, r.ring⟩) {}).errStatus) hkept.rings
    · have hhost : t.mem.host = u.mem.host := hkept.host (by rw [hserving]; exact hirq)
      have hrings : t.port.rings = u.port.rings := hkept.rings
      show Claims.posts s t _ _ _ _
      unfold Claims.posts ringOf at hposts ⊢
      rw [hhost, hrings]
      exact hposts

/-- A step of an activation that is not due changes nothing. -/
theorem activationWaits : Claims.ActivationWaits := by
  intro s
  refine ⟨fun h => if_neg ?_, fun h => if_neg (by simp [h]), fun h => if_neg ?_, fun h => if_neg ?_⟩
  · rcases h with h | h | h | h
    · simp [h]
    · simp [h]
    · simp [h]
    · simp [Nat.not_lt.2 h]
  · rcases h with h | h
    · simp [h]
    · simp [Nat.not_le.2 h]
  · rcases h with h | h
    · simp [h]
    · simp [now, Nat.not_le.2 h]

/-- Settles O58. -/
theorem firmwareActivation : Obligations.FirmwareActivation := ⟨activationRuns, activationWaits⟩

end Sys2Proof.Proofs
end

section
/-!
PROOFS. Silent errors and units under test (R466, R467, R470, R471): check samples and their re-runs, arbiters, and directed tests.
-/

namespace Sys2Proof.Machine

open Sys2Proof

/-! ### Clean checks of a unit in WATCH (R470) -/

theorem cleanUnit_notWatched {u : UnitRef} {s : State} (h : inWatch s u = false) : cleanUnit u s = s := if_pos (by simp [h])

theorem cleanUnit_writes (u : UnitRef) (s : State) : EventWrites s (cleanUnit u s) := by
  unfold cleanUnit
  split
  · exact .refl s
  · cases u
    all_goals
      dsimp only
      split
      · exact (setCrew_crewsOnly s _ _).eventWrites
      · exact (setCrew_crewsOnly s _ _).eventWrites.trans (logRecord_writes _ none _).1

/-- Clean checks of a core, with the one that is counted now. -/
def coreClean (s : State) (n : Nat) : Nat := sgetD (crewOf s (n / 9)).clean (n % 9) 0 + 1

theorem cleanUnit_core_counts {n : Nat} {s : State} (hwatch : inWatch s (.core n) = true) (hlimit : coreClean s n < fieldOf s.flt.ctl 39 28) :
    cleanUnit (.core n) s = setCrew s (n / 9) { crewOf s (n / 9) with clean := sset (crewOf s (n / 9)).clean (n % 9) (coreClean s n) } := by
  rw [cleanUnit, if_neg (by simp [hwatch])]
  exact if_pos hlimit

theorem cleanUnit_core_ends {n : Nat} {s : State} (hwatch : inWatch s (.core n) = true) (hlimit : fieldOf s.flt.ctl 39 28 ≤ coreClean s n) :
    inWatch (cleanUnit (.core n) s) (.core n) = false := by
  have hends : ∃ r c, cleanUnit (.core n) s = logRecord r none (setCrew s (n / 9) c) ∧ c.watch = clearBit (crewOf s (n / 9)).watch (n % 9) := by
    rw [cleanUnit, if_neg (by simp [hwatch])]
    dsimp only
    rw [if_neg (show ¬ sgetD (crewOf s (unitCrew (.core n))).clean (n % 9) 0 + 1 < _ from Nat.not_lt.2 hlimit)]
    exact ⟨_, _, rfl, rfl⟩
  obtain ⟨r, c, hclean, hcleared⟩ := hends
  have hcrews := (logRecord_writes r none (setCrew s (n / 9) c)).2.2
  have hcrew : crewOf (logRecord r none (setCrew s (n / 9) c)) (n / 9) = c := by
    rw [crewOf, hcrews]
    exact crewOf_setCrew_self s _ _
  rw [hclean, inWatch, hcrew, hcleared]
  exact hasBit_clearBit_self _ _

/-- A key is kept where a greater one is removed. -/
theorem slookup_serase_below {α : Type} {m : Sparse α} {a b : Nat} {v : α} (h : slookup m a = some v) (hlt : a < b) : slookup (serase m b) a = some v := by
  induction m with
  | nil => exact absurd h (by simp [slookup])
  | cons x m ih =>
    obtain ⟨k, w⟩ := x
    rw [slookup] at h
    rw [serase]
    split at h
    next hk =>
      rw [if_neg (by omega), if_neg (by omega), slookup, if_pos hk, h]
    next hk =>
      split at h
      next => exact nomatch h
      next hle =>
        rw [if_neg (by omega), if_neg (by omega), slookup, if_neg hk, if_neg hle, ih h]

/-- A clean check of a crew's SRAM leaves its cores' WATCH and their counts. -/
theorem cleanUnit_crew_keeps (m : Nat) (s : State) :
    (crewOf (cleanUnit (.crew m) s) m).watch = (crewOf s m).watch
      ∧ ∀ k v, k < 9 → slookup (crewOf s m).clean k = some v → slookup (crewOf (cleanUnit (.crew m) s) m).clean k = some v := by
  unfold cleanUnit
  split
  · exact ⟨rfl, fun _ _ _ h => h⟩
  · dsimp only [unitCrew]
    split
    · rw [crewOf_setCrew_self]
      refine ⟨rfl, fun k v hk h => ?_⟩
      rw [slookup_sset_other _ _ _ _ (Nat.ne_of_lt hk), h]
    · rw [crewOf, (logRecord_writes _ none _).2.2]
      show (crewOf (setCrew s m _) m).watch = _ ∧ ∀ k v, k < 9 → _ → slookup (crewOf (setCrew s m _) m).clean k = some v
      rw [crewOf_setCrew_self]
      exact ⟨rfl, fun k v hk h => slookup_serase_below h hk⟩

/-! ### Samples -/

/-- A re-run is counted. -/
def checkCounted (s : State) : State := { s with flt := { s.flt with checksRun := (s.flt.checksRun + 1) % 2 ^ 64 } }

/-- Sample x with the core that checks it and the rows that differ. -/
def Sample.checkedBy (x : Sample) (c : CheckResult) : Sample := { x with checker := some c.core, rowsDiffer := c.rowsDiffer }

/-- A mismatch is counted, and the sample keeps it. -/
def mismatchCounted (x : Sample) (c : CheckResult) (s : State) : State :=
  { s with flt := { s.flt with
    mismatches := saturate 0xFF (s.flt.mismatches + 1)
    samples := s.flt.samples.map (fun z => if z.id == x.id then x.checkedBy c else z) } }

/-- The record of one of the cores that ran a sample whose runs all differ. -/
def unresolvedRecord (x : Sample) (arbiter rows n : Nat) (s : State) : ErrRec :=
  { repeatRecord s x arbiter rows with cls := 3, code := 0x21, action := 2, unit := n, committed := true }

/-- Core n is charged for a sample whose runs all differ. -/
def unresolvedCharged (x : Sample) (arbiter rows n : Nat) (s : State) : State := eventCharged (unresolvedRecord x arbiter rows n s) (some (.core n)) s

theorem recordFor_unresolved (x : Sample) (arbiter rows n : Nat) (s : State) :
    recordFor (unresolvedRecord x arbiter rows n s) (some (.core n)) s
      = if (!inWatch s (.core n) && !unitOut s (.core n)) = true then firstEvent (unresolvedRecord x arbiter rows n s) else unresolvedRecord x arbiter rows n s := by
  have hverdict : (unresolvedRecord x arbiter rows n s).verdict = 0 := rfl
  simp [recordFor, firstEvent, hverdict]

/-- Each core but the last is charged; the last one's event brings the restart (R467). -/
theorem unresolved_eq (x : Sample) (cores : List Nat) (last arbiter rows : Nat) (s : State) :
    unresolved x (cores ++ [last]) arbiter rows s
      = (let t := cores.foldl (fun t n => unresolvedCharged x arbiter rows n t) s
         detect (unresolvedRecord x arbiter rows last t) (some (.core last)) t) := by
  have hcharged (n : Nat) (t : State) : unresolvedCharged x arbiter rows n t = chargeUnit (.core n) (logRecord
      (if (!inWatch t (.core n) && !unitOut t (.core n)) = true then firstEvent (unresolvedRecord x arbiter rows n t) else unresolvedRecord x arbiter rows n t)
      (some (.core n)) t) := by
    rw [← recordFor_unresolved]
    rfl
  simp only [hcharged, unresolved, List.dropLast_concat, List.getLastD_concat]
  rfl

theorem BeforeEvent.dropSample {s t : State} (h : BeforeEvent s t) (id : Nat) : BeforeEvent s (dropSample id t) := by
  refine ⟨?_, h.newest⟩
  rw [Machine.dropSample, h.rest]

theorem mismatchCounted_beforeEvent (x : Sample) (c : CheckResult) (s : State) : BeforeEvent s (mismatchCounted x c (checkCounted s)) := ⟨rfl, rfl⟩

theorem unresolvedCharged_writes (x : Sample) (arbiter rows n : Nat) (s : State) : EventWrites s (unresolvedCharged x arbiter rows n s) :=
  eventCharged_writes _ _ s

/-- The event of a core whose runs all differ restarts the shell. -/
theorem restartAfter_unresolved (x : Sample) (arbiter rows n : Nat) (s : State) (who : Option UnitRef) :
    restartAfter (unresolvedRecord x arbiter rows n s) who s = 1 := if_pos (.inl rfl)

theorem BeforeEvent.refl (s : State) : BeforeEvent s s := ⟨rfl, rfl⟩

/-! ### REPEAT_CHECK_COMPLETE -/

/-- What a re-run does that disagrees: its mismatch waits for an arbiter, or the shell restarts where none serves. -/
def rowsDisagree (x : Sample) (c : CheckResult) (s : State) : State :=
  let t := mismatchCounted x c (checkCounted s)
  if (arbiterCrews t (x.core / 9) (c.core / 9)).isEmpty then
    unresolved (x.checkedBy c) [x.core, c.core] 0xFFFF c.rowsDiffer.length (dropSample x.id t)
  else t

/-- The package before the clean check counts: the sample is gone. -/
def rowsAgreed (x : Sample) (s : State) : State := dropSample x.id (checkCounted s)

section
variable {s : State} {x : Sample} {c : CheckResult} (hsample : sampleOf s c.sample = some x) (hcore : c.core < 9 * Config.crews s.part)
  (hrows : c.rowsDiffer.Nodup)
include hsample hcore hrows

theorem exec_repeatCheckComplete_stays (h : x.checker ≠ none ∨ coreServes s c.core = false ∨ c.core / 9 = x.core / 9) :
    exec (.repeatCheckComplete c) s = .next s := by
  have hnot : (clocksRun s && x.checker.isNone && coreServes s c.core && c.core / 9 != x.core / 9) = false := by
    rcases h with h | h | h
    · simp [Option.isNone_eq_false_iff.2 (Option.isSome_iff_ne_none.2 h)]
    · simp [h]
    · simp [h]
  show execRepeatCheckComplete c s = _
  rw [execRepeatCheckComplete, if_pos ⟨hcore, hrows⟩, hsample]
  dsimp only
  rw [if_neg (by rw [hnot]; exact Bool.false_ne_true)]
  rfl

variable (hclocks : clocksRun s = true) (hchecker : x.checker = none) (hserves : coreServes s c.core = true) (hcrews : c.core / 9 ≠ x.core / 9)
include hclocks hchecker hserves hcrews

theorem exec_repeatCheckComplete : exec (.repeatCheckComplete c) s = finish s (
    if c.rowsDiffer.isEmpty then cleanUnit (.crew (x.core / 9)) (cleanUnit (.core x.core) (rowsAgreed x s)) else rowsDisagree x c s) := by
  show execRepeatCheckComplete c s = _
  rw [execRepeatCheckComplete, if_pos ⟨hcore, hrows⟩, hsample]
  dsimp only
  rw [if_pos (by simp [hclocks, hchecker, hserves, hcrews])]
  rfl

theorem exec_repeatCheckComplete_agrees (hagree : c.rowsDiffer = []) :
    exec (.repeatCheckComplete c) s = .next (cleanUnit (.crew (x.core / 9)) (cleanUnit (.core x.core) (rowsAgreed x s))) := by
  have hkept : Kept s (cleanUnit (.crew (x.core / 9)) (cleanUnit (.core x.core) (rowsAgreed x s))) :=
    ((cleanUnit_writes _ _).trans (cleanUnit_writes _ _)).kept
  rw [exec_repeatCheckComplete hsample hcore hrows hclocks hchecker hserves hcrews, if_pos (by simp [hagree]), finish_of_kept hkept]

theorem exec_repeatCheckComplete_arbiter (hdiffer : c.rowsDiffer ≠ []) (harbiter : arbiterCrews s (x.core / 9) (c.core / 9) ≠ []) :
    exec (.repeatCheckComplete c) s = .next (mismatchCounted x c (checkCounted s)) := by
  have hsame : arbiterCrews (mismatchCounted x c (checkCounted s)) (x.core / 9) (c.core / 9) = arbiterCrews s (x.core / 9) (c.core / 9) := rfl
  rw [exec_repeatCheckComplete hsample hcore hrows hclocks hchecker hserves hcrews, if_neg (by simpa using hdiffer), rowsDisagree, hsame,
    if_neg (by simpa using harbiter)]
  rfl

theorem exec_repeatCheckComplete_noArbiter (hdiffer : c.rowsDiffer ≠ []) (hnone : arbiterCrews s (x.core / 9) (c.core / 9) = []) :
    exec (.repeatCheckComplete c) s = finish s (unresolved (x.checkedBy c) [x.core, c.core] 0xFFFF c.rowsDiffer.length
      (dropSample x.id (mismatchCounted x c (checkCounted s)))) := by
  have hsame : arbiterCrews (mismatchCounted x c (checkCounted s)) (x.core / 9) (c.core / 9) = arbiterCrews s (x.core / 9) (c.core / 9) := rfl
  rw [exec_repeatCheckComplete hsample hcore hrows hclocks hchecker hserves hcrews, if_neg (by simpa using hdiffer), rowsDisagree, hsame, hnone]
  rfl

end

/-- A clean check of a core in WATCH, and of its crew after it. -/
theorem cleanChecks_watch (n : Nat) (s : State) (hwatch : inWatch s (.core n) = true) :
    let t := cleanUnit (.crew (n / 9)) (cleanUnit (.core n) s)
    (coreClean s n < fieldOf s.flt.ctl 39 28 → inWatch t (.core n) = true ∧ sgetD (crewOf t (n / 9)).clean (n % 9) 0 = coreClean s n)
      ∧ (fieldOf s.flt.ctl 39 28 ≤ coreClean s n → inWatch t (.core n) = false) := by
  obtain ⟨hkept, hclean⟩ := cleanUnit_crew_keeps (n / 9) (cleanUnit (.core n) s)
  have hin : inWatch (cleanUnit (.crew (n / 9)) (cleanUnit (.core n) s)) (.core n) = inWatch (cleanUnit (.core n) s) (.core n) := by
    rw [inWatch, hkept]
    rfl
  refine ⟨fun hlimit => ⟨?_, ?_⟩, fun hlimit => ?_⟩
  · rw [hin, cleanUnit_core_counts hwatch hlimit, inWatch, crewOf_setCrew_self]
    exact hwatch
  · rw [sgetD, hclean (n % 9) (coreClean s n) (Nat.mod_lt n (by decide))]
    · rfl
    · rw [cleanUnit_core_counts hwatch hlimit, crewOf_setCrew_self, slookup_sset_self]
  · rw [hin, cleanUnit_core_ends hwatch hlimit]

/-! ### ARBITER_COMPLETE -/

/-- The record of the unit that an arbiter finds wrong. -/
def arbiterRecord (x : Sample) (a : ArbiterResult) (s : State) : ErrRec := repeatRecord (dropSample x.id s) x a.core x.rowsDiffer.length

section
variable {s : State} {x : Sample} {k : Nat} {a : ArbiterResult} (hsample : sampleOf s a.sample = some x) (hchecker : x.checker = some k)
  (hcore : a.core < 9 * Config.crews s.part)
include hsample hchecker hcore

theorem exec_arbiterComplete_stays (h : coreServes s a.core = false ∨ a.core / 9 = x.core / 9 ∨ a.core / 9 = k / 9) :
    exec (.arbiterComplete a) s = .next s := by
  have hnot : (clocksRun s && coreServes s a.core && a.core / 9 != x.core / 9 && a.core / 9 != k / 9) = false := by
    rcases h with h | h | h <;> simp [h]
  show execArbiterComplete a s = _
  rw [execArbiterComplete, if_pos hcore, hsample]
  dsimp only
  rw [hchecker]
  dsimp only
  rw [if_neg (by rw [hnot]; exact Bool.false_ne_true)]
  rfl

variable (hclocks : clocksRun s = true) (hserves : coreServes s a.core = true) (hfirst : a.core / 9 ≠ x.core / 9) (hsecond : a.core / 9 ≠ k / 9)
include hclocks hserves hfirst hsecond

theorem exec_arbiterComplete : exec (.arbiterComplete a) s = finish s (match a.agreement with
    | .checkerAndArbiter => detect { arbiterRecord x a s with action := 2, committed := true, suspect := true, fn := x.fn, tag := x.tag, ring := x.ring }
        (some (.core x.core)) (dropSample x.id s)
    | .originalAndArbiter => detect { arbiterRecord x a s with unit := k } (some (.core k)) (dropSample x.id s)
    | .none => unresolved x [x.core, k, a.core] a.core x.rowsDiffer.length (dropSample x.id s)) := by
  show execArbiterComplete a s = _
  rw [execArbiterComplete, if_pos hcore, hsample]
  dsimp only
  rw [hchecker]
  dsimp only
  rw [if_pos (by simp [hclocks, hserves, hfirst, hsecond])]
  rfl

end

/-! ### CHECK_SAMPLE_DROPPED -/

theorem exec_checkSampleDropped {s : State} {n : Nat} {x : Sample} (hsample : sampleOf s n = some x) : exec (.checkSampleDropped n) s
    = finish s (if (x.checker.isNone && decide (x.takenAt + 1000000000 ≤ s.clk.ts)) = true then dropSample n s else s) := by
  show execCheckSampleDropped n s = _
  rw [execCheckSampleDropped, hsample]
  rfl

section
variable {s : State} {n : Nat} (hsample : sampleOf s n = none)
include hsample

theorem exec_checkSampleDropped_unknown : exec (.checkSampleDropped n) s = .next s := by
  show execCheckSampleDropped n s = _
  rw [execCheckSampleDropped, hsample]
  rfl

theorem exec_repeatCheckComplete_unknown {c : CheckResult} (hc : c.sample = n) (hcore : c.core < 9 * Config.crews s.part) (hrows : c.rowsDiffer.Nodup) :
    exec (.repeatCheckComplete c) s = .next s := by
  show execRepeatCheckComplete c s = _
  rw [execRepeatCheckComplete, if_pos ⟨hcore, hrows⟩, hc, hsample]
  rfl

theorem exec_arbiterComplete_unknown {a : ArbiterResult} (ha : a.sample = n) (hcore : a.core < 9 * Config.crews s.part) :
    exec (.arbiterComplete a) s = .next s := by
  show execArbiterComplete a s = _
  rw [execArbiterComplete, if_pos hcore, ha, hsample]
  rfl

end

/-! ### DIRECTED_TEST_COMPLETE -/

section
variable {s : State} {u : UnitRef} {passed : Bool} (hpresent : unitPresent s u = true)
include hpresent

theorem exec_directedTestComplete_stays (htesting : inTesting s u = false) : exec (.directedTestComplete u passed) s = .next s := by
  show execDirectedTestComplete u passed s = _
  rw [execDirectedTestComplete, if_pos hpresent, if_neg (by simp [htesting])]
  rfl

variable (hclocks : clocksRun s = true) (htesting : inTesting s u = true)
include hclocks htesting

theorem exec_directedTestComplete_passes (hpassed : passed = true) (hlimit : windowEvents s u < fieldOf s.flt.ctl 27 24) :
    exec (.directedTestComplete u passed) s = finish s (passUnit u s) := by
  show execDirectedTestComplete u passed s = _
  rw [execDirectedTestComplete, if_pos hpresent, if_pos (by simp [hclocks, htesting]), if_pos (by simp [hpassed, hlimit])]

theorem exec_directedTestComplete_fails (h : passed = false ∨ fieldOf s.flt.ctl 27 24 ≤ windowEvents s u) :
    exec (.directedTestComplete u passed) s = finish s (failUnit u s) := by
  have hnot : (passed && decide (windowEvents s u < fieldOf s.flt.ctl 27 24)) = false := by
    rcases h with h | h
    · simp [h]
    · simp [Nat.not_lt.2 h]
  show execDirectedTestComplete u passed s = _
  rw [execDirectedTestComplete, if_pos hpresent, if_pos (by simp [hclocks, htesting]), if_neg (by rw [hnot]; exact Bool.false_ne_true)]

end

/-- A core that passes its test: its crew, with the core in WATCH. -/
theorem passUnit_core (n : Nat) (s : State) : ∃ c, passUnit (.core n) s = setCrew s (n / 9) c
    ∧ c.testing = clearBit (crewOf s (n / 9)).testing (n % 9) ∧ c.watch = setBit (crewOf s (n / 9)).watch (n % 9)
    ∧ c.clean = sset (crewOf s (n / 9)).clean (n % 9) 0 := by
  refine ⟨_, rfl, ?_⟩
  split_ifs
  all_goals exact ⟨rfl, rfl, rfl⟩

end Sys2Proof.Machine
end

section
/-!
PROOFS. Silent errors as the claims state them (R466, R467, R470, R471; O57).
-/

namespace Sys2Proof.Machine

open Sys2Proof

theorem EventWrites.samples_eq {s t : State} (h : EventWrites s t) : (passEvent t).flt.samples = s.flt.samples := by rw [h]; rfl

theorem EventWrites.mismatches_eq {s t : State} (h : EventWrites s t) : (passEvent t).flt.mismatches = s.flt.mismatches := by rw [h]; rfl

/-- A command whose event restarts the shell, where the record's fields are the claim's whatever VERDICT it has. -/
theorem eventCharged_restartsWith {s t : State} (h : BeforeEvent s t) (hflow : Claims.eventsFlow s) {r : ErrRec} {who : Option UnitRef}
    (hrestart : restartAfter r who t = 1) {p : ErrRec → Prop} {extra : State → Prop}
    (hp : ∀ v time seq nv pkg shell, p { r with verdict := v, time := time, seq := seq, nv := nv, pkg := pkg, shell := shell })
    (hextra : extra (passEvent (eventCharged r who t))) : Claims.restartsWith s (finish s (detect r who t)) 1 p extra :=
  restartsWith_detect h hflow hrestart (recorded_eventCharged h hp) hextra

/-- The crew whose SRAM passes its test. -/
theorem crewOf_passUnit_crew (n : Nat) (s : State) :
    crewOf (passUnit (.crew n) s) n = { crewOf s n with sramTesting := false, sramWatch := true, clean := sset (crewOf s n).clean 9 0 } :=
  crewOf_setCrew_self s n _

/-- Records before the last one change nothing that a command's answer takes from the state before. -/
theorem finish_of_writes {s t v : State} (hbefore : BeforeEvent s t) (hwrites : EventWrites t v) (u : State) : finish s u = finish v u := by
  have hpending : v.pending = s.pending := by rw [hwrites, hbefore.rest]
  have hpart : v.part = s.part := by rw [hwrites, hbefore.rest]
  have hcal : v.cal = s.cal := by rw [hwrites, hbefore.rest]
  rw [finish, finish, hpending, hpart, hcal]

theorem eventsFlow_of_writes {s t v : State} (hbefore : BeforeEvent s t) (hwrites : EventWrites t v) (hflow : Claims.eventsFlow s) : Claims.eventsFlow v :=
  hwrites.eventsFlow (hbefore.eventsFlow hflow)

end Sys2Proof.Machine

namespace Sys2Proof.Proofs

open Sys2Proof Sys2Proof.Machine

/-- A re-run that finds no arbiter: each of its two cores has its event, and the second one's brings the restart. -/
theorem repeatCheck_unresolved {s : State} {x : Sample} {c : CheckResult} (hflow : Claims.eventsFlow s) :
    ∃ s1, Claims.logsFirst s s1 (fun r => r.code = 0x21 ∧ r.cls = 3 ∧ r.unitKind = 3 ∧ r.unit = x.core ∧ r.isRepeat = true)
      ∧ Claims.restartsWith s1 (finish s (unresolved (x.checkedBy c) [x.core, c.core] 0xFFFF c.rowsDiffer.length
            (dropSample x.id (mismatchCounted x c (checkCounted s))))) 1
          (fun r => r.code = 0x21 ∧ r.cls = 3 ∧ r.action = 2 ∧ r.unitKind = 3 ∧ r.unit = c.core)
          (fun u => u.flt.mismatches = min 0xFF (s.flt.mismatches + 1) ∧ ∀ y ∈ u.flt.samples, y.id ≠ x.id) := by
  have hbefore := (mismatchCounted_beforeEvent x c s).dropSample x.id
  have hmismatches : (dropSample x.id (mismatchCounted x c (checkCounted s))).flt.mismatches = min 0xFF (s.flt.mismatches + 1) := rfl
  have hsamples : ∀ y ∈ (dropSample x.id (mismatchCounted x c (checkCounted s))).flt.samples, y.id ≠ x.id := fun y hy => by
    simpa using (List.mem_filter.1 hy).2
  generalize dropSample x.id (mismatchCounted x c (checkCounted s)) = t at *
  have hwrites := unresolvedCharged_writes (x.checkedBy c) 0xFFFF c.rowsDiffer.length x.core t
  refine ⟨unresolvedCharged (x.checkedBy c) 0xFFFF c.rowsDiffer.length x.core t, logsFirst_eventCharged hbefore fun _ _ _ _ _ _ => ⟨rfl, rfl, rfl, rfl, rfl⟩, ?_⟩
  rw [show [x.core, c.core] = [x.core] ++ [c.core] from rfl, unresolved_eq, List.foldl_cons, List.foldl_nil, finish_of_writes hbefore hwrites]
  generalize unresolvedCharged (x.checkedBy c) 0xFFFF c.rowsDiffer.length x.core t = v at *
  have hlast := hwrites.trans (eventCharged_writes (unresolvedRecord (x.checkedBy c) 0xFFFF c.rowsDiffer.length c.core v) (some (.core c.core)) v)
  refine eventCharged_restartsWith (.refl v) (eventsFlow_of_writes hbefore hwrites hflow) (restartAfter_unresolved _ _ _ _ _ _)
    (fun _ _ _ _ _ _ => ⟨rfl, rfl, rfl, rfl, rfl⟩) ⟨?_, ?_⟩
  · rw [hlast.mismatches_eq, hmismatches]
  · rw [hlast.samples_eq]
    exact hsamples

/-- REPEAT_CHECK_COMPLETE (R466, R467, R470). -/
theorem repeatChecks : Claims.RepeatChecks := by
  intro s x c hsample hcore hrows
  refine ⟨fun hclocks hchecker hserves hcrews => ⟨fun hagree => ?_, fun hdiffer harbiter => ?_, fun hdiffer hnone hflow => ?_⟩, ?_⟩
  · have hexec := exec_repeatCheckComplete_agrees hsample hcore hrows hclocks hchecker hserves hcrews hagree
    refine ⟨fun hcoreOut hcrewOut => ?_, _, hexec, ?_⟩
    · have hcore' : cleanUnit (.core x.core) (rowsAgreed x s) = rowsAgreed x s := cleanUnit_notWatched hcoreOut
      have hcrew' : cleanUnit (.crew (x.core / 9)) (rowsAgreed x s) = rowsAgreed x s := cleanUnit_notWatched hcrewOut
      rw [hexec, hcore', hcrew']
      rfl
    · have hwrites := (cleanUnit_writes (.core x.core) (rowsAgreed x s)).trans (cleanUnit_writes (.crew (x.core / 9)) _)
      refine ⟨?_, ?_, ?_, cleanChecks_watch x.core (rowsAgreed x s)⟩
      · rw [hwrites]
        rfl
      · rw [hwrites]
        rfl
      · rw [hwrites]
        rfl
  · exact exec_repeatCheckComplete_arbiter hsample hcore hrows hclocks hchecker hserves hcrews hdiffer harbiter
  · rw [exec_repeatCheckComplete_noArbiter hsample hcore hrows hclocks hchecker hserves hcrews hdiffer hnone]
    exact repeatCheck_unresolved hflow
  · exact exec_repeatCheckComplete_stays hsample hcore hrows

/-- An arbiter that agrees with neither run: the three cores have their events, and the last one's brings the restart. -/
theorem arbiter_unresolved {s : State} (x : Sample) (k n rows : Nat) (hflow : Claims.eventsFlow s) :
    ∃ s1 s2, Claims.logsFirst s s1 (fun r => r.code = 0x21 ∧ r.cls = 3 ∧ r.unit = x.core)
      ∧ Claims.logsFirst s1 s2 (fun r => r.code = 0x21 ∧ r.cls = 3 ∧ r.unit = k)
      ∧ Claims.restartsWith s2 (finish s (unresolved x [x.core, k, n] n rows (dropSample x.id s))) 1
          (fun r => r.code = 0x21 ∧ r.cls = 3 ∧ r.action = 2 ∧ r.unit = n) (fun u => u.flt.samples = s.flt.samples.filter (fun y => y.id != x.id)) := by
  have hbefore := (BeforeEvent.refl s).dropSample x.id
  have hsamples : (dropSample x.id s).flt.samples = s.flt.samples.filter (fun y => y.id != x.id) := rfl
  generalize dropSample x.id s = t at *
  have hfirst := unresolvedCharged_writes x n rows x.core t
  have hlogged := logsFirst_eventCharged (r := unresolvedRecord x n rows x.core t) (who := some (.core x.core)) hbefore
    (p := fun r => r.code = 0x21 ∧ r.cls = 3 ∧ r.unit = x.core) fun _ _ _ _ _ _ => ⟨rfl, rfl, rfl⟩
  refine ⟨unresolvedCharged x n rows x.core t, unresolvedCharged x n rows k (unresolvedCharged x n rows x.core t), hlogged,
    logsFirst_eventCharged (.refl _) fun _ _ _ _ _ _ => ⟨rfl, rfl, rfl⟩, ?_⟩
  have hwrites := hfirst.trans (unresolvedCharged_writes x n rows k _)
  rw [show [x.core, k, n] = [x.core, k] ++ [n] from rfl, unresolved_eq, List.foldl_cons, List.foldl_cons, List.foldl_nil, finish_of_writes hbefore hwrites]
  generalize unresolvedCharged x n rows k (unresolvedCharged x n rows x.core t) = v at *
  have hlast := hwrites.trans (eventCharged_writes (unresolvedRecord x n rows n v) (some (.core n)) v)
  refine eventCharged_restartsWith (.refl v) (eventsFlow_of_writes hbefore hwrites hflow) (restartAfter_unresolved _ _ _ _ _ _)
    (fun _ _ _ _ _ _ => ⟨rfl, rfl, rfl, rfl⟩) ?_
  rw [hlast.samples_eq, hsamples]

/-- The checker is charged, with no restart. -/
theorem arbiter_chargesChecker {s : State} {x : Sample} {k : Nat} {a : ArbiterResult} (hflow : Claims.eventsFlow s) (hwatch : inWatch s (.core k) = false) :
    ∃ t, finish s (detect { arbiterRecord x a s with unit := k } (some (.core k)) (dropSample x.id s)) = .next t
      ∧ t.flt.samples = s.flt.samples.filter (fun y => y.id != x.id) ∧ t.srv = s.srv
      ∧ Claims.recorded s t (fun r => r.code = 0x20 ∧ r.cls = 2 ∧ r.action = 0 ∧ r.unitKind = 3 ∧ r.unit = k ∧ r.isRepeat = true)
      ∧ (unitOut s (.core k) = false → inWatch t (.core k) = true ∧ ∀ r, t.flt.live.head? = some r → r.verdict = 1) := by
  have hbefore := (BeforeEvent.refl s).dropSample x.id
  have hnot : restartAfter { arbiterRecord x a s with unit := k } (some (.core k)) (dropSample x.id s) = 0 := by
    have hwatch' : inWatch (dropSample x.id s) (.core k) = false := hwatch
    simp [restartAfter, arbiterRecord, repeatRecord, chargedBefore, hwatch']
  have hwrites := eventCharged_writes { arbiterRecord x a s with unit := k } (some (.core k)) (dropSample x.id s)
  have hrecorded : Claims.recorded s (eventCharged { arbiterRecord x a s with unit := k } (some (.core k)) (dropSample x.id s))
      (fun r => r.code = 0x20 ∧ r.cls = 2 ∧ r.action = 0 ∧ r.unitKind = 3 ∧ r.unit = k ∧ r.isRepeat = true) :=
    recorded_eventCharged hbefore fun _ _ _ _ _ _ => ⟨rfl, rfl, rfl, rfl, rfl, rfl⟩
  rw [detect_noRestartAfter (hbefore.eventsFlow hflow) hnot]
  refine ⟨_, rfl, hwrites.samples_eq, ?_, hrecorded, fun hout => ⟨?_, fun r hr => ?_⟩⟩
  · rw [hwrites]
    rfl
  · exact inWatch_eventCharged (u := .core k) (s := dropSample x.id s) hwatch hout
  · obtain ⟨nv, hhead, -⟩ := eventCharged_newestIs { arbiterRecord x a s with unit := k } (some (.core k)) (dropSample x.id s)
    have hverdict : { arbiterRecord x a s with unit := k }.verdict = 0 := rfl
    rw [recordFor_first (u := .core k) (s := dropSample x.id s) hverdict hwatch hout] at hhead
    obtain rfl := Option.some.inj (hhead.symm.trans hr)
    rfl

/-- ARBITER_COMPLETE (R467). -/
theorem arbiters : Claims.Arbiters := by
  intro s x k a hsample hchecker hcore
  refine ⟨fun hclocks hserves hfirst hsecond hflow => ?_, exec_arbiterComplete_stays hsample hchecker hcore⟩
  have hexec := exec_arbiterComplete hsample hchecker hcore hclocks hserves hfirst hsecond
  have hbefore := (BeforeEvent.refl s).dropSample x.id
  refine ⟨fun hagree hwatch => ?_, fun hagree hwatch => ?_, fun hagree => ?_, fun hagree => ?_⟩
  all_goals
    rw [hagree] at hexec
    rw [hexec]
  · exact arbiter_chargesChecker hflow hwatch
  · have hsecondEvent : restartAfter { arbiterRecord x a s with unit := k } (some (.core k)) (dropSample x.id s) = 1 := if_pos (.inr hwatch)
    exact eventCharged_restartsWith hbefore hflow hsecondEvent (fun _ _ _ _ _ _ => ⟨rfl, rfl, rfl, rfl, rfl⟩) (eventCharged_writes _ _ _).samples_eq
  · exact eventCharged_restartsWith hbefore hflow (if_pos (.inl rfl)) (fun _ _ _ _ _ _ => ⟨rfl, rfl, rfl, rfl, rfl, rfl, rfl, rfl⟩)
      (eventCharged_writes _ _ _).samples_eq
  · exact arbiter_unresolved x k a.core x.rowsDiffer.length hflow

/-- CHECK_SAMPLE_DROPPED (R466). -/
theorem samplesDrop : Claims.SamplesDrop := by
  intro s n
  refine ⟨fun x hsample hchecker hdue => ?_, fun x hsample hstays => ?_, fun hnone => ⟨exec_checkSampleDropped_unknown hnone,
    fun c hc hcore hrows => exec_repeatCheckComplete_unknown hnone hc hcore hrows, fun a ha hcore => exec_arbiterComplete_unknown hnone ha hcore⟩⟩
  · rw [exec_checkSampleDropped hsample, if_pos (by simp [hchecker, hdue])]
    rfl
  · have hnot : (x.checker.isNone && decide (x.takenAt + 1000000000 ≤ s.clk.ts)) = false := by
      rcases hstays with h | h
      · simp [Option.isNone_eq_false_iff.2 (Option.isSome_iff_ne_none.2 h)]
      · simp [Nat.not_le.2 h]
    rw [exec_checkSampleDropped hsample, if_neg (by rw [hnot]; exact Bool.false_ne_true)]
    rfl

/-- A unit that fails for good: its event has VERDICT PERMANENT and restarts the shell. -/
theorem restartsWith_failed {s t : State} (h : BeforeEvent s t) (hflow : Claims.eventsFlow s) {r : ErrRec} (haction : r.action = 2) {p : ErrRec → Prop}
    {extra : State → Prop} (hp : ∀ time seq nv pkg shell, p { r with time := time, seq := seq, nv := nv, pkg := pkg, shell := shell })
    (hextra : ∀ u : State, u.crews = t.crews → extra u) : Claims.restartsWith s (finish s (detect r none t)) 1 p extra := by
  have hts : t.clk.ts = s.clk.ts := by rw [h.rest]
  exact restartsWith_detect h hflow (if_pos (.inl haction)) ((eventCharged_newestIs r none t).recorded hts h.newest hp) (hextra _ (eventCharged_none_crews r t))

/-- The directed test of a core (R470, R471). -/
theorem directedTest_core {s : State} {n : Nat} (passed : Bool) (hclocks : clocksRun s = true) (hn : n < 9 * Config.crews s.part)
    (htesting : inTesting s (.core n) = true) :
    (passed = true → windowEvents s (.core n) < fieldOf s.flt.ctl 27 24 → ∃ t, exec (.directedTestComplete (.core n) passed) s = .next t
        ∧ inTesting t (.core n) = false ∧ inWatch t (.core n) = true ∧ sgetD (crewOf t (n / 9)).clean (n % 9) 0 = 0
        ∧ (∀ c, c ≠ n / 9 → crewOf t c = crewOf s c) ∧ t = { s with crews := t.crews })
      ∧ (passed = false ∨ fieldOf s.flt.ctl 27 24 ≤ windowEvents s (.core n) → Claims.eventsFlow s →
          Claims.restartsWith s (exec (.directedTestComplete (.core n) passed) s) 1
            (fun r => r.code = 0x22 ∧ r.cls = 2 ∧ r.action = 2 ∧ r.unitKind = 3 ∧ r.unit = n ∧ r.verdict = 3)
            (fun u => hasBit (crewOf u (n / 9)).failed (n % 9) = true ∧ inTesting u (.core n) = false)) := by
  have hpresent : unitPresent s (.core n) = true := decide_eq_true hn
  refine ⟨fun hpassed hlimit => ?_, fun hfails hflow => ?_⟩
  · obtain ⟨c, hpass, htested, hwatched, hcleaned⟩ := passUnit_core n s
    have hexec := exec_directedTestComplete_passes hpresent hclocks htesting hpassed hlimit
    rw [hpass] at hexec
    refine ⟨setCrew s (n / 9) c, hexec, ?_, ?_, ?_, fun m hm => crewOf_setCrew_other s _ _ _ hm, rfl⟩
    · rw [inTesting, crewOf_setCrew_self, htested, hasBit_clearBit_self]
    · rw [inWatch, crewOf_setCrew_self, hwatched, hasBit_setBit]
    · rw [crewOf_setCrew_self, hcleaned, sgetD_sset_self]
  · rw [exec_directedTestComplete_fails hpresent hclocks htesting hfails]
    refine restartsWith_failed (t := failCore s n) ⟨rfl, rfl⟩ hflow rfl (fun _ _ _ _ _ => ⟨rfl, rfl, rfl, rfl, rfl, rfl⟩) fun u hu => ?_
    have hcrew : crewOf u (n / 9) = crewOf (failCore s n) (n / 9) := by rw [crewOf, hu]; rfl
    rw [inTesting, hcrew]
    refine ⟨failed_failCore s n, ?_⟩
    rw [failCore, crewOf_setCrew_self]
    exact hasBit_clearBit_self _ _

/-- The directed test of a crew's SRAM (R470, R471). -/
theorem directedTest_crew {s : State} {n : Nat} (passed : Bool) (hclocks : clocksRun s = true) (hn : n < Config.crews s.part)
    (htesting : inTesting s (.crew n) = true) :
    (passed = true → windowEvents s (.crew n) < fieldOf s.flt.ctl 27 24 → ∃ t, exec (.directedTestComplete (.crew n) passed) s = .next t
        ∧ inTesting t (.crew n) = false ∧ inWatch t (.crew n) = true ∧ sgetD (crewOf t n).clean 9 0 = 0
        ∧ (∀ c, c ≠ n → crewOf t c = crewOf s c) ∧ t = { s with crews := t.crews })
      ∧ (passed = false ∨ fieldOf s.flt.ctl 27 24 ≤ windowEvents s (.crew n) → Claims.eventsFlow s →
          Claims.restartsWith s (exec (.directedTestComplete (.crew n) passed) s) 1
            (fun r => r.code = 0x23 ∧ r.cls = 2 ∧ r.action = 2 ∧ r.unitKind = 2 ∧ r.unit = n ∧ r.verdict = 3)
            (fun u => (crewOf u n).sramFailed = true ∧ inTesting u (.crew n) = false)) := by
  have hpresent : unitPresent s (.crew n) = true := decide_eq_true hn
  refine ⟨fun hpassed hlimit => ?_, fun hfails hflow => ?_⟩
  · refine ⟨_, exec_directedTestComplete_passes hpresent hclocks htesting hpassed hlimit, ?_, ?_, ?_, fun m hm => crewOf_setCrew_other s _ _ _ hm, rfl⟩
    · exact congrArg Crew.sramTesting (crewOf_passUnit_crew n s)
    · exact congrArg Crew.sramWatch (crewOf_passUnit_crew n s)
    · show sgetD (crewOf (passUnit (.crew n) s) n).clean 9 0 = 0
      rw [crewOf_passUnit_crew, sgetD_sset_self]
  · rw [exec_directedTestComplete_fails hpresent hclocks htesting hfails]
    refine restartsWith_failed (t := setCrew s n { crewOf s n with sramTesting := false, sramFailed := true }) ⟨rfl, rfl⟩ hflow rfl
      (fun _ _ _ _ _ => ⟨rfl, rfl, rfl, rfl, rfl, rfl⟩) fun u hu => ?_
    have hcrew : crewOf u n = { crewOf s n with sramTesting := false, sramFailed := true } := by
      rw [crewOf, hu]
      exact crewOf_setCrew_self s n _
    rw [inTesting, hcrew]
    exact ⟨rfl, rfl⟩

/-- DIRECTED_TEST_COMPLETE (R470, R471). -/
theorem directedTests : Claims.DirectedTests := by
  intro s n passed hclocks
  exact ⟨fun hn => ⟨directedTest_core passed hclocks hn, exec_directedTestComplete_stays (decide_eq_true hn)⟩,
    fun hn => ⟨directedTest_crew passed hclocks hn, exec_directedTestComplete_stays (decide_eq_true hn)⟩⟩

/-- Settles O57. -/
theorem silentErrors : Obligations.SilentErrors := ⟨repeatChecks, arbiters, samplesDrop, directedTests⟩

end Sys2Proof.Proofs
end
